-- ==== Sys2Proof/Word.lean ====
section
/-! DEFINITION. The plain words the model is written in: bytes, the three ports, the two bays, labels, and the
two small tables "one value for each port" and "one value for each bay". -/

namespace Sys2Proof

/-- A byte of a block, frame or record. -/
abbrev Byte := BitVec 8
/-- A 2-byte field of a block (big-endian on the link, R185). -/
abbrev Half := BitVec 16
/-- A 4-byte field of a block or header (big-endian, R185, R186). -/
abbrev Word := BitVec 32

/-- The three initiator ports (section 0.3). -/
inductive Port where
  | p0 | p1 | p2
  deriving DecidableEq, Repr

/-- The two drive bays; the stream number is the bay number (chapter 5). -/
inductive Bay where
  | d0 | d1
  deriving DecidableEq, Repr

/-- One value for each port. -/
structure PerPort (α : Type) where
  p0 : α
  p1 : α
  p2 : α
  deriving DecidableEq, Repr

/-- One value for each bay. -/
structure PerBay (α : Type) where
  d0 : α
  d1 : α
  deriving DecidableEq, Repr

/-- A label: 8 bytes of character codes, the first character in the most significant byte (R185).
Read as a number it orders labels as R18 does: left to right, digits before letters. -/
structure Label where
  code : BitVec 64
  deriving DecidableEq, Repr

def Port.num : Port → Nat
  | .p0 => 0
  | .p1 => 1
  | .p2 => 2

def Bay.num : Bay → Nat
  | .d0 => 0
  | .d1 => 1

/-- The next port in the cycle P0, P1, P2, P0 (R81, R90). -/
def Port.next : Port → Port
  | .p0 => .p1
  | .p1 => .p2
  | .p2 => .p0

def Bay.other : Bay → Bay
  | .d0 => .d1
  | .d1 => .d0

def PerPort.get {α : Type} (t : PerPort α) : Port → α
  | .p0 => t.p0
  | .p1 => t.p1
  | .p2 => t.p2

def PerPort.set {α : Type} (t : PerPort α) (p : Port) (v : α) : PerPort α :=
  match p with
  | .p0 => { t with p0 := v }
  | .p1 => { t with p1 := v }
  | .p2 => { t with p2 := v }

def PerPort.all {α : Type} (v : α) : PerPort α := ⟨v, v, v⟩

def PerBay.get {α : Type} (t : PerBay α) : Bay → α
  | .d0 => t.d0
  | .d1 => t.d1

def PerBay.set {α : Type} (t : PerBay α) (b : Bay) (v : α) : PerBay α :=
  match b with
  | .d0 => { t with d0 := v }
  | .d1 => { t with d1 := v }

def PerBay.all {α : Type} (v : α) : PerBay α := ⟨v, v⟩

end Sys2Proof
end

