-- ==== Sys2Proof/Syntax.lean ====
section
/-! DEFINITION. The commands of the 716: one constructor for each row of spec/opcode_table.json. Requests carry the body
fields of Table 10-2 as they stand on the link (R185), so that the tests of a field are the meaning's, not the
syntax's; reports and replies from outside carry what the line or drive reports. -/

namespace Sys2Proof

/-- One slot reading of an audit: "a label, NO LABEL or empty" (R47). -/
inductive Reading where
  | label (l : Label)
  | noLabel
  | empty
  deriving DecidableEq, Repr

/-- One setting entry of a CONFIGURE or of REPORT-SETTINGS (Table 10-5). -/
structure SettingEntry where
  setting : Byte
  index : Byte
  value : Word
  deriving DecidableEq, Repr

/-- The examined fields of the 32-byte tape block header (Table 10-8, R186); its reserved bytes are written as 0
and "not examined on any block". -/
structure TapeHeader where
  kind : Byte
  form : Byte
  writer : Byte
  rawLen : Word
  storedLen : Word
  check : Word
  setNumber : Word
  deriving DecidableEq, Repr

/-- The kinds of request block the 716 knows (Table 10-2). -/
inductive ReqKind where
  | move | load | loadScratch | unload | audit | recover
  | releaseVolume | reportElements | reportVolumes | reportStatus | reportSettings | configure
  | openStream | writeRecord | writeMark | resumeStream | sync | closeStream
  | readRecords | verify | abort
  deriving DecidableEq, Repr

/-- The commands. `p` is the port a request or link event comes in on, `tag` its tag byte as sent, `bay` in a drive
reply the bay that sends it; a `bay`, `stream`, `form`, `mode` or `kind` of type `Byte` is a field as sent. -/
inductive Instr where
  -- resets (R184, R52): the LAYOUT lines and the two door switches as sampled
  | powerOn (layout1 layout0 serviceOpen mailOpen : Bool)
  | boardReset (layout1 layout0 serviceOpen mailOpen : Bool)
  -- link events (R170 to R172)
  | linkUp (p : Port)
  | linkDown (p : Port)
  | linkReset (p : Port)
  -- move requests (chapter 2)
  | move (p : Port) (tag form srcLea dstLea : Byte) (label : Label)
  | load (p : Port) (tag form srcLea dstLea : Byte) (label : Label)
  | loadScratch (p : Port) (tag driveLea : Byte)
  | unload (p : Port) (tag driveLea named dstLea : Byte)
  | audit (p : Port) (tag : Byte)
  | recover (p : Port) (tag : Byte) (gripped : Bool)
  -- volumes and reports (chapters 1 and 9)
  | releaseVolume (p : Port) (tag : Byte) (label : Label)
  | reportElements (p : Port) (tag firstLea : Byte) (count : Half)
  | reportVolumes (p : Port) (tag form : Byte) (label : Label)
  | reportStatus (p : Port) (tag : Byte)
  | reportSettings (p : Port) (tag : Byte)
  -- settings (chapter 9)
  | configure (p : Port) (tag : Byte) (entries : List SettingEntry)
  | settingsStoreWriteComplete
  -- stream requests (chapter 5)
  | openStream (p : Port) (tag bay mode shrink : Byte) (n : Word)
  | writeRecord (p : Port) (stream kind : Byte) (data : List Byte)
  | writeMark (p : Port) (stream : Byte)
  | resumeStream (p : Port) (tag stream : Byte)
  | sync (p : Port) (tag stream : Byte)
  | closeStream (p : Port) (tag stream mode : Byte)
  -- run requests (chapters 7 and 8)
  | readRecords (p : Port) (tag bay form stop : Byte) (count : Half) (first k e : Word)
  | verify (p : Port) (tag bay form : Byte) (a n : Word)
  | abort (p : Port) (tag bay : Byte)
  | unknownRequest (p : Port) (type kind tag : Byte) (body : List Byte)
  -- picker reports (chapter 2)
  | fetchComplete (gripped : Bool) (label : Option Label)
  | carryComplete
  | placeComplete (obstructed : Bool)
  | homingComplete
  | auditSlotReading (reading : Reading)
  | motionTimerExpiry
  | serviceDoorOpen
  | serviceDoorClosed
  | mailDoorOpen
  | mailDoorClosed
  | pickerTakeWork
  | owedUnloadQueued
  -- drive replies (chapter 3)
  | threaded (bay : Bay) (cls : Nat) (writeProtected : Bool)
  | threadFault (bay : Bay)
  | ejected (bay : Bay)
  | status (bay : Bay) (present : Bool) (label : Option Label) (threaded : Bool) (cls : Nat) (writeProtected : Bool)
  | located (bay : Bay) (block frame : Nat)
  | blank (bay : Bay)
  | committed (bay : Bay) (block : Nat)
  | writeFault (bay : Bay) (block : Nat)
  | gapDone (bay : Bay)
  | data (bay : Bay) (block : Nat) (header : TapeHeader) (stored : List Byte)
  | readFault (bay : Bay) (block : Nat)
  | fault (bay : Bay)
  | replyTimerExpiry (bay : Bay)
  -- codec engine (chapter 6)
  | shrinkComplete
  | expandDeliverComplete
  | expandCheckComplete
  | engineTakeItem
  -- segment buffer (chapter 4)
  | readAllocationComplete (bay : Bay)
  | expandAllocationComplete (bay : Bay)
  | verifyReservationMet
  -- ports, streams and runs
  | frameSent (p : Port)
  | commitLatencyTimerExpiry (bay : Bay)
  | claimHoldTimerExpiry (p : Port)
  | unloadOwedMark (bay : Bay)
  | streamClose (bay : Bay)
  | syncAnswered (bay : Bay)
  | restoreRunClose (bay : Bay)
  | verifyRunClose (bay : Bay)
  deriving DecidableEq, Repr

end Sys2Proof
end

