-- ==== Sys2Proof/Decode.lean ====
section
/-! DEFINITION. Decoding. The opcode table gives no row any bits, so no table word spells a command
(`decodeTableWord`). What the spec does lay out to the byte is the inbound request block (R185, Tables 10-1 and 10-2):
`decodeBlock` reads one, total on any bytes. -/

namespace Sys2Proof

/-- The command a table word spells: the table's rows carry no bits, so none does. -/
def decodeTableWord (_nbits _w : Nat) : Option Instr := none

/-- The 8 bytes of a label, first character first (R185). -/
def Label.bytes (l : Label) : List Byte :=
  (List.range 8).map fun k => l.code.extractLsb' (8 * (7 - k)) 8

/-- One of the 36 character codes: 30h to 39h or 41h to 5Ah (R185). -/
def isLabelChar (b : Byte) : Bool :=
  (decide (0x30 ≤ b.toNat) && decide (b.toNat ≤ 0x39)) || (decide (0x41 ≤ b.toNat) && decide (b.toNat ≤ 0x5A))

/-- "8 characters, each A to Z or 0 to 9" (R12). -/
def Label.valid (l : Label) : Bool := l.bytes.all isLabelChar

/-- A big-endian field (R185). -/
def beNat (bs : List Byte) : Nat := bs.foldl (fun acc b => acc * 256 + b.toNat) 0

/-- The label held in 8 bytes. -/
def Label.ofBytes (bs : List Byte) : Label := ⟨BitVec.ofNat 64 (beNat bs)⟩

def byteAt (bs : List Byte) (k : Nat) : Byte := bs.getD k 0
def halfAt (bs : List Byte) (k : Nat) : Half := BitVec.ofNat 16 (beNat ((bs.drop k).take 2))
def wordAt (bs : List Byte) (k : Nat) : Word := BitVec.ofNat 32 (beNat ((bs.drop k).take 4))
def labelAt (bs : List Byte) (k : Nat) : Label := Label.ofBytes ((bs.drop k).take 8)

/-- The kind codes of Table 10-2. -/
def ReqKind.code : ReqKind → Byte
  | .move => 0x01
  | .load => 0x02
  | .loadScratch => 0x03
  | .unload => 0x04
  | .audit => 0x05
  | .recover => 0x06
  | .releaseVolume => 0x10
  | .reportElements => 0x11
  | .reportVolumes => 0x12
  | .reportStatus => 0x13
  | .reportSettings => 0x14
  | .configure => 0x15
  | .openStream => 0x20
  | .writeRecord => 0x21
  | .writeMark => 0x22
  | .resumeStream => 0x23
  | .sync => 0x24
  | .closeStream => 0x25
  | .readRecords => 0x30
  | .verify => 0x31
  | .abort => 0x32

def ReqKind.all : List ReqKind :=
  [.move, .load, .loadScratch, .unload, .audit, .recover, .releaseVolume, .reportElements, .reportVolumes,
   .reportStatus, .reportSettings, .configure, .openStream, .writeRecord, .writeMark, .resumeStream, .sync,
   .closeStream, .readRecords, .verify, .abort]

/-- The kind a kind code names, if the 716 knows it (R185). -/
def ReqKind.ofCode (c : Byte) : Option ReqKind := ReqKind.all.find? fun k => k.code = c

/-- "Every request except WRITE-RECORD and WRITE-MARK carries a tag" (R173). -/
def ReqKind.tagged : ReqKind → Bool
  | .writeRecord => false
  | .writeMark => false
  | _ => true

/-- Whether a body length matches its kind (R185, Table 10-2). -/
def ReqKind.lengthMatches (k : ReqKind) (n : Nat) : Bool :=
  match k with
  | .move => n = 12
  | .load => n = 12
  | .loadScratch => n = 4
  | .unload => n = 4
  | .audit => n = 0
  | .recover => n = 0
  | .releaseVolume => n = 8
  | .reportElements => n = 4
  | .reportVolumes => n = 12
  | .reportStatus => n = 0
  | .reportSettings => n = 0
  | .configure => n % 6 = 0 && n ≤ 156
  | .openStream => n = 8
  | .writeRecord => 4 ≤ n
  | .writeMark => n = 4
  | .resumeStream => n = 4
  | .sync => n = 4
  | .closeStream => n = 4
  | .readRecords => n = 20
  | .verify => n = 12
  | .abort => n = 4

/-- The kind of a block: known only for type 1 and a code of Table 10-2 (R185). -/
def blockKind (type kind : Byte) : Option ReqKind := if type = 1 then ReqKind.ofCode kind else none

/-- A block the 716 takes at step 2 of R173: a known kind whose body length matches it. -/
def blockKnown (type kind : Byte) (body : List Byte) : Bool :=
  match blockKind type kind with
  | some k => k.lengthMatches body.length
  | none => false

/-- The setting entries of a CONFIGURE body, 6 bytes each (Table 10-5). -/
def entriesOf : Nat → List Byte → List SettingEntry
  | 0, _ => []
  | n + 1, bs => ⟨byteAt bs 0, byteAt bs 1, wordAt bs 2⟩ :: entriesOf n (bs.drop 6)

/-- The command that a matching body of kind `k` carries (Table 10-2). `gripped` is what the grip sensor reads when a
RECOVER is taken (R43). -/
def decodeBody (p : Port) (gripped : Bool) (k : ReqKind) (tag : Byte) (b : List Byte) : Instr :=
  match k with
  | .move => .move p tag (byteAt b 0) (byteAt b 1) (byteAt b 2) (labelAt b 4)
  | .load => .load p tag (byteAt b 0) (byteAt b 1) (byteAt b 2) (labelAt b 4)
  | .loadScratch => .loadScratch p tag (byteAt b 0)
  | .unload => .unload p tag (byteAt b 0) (byteAt b 1) (byteAt b 2)
  | .audit => .audit p tag
  | .recover => .recover p tag gripped
  | .releaseVolume => .releaseVolume p tag (labelAt b 0)
  | .reportElements => .reportElements p tag (byteAt b 0) (halfAt b 2)
  | .reportVolumes => .reportVolumes p tag (byteAt b 0) (labelAt b 4)
  | .reportStatus => .reportStatus p tag
  | .reportSettings => .reportSettings p tag
  | .configure => .configure p tag (entriesOf (b.length / 6) b)
  | .openStream => .openStream p tag (byteAt b 0) (byteAt b 1) (byteAt b 2) (wordAt b 4)
  | .writeRecord => .writeRecord p (byteAt b 0) (byteAt b 1) (b.drop 4)
  | .writeMark => .writeMark p (byteAt b 0)
  | .resumeStream => .resumeStream p tag (byteAt b 0)
  | .sync => .sync p tag (byteAt b 0)
  | .closeStream => .closeStream p tag (byteAt b 0) (byteAt b 1)
  | .readRecords => .readRecords p tag (byteAt b 0) (byteAt b 1) (byteAt b 2) (halfAt b 4) (wordAt b 8) (wordAt b 12) (wordAt b 16)
  | .verify => .verify p tag (byteAt b 0) (byteAt b 1) (wordAt b 4) (wordAt b 8)
  | .abort => .abort p tag (byteAt b 0)

/-- The command a request block from port `p` is (R173 step 2, R185): the request it carries, or UNKNOWN_REQUEST. -/
def decodeBlock (p : Port) (gripped : Bool) (type kind tag : Byte) (body : List Byte) : Instr :=
  match blockKind type kind with
  | some k => if k.lengthMatches body.length then decodeBody p gripped k tag body else .unknownRequest p type kind tag body
  | none => .unknownRequest p type kind tag body

/-- The first block of what port `p` has received, as the command it is, and what follows it: the 8-byte header of Table 10-1 (type,
kind and tag in bytes 0 to 2, bytes 3 to 5 not examined, the body length in bytes 6 to 7), then the body. None while the block is
"only partly received" (R171). -/
def decodeInbound (p : Port) (gripped : Bool) (bs : List Byte) : Option (Instr × List Byte) :=
  let n := beNat ((bs.drop 6).take 2)
  if bs.length < 8 + n then none
  else some (decodeBlock p gripped (byteAt bs 0) (byteAt bs 1) (byteAt bs 2) ((bs.drop 8).take n), bs.drop (8 + n))

end Sys2Proof
end

