-- ==== Sys2Proof/Config.lean ====
section
/-! DEFINITION. What the spec fixes as numbers, and the model's free values. -/

namespace Sys2Proof.Config

/-- Units in the segment buffer (R74) and in the internal reserve. -/
def totalUnits : Nat := 2048
def internalUnits : Nat := 64
/-- Record descriptors (R75), those of the internal reserve, and those of each port's read home. -/
def totalDescs : Nat := 256
def internalDescs : Nat := 16
def readDescs : Nat := 4
/-- The units of a READ allocation, of a verify reservation, and the read-home floor (R84, R85, R88). -/
def largestUnits : Nat := 64
def unitBytes : Nat := 512
def frameBytes : Nat := 1024
/-- The greatest raw length (R102). -/
def maxRecord : Nat := 32768
/-- The frames of a gap (R65). -/
def gapFrames : Nat := 64
/-- An absent 4-byte field, and the block address no first send may take (R109, R185). -/
def absent32 : Nat := 4294967295
/-- The order reply limit of 600 s, in milliseconds (R56). -/
def replyLimitMs : Nat := 600000
/-- Volume records (R12), marks of a volume (R25), move-queue places (R33). -/
def maxVolumes : Nat := 64
def maxMarks : Nat := 63
def portPlaces : Nat := 8
def placesPerPort : Nat := 3
def internalPlaces : Nat := 2
/-- Writes in flight (R62) and writes made before a stream gives up (R115). -/
def maxInFlight : Nat := 4
def maxWrites : Nat := 4
/-- Staged entries of a restore run (R147) and the greatest count of a READ-RECORDS (R142). -/
def maxStaged : Nat := 4
def maxCount : Nat := 256
/-- The capacity of a volume by class, in frames (R66). A class the spec does not define has no capacity. -/
def capacity : Option Nat → Nat
  | some 1 => 100000000
  | some 2 => 200000000
  | some 3 => 400000000
  | _ => 0
/-- Where shrink and raw totals stop (R140) and error and refusal counts stop (R12, R169). -/
def maxTotal : Nat := 18446744073709551615
def maxCount16 : Nat := 65535

/-- FREE VALUE. Whether the n-th settings write that a reset interrupts left the new settings in the store: "A power loss
during the write leaves the store with all the old settings or with all the new ones" (R183). Log entry 10. -/
opaque interruptedWriteLands : Nat → Bool

end Sys2Proof.Config
end

