-- ==== Sys2Proof/Machine/State.lean ====
section
/-! DEFINITION. The state of the 716, block by block as Table 0-2 gives it, and the state right after reset. Plain data
throughout. What a field is, which rule names it and its reset value stand in INVENTORY.md. -/

namespace Sys2Proof.Machine

/-- Faults. No rule stops the part: every failure it describes is a change of state. So there is no fault. -/
inductive Fault where
  deriving DecidableEq, Repr

/-- Refusals. -/
inductive Refusal where
  /-- Raised by `exec`'s arm of a command that has no meaning yet; safe. No arm raises it. -/
  | notModelled (mnemonic : String)
  deriving DecidableEq, Repr

/-- A timer: "A timer that is held keeps its remaining time and resumes from it" (section 0.7). Milliseconds. -/
inductive Timer where
  | stopped
  | running (ms : Nat)
  | held (ms : Nat)
  deriving DecidableEq, Repr

/-! ### Settings store (R12, R13, R181, R184) -/

/-- A magazine's assignment (R3). -/
inductive Assignment where
  | owned (p : Port)
  | shared
  deriving DecidableEq, Repr

/-- The settings of Table 9-2. Times as the table gives them; `commitCount` none is OFF. -/
structure Settings where
  partition : List Assignment
  writeUnits : PerPort Nat
  readUnits : PerPort Nat
  writeDescs : PerPort Nat
  weight : PerPort Nat
  threshold : Nat
  commitCount : Option Nat
  commitLatency : Nat
  motionLimit : Nat
  claimHold : Nat
  margin : Nat
  deriving DecidableEq, Repr

/-- A volume's location (R12); the export sequence is "present only while the location is OUTSIDE". -/
inductive Location where
  | element (pea : Nat)
  | picker
  | unknown
  | outside (exportSeq : Nat)
  deriving DecidableEq, Repr

/-- A volume record (R12). -/
structure Volume where
  label : Label
  owner : Option Port
  location : Location
  home : Option Nat
  cls : Option Nat
  writeProtected : Bool
  eod : Option Nat
  framesUsed : Nat
  marks : List Nat
  verifiedTo : Nat
  failure : Option Nat
  rawTotal : Nat
  storedTotal : Nat
  softErrors : Nat
  hardErrors : Nat
  deriving DecidableEq, Repr

/-- The non-volatile store (R184): settings, volume table (in ascending label order), export counter. -/
structure Store where
  settings : Settings
  volumes : List Volume
  exportCounter : Nat
  deriving DecidableEq, Repr

/-- A CONFIGURE that has been taken or waits to be (R183): its tag is none once its port's link has gone. -/
structure ConfigRequest where
  port : Port
  tag : Option Byte
  entries : List SettingEntry
  deriving DecidableEq, Repr

/-- A RELEASE_VOLUME whose store write has not completed (R16): its port, and its tag, none once the port's link has gone; whether its
write comes after that of the CONFIGURE being written; and the record as it was (log entry 44). -/
structure ReleaseWrite where
  port : Port
  tag : Option Byte
  behind : Bool
  was : Volume
  deriving DecidableEq, Repr

/-! ### Element map (R7) -/

/-- The condition of a FULL entry (R8). -/
inductive Condition where
  | normal | noLabel | unregistered | duplicate | misplaced
  deriving DecidableEq, Repr

/-- What an entry believes (R7): UNKNOWN keeps the label last known. -/
inductive ElemState where
  | unknown (last : Option Label)
  | empty
  | full (label : Option Label) (condition : Condition)
  deriving DecidableEq, Repr

/-- An entry of the element table (R7). -/
structure Element where
  pea : Nat
  state : ElemState
  claim : Option Nat
  deriving DecidableEq, Repr

/-! ### Picker controller (chapter 2) -/

inductive PickerState where
  | idle | moving | auditing | stopped | faulted | disabled
  deriving DecidableEq, Repr

/-- The library condition (R52). -/
inductive LibCondition where
  | auditing | ready | serviceDoor | motionFault | pickerDisabled
  deriving DecidableEq, Repr

inductive MoveKind where
  | move | load | unload | scratchLoad | ret | recover
  deriving DecidableEq, Repr

/-- The phases an entry is in hand in. `homing` is the first phase of a RECOVER (Table 2-1), which R33's list lacks. -/
inductive RunPhase where
  | homing | fetch | carry | place
  deriving DecidableEq, Repr

/-- The phases of R33; while STOPPED the entry also records the phase it held. -/
inductive Phase where
  | queued
  | run (ph : RunPhase)
  | threadWait
  | unthreadWait
  | stopped (held : RunPhase)
  deriving DecidableEq, Repr

/-- Which way an entry is carrying its cartridge: on its way, back to the source after an obstruction (R38), or back
from the bay after a THREAD-FAULT (R39). -/
inductive Leg where
  | outward | obstructed | threadReturn
  deriving DecidableEq, Repr

/-- Who an entry answers: a port on a tag (none once the port's link has gone, R51), or no one. -/
inductive Requester where
  | port (p : Port) (tag : Option Byte)
  | internal
  deriving DecidableEq, Repr

/-- A move-queue entry (R33). `replied`: its drive reply has come and it needs the picker (R34 step 1). -/
structure MoveEntry where
  number : Nat
  requester : Requester
  kind : MoveKind
  source : Nat
  dest : Option Nat
  expected : Option Label
  phase : Phase
  leg : Leg
  replied : Bool
  deriving DecidableEq, Repr

/-- The motion command outstanding (R36). A put-back carries the label the reader gave (R37). -/
inductive Motion where
  | fetch (pea : Nat)
  | putBack (pea : Nat) (read : Option Label)
  | carry
  | place (pea : Nat)
  | homing
  | reading (pea : Nat)
  deriving DecidableEq, Repr

/-- An audit in progress (R47, R49): what is still to read, what it has read, the bay whose STATUS it awaits, the mail
slots noted for IMPORT, and the elements an audit-pending mark was set for while it ran. -/
structure AuditRun where
  full : Bool
  startup : Bool
  slots : List Nat
  bays : List Bay
  asking : Option Bay
  readDone : List Nat
  noted : List Nat
  markedFor : List Nat
  deriving DecidableEq, Repr

/-- The recovery record (R42). -/
structure Recovery where
  pea : Nat
  label : Option Label
  owner : Option Port
  deriving DecidableEq, Repr

structure Picker where
  state : PickerState
  condition : LibCondition
  timer : Timer
  motion : Option Motion
  held : Option Motion
  queue : List MoveEntry
  nextMove : Nat
  auditPending : Bool
  mailAuditDue : Bool
  doorAudit : Bool
  startupDue : Bool
  needHoming : Bool
  audit : Option AuditRun
  auditWaiting : List (Port × Byte)
  recoverWaiting : List (Port × Byte)
  owedImport : List Label
  unloadOwed : PerBay Bool
  recovery : Option Recovery
  deriving DecidableEq, Repr

/-! ### Drive bay controllers (Table 3-1) -/

inductive DriveState where
  | empty | threading | idle | positioning | writing | reading | unthreading | faulted | offline
  deriving DecidableEq, Repr

/-- The activity of a bay, with the port it serves. -/
inductive Activity where
  | none
  | stream (p : Port)
  | restore (p : Port)
  | verify (p : Port)
  deriving DecidableEq, Repr

/-- A position: block and frame, either of which may be UNKNOWN (none). -/
structure Position where
  block : Option Nat
  frame : Option Nat
  deriving DecidableEq, Repr

/-- An entry of the in-flight write list: the WRITE outstanding for a block, with the header it was sent under (R109). -/
structure Flight where
  block : Nat
  isMark : Bool
  frames : Nat
  record : Nat
  header : TapeHeader
  deriving DecidableEq, Repr

/-- An order outstanding other than WRITE and GAP (Table 3-3). `unthread true` follows a THREADED of an unsupported
class (R57); `read b` was issued with the drive at block `b`. -/
inductive Order where
  | thread
  | unthread (badClass : Bool)
  | query
  | locate (block : Nat)
  | read (block : Nat)
  deriving DecidableEq, Repr

structure Drive where
  state : DriveState
  volume : Option Label
  claim : Option Port
  activity : Activity
  position : Option Position
  continuation : Option Nat
  inFlight : List Flight
  gap : Bool
  order : Option Order
  timer : Timer
  deriving DecidableEq, Repr

/-! ### Segment buffer and credit manager (chapter 4) -/

/-- The origin of a unit or descriptor (R74, R75). -/
inductive Origin where
  | writeHome (p : Port)
  | readHome (p : Port)
  | pool
  | internal
  deriving DecidableEq, Repr

/-- A HELD descriptor (R75): its unit list and raw list as the origins of the units in the order taken, and the bytes
that stand in each. -/
structure Desc where
  id : Nat
  origin : Origin
  units : List Origin
  raw : List Origin
  data : List Byte
  rawData : List Byte
  deriving DecidableEq, Repr

/-- The two kinds of restore allocation (R84). -/
inductive AllocKind where
  | read
  | expand (need : Nat)
  deriving DecidableEq, Repr

/-- A restore allocation; a READ allocation that waits for a descriptor has none. -/
structure Alloc where
  port : Port
  bay : Bay
  kind : AllocKind
  desc : Option Nat
  deriving DecidableEq, Repr

/-- A port's FREE and GRANTED counts and cumulative counts (R74, R75, R77, R80). -/
structure Share where
  writeFree : Nat
  writeGranted : Nat
  poolGranted : Nat
  readFree : Nat
  descWriteFree : Nat
  descWriteGranted : Nat
  descPoolGranted : Nat
  descReadFree : Nat
  cumUnits : Nat
  cumDescs : Nat
  deriving DecidableEq, Repr

structure Buffer where
  share : PerPort Share
  poolFree : Nat
  internalFree : Nat
  descPoolFree : Nat
  descInternalFree : Nat
  descs : List Desc
  allocs : List Alloc
  verifyWaiting : List Bay
  turnPort : Port
  turnCount : Nat
  descTurn : Port
  deriving DecidableEq, Repr

/-! ### Stream controller (Table 5-1) -/

inductive StreamState where
  | closed | opening | open | writeHalted | mediumEnd | draining | faulted
  deriving DecidableEq, Repr

inductive RecKind where
  | data | index | mark
  deriving DecidableEq, Repr

inductive RecState where
  | raw | inEngine | stored | inDrive
  deriving DecidableEq, Repr

/-- The two stored forms. -/
inductive Form where
  | plain | shrunk
  deriving DecidableEq, Repr

/-- What a SHRINK item completes with (R132). -/
structure Coded where
  form : Form
  storedLen : Nat
  check : Word
  deriving DecidableEq, Repr

/-- An entry of a stream's record list (R107). `header`: the header of its first write, which a rewrite repeats (R186), present with
`block` once it has first been sent. -/
structure Rec where
  num : Nat
  kind : RecKind
  rawLen : Nat
  state : RecState
  coded : Option Coded
  block : Option Nat
  writes : Nat
  desc : Nat
  header : Option TapeHeader
  deriving DecidableEq, Repr

/-- A stream's fault code (Table 5-1). -/
inductive FaultCode where
  | writeFault | driveFault
  deriving DecidableEq, Repr

/-- The two modes of a close (R119, R120); an ABORT closes by DISCARD. -/
inductive CloseMode where
  | drain | discard
  deriving DecidableEq, Repr

/-- A closing request: CLOSE-STREAM or ABORT, with the port that sent it, its mode, and its tag, none once the port's link has gone
(R123). -/
structure Closing where
  port : Port
  isAbort : Bool
  mode : CloseMode
  tag : Option Byte
  deriving DecidableEq, Repr

/-- A pending SYNC: its tag, and its target plus 1 (the next record number at its acceptance, R113). -/
structure PendingSync where
  tag : Byte
  upTo : Nat
  deriving DecidableEq, Repr

structure Stream where
  state : StreamState
  port : Option Port
  volume : Option Label
  shrink : Bool
  start : Nat
  nextRecord : Nat
  nextBlock : Nat
  records : List Rec
  highestCommitted : Option Nat
  highestReported : Option Nat
  unreported : Nat
  timer : Timer
  refused : Nat
  earlyWarned : Bool
  firstUnsent : Option Nat
  fault : Option FaultCode
  closing : List Closing
  discard : Bool
  discarded : Nat
  syncs : List PendingSync
  rawTotal : Nat
  storedTotal : Nat
  openTag : Option Byte
  openFrom : Option Nat
  abandoned : Bool
  deriving DecidableEq, Repr

/-! ### Codec engine (R131) -/

/-- The item kinds (R132 to R134): a SHRINK carries the stream's shrink choice, an index block's EXPAND-CHECK the entry
number. -/
inductive ItemKind where
  | shrink (on : Bool)
  | deliver
  | checkVerify
  | checkIndex (entry : Nat)
  deriving DecidableEq, Repr

structure Item where
  bay : Bay
  kind : ItemKind
  desc : Nat
  header : TapeHeader
  abandoned : Bool
  deriving DecidableEq, Repr

/-- `behind`: what a bay would offer while its one offer place is taken, oldest first (log entry 31). -/
structure Engine where
  workRaw : List Byte
  workTokens : List Byte
  inHand : Option Item
  offer : PerBay (Option Item)
  behind : PerBay (List Item)
  lastServed : Bay
  deriving DecidableEq, Repr

/-! ### Outcome codes and outbound traffic (chapters 9 and 10) -/

/-- The outcome codes of Table 10-10, in its order. -/
inductive ReplyCode where
  | done | badRequest | tagInUse | notReady | badElement | noVolume | notVisible | notRegistered | notOwner
  | queueFull | elementBusy | noScratch | sourceEmpty | destOccupied | sourceChanged | labelChanged | loadFault
  | noSlot | motionFault | driveBusy | driveFault | writeProtected | beyondData | blank | aborted | noStream
  | badLength | creditOverrun | setLimit | endOfMedium | writeFault | discarded | notFound | noContinuation
  | badIndex | mark | endOfData | checkError | formatError | readFault | configBusy | partitionConflict | allotment
  deriving DecidableEq, Repr

/-- An element entry of a report (Table 10-6), with the codes of its fields. -/
structure ElementReport where
  lea : Nat
  kind : Nat
  state : Nat
  condition : Option Condition
  claimed : Bool
  label : Option Label
  deriving DecidableEq, Repr

/-- Where a report places a volume or its home slot (R6, R18). -/
inductive Place where
  | lea (n : Nat)
  | notVisible
  | picker
  | unknown
  | outside (exportSeq : Nat)
  | absent
  deriving DecidableEq, Repr

/-- A volume entry of a report (R18, Table 10-6). -/
structure VolumeReport where
  label : Label
  owner : Option Port
  location : Place
  home : Place
  cls : Option Nat
  writeProtected : Bool
  figure : Option Nat
  eod : Option Nat
  framesUsed : Nat
  verifiedTo : Nat
  failure : Option Nat
  setCount : Nat
  softErrors : Nat
  hardErrors : Nat
  deriving DecidableEq, Repr

/-- A field of the REPORT-STATUS body (Table 10-7): 4 bytes, or a label of 8. -/
inductive StatusField where
  | num (n : Nat)
  | label (l : Option Label)
  deriving DecidableEq, Repr

/-- Reply bodies (Table 10-3). -/
inductive ReplyBody where
  | none
  | move (number : Nat) (destLea : Option Nat) (chosen : Option Label)
  | settings (entries : List SettingEntry)
  | openStream (start : Nat) (cls : Option Nat)
  | writeRefused (stream : Byte) (record : Option Nat)
  | resume (refused next : Nat)
  | sync (stream : Bay) (highest : Option Nat) (eod : Nat)
  | close (stream : Bay) (highest : Option Nat) (eod notCommitted refused discarded : Nat)
  | read (bay : Bay) (start : Option Nat) (delivered : Nat) (ending : Option Nat)
  | verify (bay : Bay) (form start checked : Nat) (ending : Option Nat) (verifiedTo : Nat) (failure : Option Nat)
  | elements (entries : List ElementReport)
  | volumes (entries : List VolumeReport) (marks : Option (List Nat))
  | status (fields : List StatusField)
  deriving DecidableEq, Repr

/-- A reply (Table 10-1). `frees`: its sending frees the tag its request opened (R173). -/
structure Reply where
  kind : Byte
  tag : Byte
  code : ReplyCode
  clamped : Bool
  body : ReplyBody
  frees : Bool
  deriving DecidableEq, Repr

/-- Notices (R175, Table 10-4). -/
inductive Notice where
  | commit (stream : Bay) (figure : Option Nat) (highest eod : Nat)
  | earlyWarning (stream : Bay) (record remaining : Nat)
  | mediumEnd (stream : Bay) (firstUnsent : Nat)
  | streamFault (stream : Bay) (code : FaultCode) (firstLost : Option Nat)
  | credit (units descs : Nat)
  | condition (c : LibCondition)
  | importSlots (slots : List Nat)
  deriving DecidableEq, Repr

/-- A reply or notice waiting; the two share one order (R176). -/
inductive Control where
  | reply (r : Reply)
  | notice (n : Notice)
  deriving DecidableEq, Repr

/-- A data frame (section 10.2): RECORD-DATA of a kind with its raw bytes, or MARK. `desc`: the descriptor of the entry it was
handed for. -/
structure DataFrame where
  bay : Bay
  desc : Option Nat
  block : Nat
  isMark : Bool
  kind : Byte
  raw : List Byte
  deriving DecidableEq, Repr

/-- A frame whose sending has begun. -/
inductive Frame where
  | control (c : Control)
  | data (d : DataFrame)
  deriving DecidableEq, Repr

/-- A port controller (R169). `tags` has 8 entries, each free (none) or open with the request's kind; `control` is the
reply queue and the notice queue in their one outbound order; `holding` says of each bay whether the claim-hold timer, as last loaded,
governs the port's claim of it (R171, R179). -/
structure PortCtl where
  up : Bool
  tags : List (Option ReqKind)
  control : List Control
  frames : List DataFrame
  sending : Option Frame
  claimTimer : Timer
  holding : PerBay Bool
  released : List Bay
  dropped : Nat
  deriving DecidableEq, Repr

/-! ### Restore and verify runs (R141, R156) -/

inductive RestorePhase where
  | positioning | index | reading | ending
  deriving DecidableEq, Repr

/-- The five address forms with their fields (R143). -/
inductive Address where
  | block (a : Nat)
  | set (s k : Nat)
  | indirectBlock (i e : Nat)
  | indirectSet (s k e : Nat)
  | next
  deriving DecidableEq, Repr

inductive Stage where
  | reserving | reading | expanding | ready | sending
  deriving DecidableEq, Repr

/-- A staged entry (R148). `rawReady`: nothing it needs before its EXPAND-DELIVER item is missing; `offered`: the item
has been offered. -/
structure Staged where
  block : Nat
  desc : Option Nat
  stage : Stage
  header : Option TapeHeader
  rawReady : Bool
  offered : Bool
  deriving DecidableEq, Repr

/-- The index block an indirect run reads (R144). -/
structure IndexRead where
  block : Nat
  desc : Option Nat
  stage : Stage
  deriving DecidableEq, Repr

/-- An ending: an outcome and the block at which it arose. -/
structure Ending where
  code : ReplyCode
  block : Option Nat
  deriving DecidableEq, Repr

/-- An ABORT that waits for the close of a run (R154, R166): the port that sent it, which may be another than the run's (log entry 16), and
its tag. -/
structure RunAbort where
  port : Port
  tag : Byte
  deriving DecidableEq, Repr

/-- `volume`: the label of the volume read, as at acceptance. -/
structure RestoreRun where
  phase : RestorePhase
  port : Port
  tag : Option Byte
  volume : Label
  address : Address
  count : Nat
  clamped : Bool
  stopAtMark : Bool
  eod : Nat
  target : Nat
  start : Option Nat
  next : Nat
  blocksRead : Nat
  delivered : Nat
  markRead : Bool
  staged : List Staged
  index : Option IndexRead
  ending : Option Ending
  aborts : List RunAbort
  deriving DecidableEq, Repr

/-- A bay's restore contexts: the run of R141, and the runs that a drive fault ended and that were not yet closed when the bay
took new work (log entry 31), oldest first. -/
structure RestoreRuns where
  current : Option RestoreRun
  left : List RestoreRun
  deriving DecidableEq, Repr

inductive VerifyPhase where
  | positioning | reserving | reading | checking | ending
  deriving DecidableEq, Repr

inductive VerifyForm where
  | full | resume | range (a n : Nat)
  deriving DecidableEq, Repr

/-- `volume`: the label of the volume read, as at acceptance. `inHand`: block and descriptor. -/
structure VerifyRun where
  phase : VerifyPhase
  port : Port
  tag : Option Byte
  volume : Label
  form : VerifyForm
  start : Nat
  limit : Nat
  eod : Nat
  next : Nat
  checked : Nat
  inHand : Option (Nat × Nat)
  driveFailed : Bool
  ending : Option Ending
  aborts : List RunAbort
  deriving DecidableEq, Repr

/-- A bay's verify contexts: the run of R156, and those left behind as of a restore (log entry 31). -/
structure VerifyRuns where
  current : Option VerifyRun
  left : List VerifyRun
  deriving DecidableEq, Repr

/-! ### The whole part -/

structure State where
  strap : Nat
  serviceOpen : Bool
  mailOpen : Bool
  store : Store
  storeWrite : Option ConfigRequest
  configWaiting : List ConfigRequest
  releaseWrites : List ReleaseWrite
  elements : List Element
  scratchPointer : Nat
  picker : Picker
  drives : PerBay Drive
  buffer : Buffer
  streams : PerBay Stream
  engine : Engine
  restores : PerBay RestoreRuns
  verifies : PerBay VerifyRuns
  ports : PerPort PortCtl
  freeReads : Nat
  pending : List Instr
  deriving DecidableEq, Repr

/-! ### Reset values -/

/-- The defaults of Table 9-2: a settings store that has never been written (R184). -/
def Settings.default : Settings where
  partition := List.replicate 8 .shared
  writeUnits := .all 192
  readUnits := .all 128
  writeDescs := .all 20
  weight := .all 1
  threshold := 75
  commitCount := some 16
  commitLatency := 200
  motionLimit := 20
  claimHold := 60
  margin := 1000000

def Store.blank : Store := ⟨.default, [], 0⟩

/-- The element addresses installed at a strap value, ascending (Tables 1-1 and 1-2). -/
def installedPeas (strap : Nat) : List Nat :=
  [0, 1, 2] ++ (if strap = 3 then [] else [4, 5, 6, 7])
    ++ (List.range (if strap = 0 then 24 else if strap = 1 then 36 else 48)).map (· + 16)

/-- The element table as a reset leaves it: every installed entry UNKNOWN, label absent, claim none (R7). -/
def resetElements (strap : Nat) : List Element :=
  (installedPeas strap).map fun pea => ⟨pea, .unknown none, none⟩

/-- The drive context at a reset (R53). -/
def Drive.reset : Drive where
  state := .empty
  volume := none
  claim := none
  activity := .none
  position := none
  continuation := none
  inFlight := []
  gap := false
  order := none
  timer := .stopped

/-- The stream context at a reset: CLOSED (R97; log entry 8 for shrink, start and next block address). -/
def Stream.reset : Stream where
  state := .closed
  port := none
  volume := none
  shrink := false
  start := 0
  nextRecord := 0
  nextBlock := 0
  records := []
  highestCommitted := none
  highestReported := none
  unreported := 0
  timer := .stopped
  refused := 0
  earlyWarned := false
  firstUnsent := none
  fault := none
  closing := []
  discard := false
  discarded := 0
  syncs := []
  rawTotal := 0
  storedTotal := 0
  openTag := none
  openFrom := none
  abandoned := false

/-- The engine at a reset: no item, last-served bay D1 (R131). -/
def Engine.reset : Engine where
  workRaw := []
  workTokens := []
  inHand := none
  offer := .all none
  behind := .all []
  lastServed := .d1

/-- A port controller at a reset (R169). -/
def PortCtl.reset : PortCtl where
  up := false
  tags := List.replicate 8 none
  control := []
  frames := []
  sending := none
  claimTimer := .stopped
  holding := .all false
  released := []
  dropped := 0

/-- A port's homes laid out from the settings, every unit and descriptor FREE (R74, R75). -/
def Share.layout (st : Settings) (p : Port) : Share where
  writeFree := st.writeUnits.get p
  writeGranted := 0
  poolGranted := 0
  readFree := st.readUnits.get p
  descWriteFree := st.writeDescs.get p
  descWriteGranted := 0
  descPoolGranted := 0
  descReadFree := Config.readDescs
  cumUnits := 0
  cumDescs := 0

/-- The sum over the three ports. -/
def PerPort.total (t : PerPort Nat) : Nat := t.p0 + t.p1 + t.p2

/-- The pool's allotments: what the homes and the internal reserve leave (R74, R75). -/
def Settings.poolUnits (st : Settings) : Nat :=
  Config.totalUnits - Config.internalUnits - (PerPort.total st.writeUnits + PerPort.total st.readUnits)
def Settings.poolDescs (st : Settings) : Nat :=
  Config.totalDescs - Config.internalDescs - (PerPort.total st.writeDescs + 3 * Config.readDescs)

/-- The buffer at a reset: every unit and descriptor FREE, the origins laid out from the store (R74, R75, R96). -/
def Buffer.layout (st : Settings) : Buffer where
  share := ⟨.layout st .p0, .layout st .p1, .layout st .p2⟩
  poolFree := st.poolUnits
  internalFree := Config.internalUnits
  descPoolFree := st.poolDescs
  descInternalFree := Config.internalDescs
  descs := []
  allocs := []
  verifyWaiting := []
  turnPort := .p0
  turnCount := 0
  descTurn := .p0

/-- The picker at power-on (R52): STOPPED before homing while the service door is open (R45), else homing begun. -/
def Picker.powerOn (serviceOpen : Bool) (motionLimit : Nat) : Picker where
  state := if serviceOpen then .stopped else .moving
  condition := if serviceOpen then .serviceDoor else .auditing
  timer := if serviceOpen then .stopped else .running (1000 * motionLimit)
  motion := if serviceOpen then none else some .homing
  held := none
  queue := []
  nextMove := 0
  auditPending := false
  mailAuditDue := false
  doorAudit := false
  startupDue := true
  needHoming := serviceOpen
  audit := none
  auditWaiting := []
  recoverWaiting := []
  owedImport := []
  unloadOwed := .all false
  recovery := none

/-- The part right after power-on, with what the store and the pins hold. -/
def State.poweredOn (strap : Nat) (serviceOpen mailOpen : Bool) (store : Store) (freeReads : Nat) (pending : List Instr) :
    State where
  strap := strap
  serviceOpen := serviceOpen
  mailOpen := mailOpen
  store := store
  storeWrite := none
  configWaiting := []
  releaseWrites := []
  elements := resetElements strap
  scratchPointer := 0
  picker := .powerOn serviceOpen store.settings.motionLimit
  drives := .all .reset
  buffer := .layout store.settings
  streams := .all .reset
  engine := .reset
  restores := .all ⟨none, []⟩
  verifies := .all ⟨none, []⟩
  ports := .all .reset
  freeReads := freeReads
  pending := pending

/-- The machine right after reset: power-on with a store never written, strap value 0 and both doors closed. -/
def State.reset : State := .poweredOn 0 false false .blank 0 []

end Sys2Proof.Machine
end

