-- ==== Sys2Proof/Machine/Ops.lean ====
section
/-! DEFINITION. The named operations every meaning is made of: reading and updating one block of the state, timers, tags,
the outbound queues of a port, the library condition, and the element and volume tables by address and label. -/

namespace Sys2Proof.Machine

/-- What a meaning answers. -/
abbrev Result := Host.Outcome State Fault Refusal

/-! ### One block of the state at a time -/

def State.drive (s : State) (b : Bay) : Drive := s.drives.get b
def State.stream (s : State) (b : Bay) : Stream := s.streams.get b
def State.restore (s : State) (b : Bay) : Option RestoreRun := (s.restores.get b).current
def State.verifyRun (s : State) (b : Bay) : Option VerifyRun := (s.verifies.get b).current
def State.port (s : State) (p : Port) : PortCtl := s.ports.get p

def State.modDrive (s : State) (b : Bay) (f : Drive → Drive) : State := { s with drives := s.drives.set b (f (s.drives.get b)) }
def State.modStream (s : State) (b : Bay) (f : Stream → Stream) : State := { s with streams := s.streams.set b (f (s.streams.get b)) }
def State.setRestore (s : State) (b : Bay) (r : Option RestoreRun) : State :=
  { s with restores := s.restores.set b { s.restores.get b with current := r } }
def State.setVerify (s : State) (b : Bay) (r : Option VerifyRun) : State :=
  { s with verifies := s.verifies.set b { s.verifies.get b with current := r } }
def State.setRestoreRuns (s : State) (b : Bay) (x : RestoreRuns) : State := { s with restores := s.restores.set b x }
def State.setVerifyRuns (s : State) (b : Bay) (x : VerifyRuns) : State := { s with verifies := s.verifies.set b x }
def State.modRestore (s : State) (b : Bay) (f : RestoreRun → RestoreRun) : State := s.setRestore b ((s.restore b).map f)
def State.modVerify (s : State) (b : Bay) (f : VerifyRun → VerifyRun) : State := s.setVerify b ((s.verifyRun b).map f)
def State.modPort (s : State) (p : Port) (f : PortCtl → PortCtl) : State := { s with ports := s.ports.set p (f (s.ports.get p)) }
def State.modPicker (s : State) (f : Picker → Picker) : State := { s with picker := f s.picker }
def State.modEngine (s : State) (f : Engine → Engine) : State := { s with engine := f s.engine }
def State.settings (s : State) : Settings := s.store.settings

/-! ### Timers -/

/-- A held timer runs on from its remaining time (R36, R45). -/
def Timer.hold : Timer → Timer
  | .running ms => .held ms
  | t => t

def Timer.resume : Timer → Timer
  | .held ms => .running ms
  | t => t

def Timer.isRunning : Timer → Bool
  | .running _ => true
  | _ => false

/-- One millisecond of a running timer (log entry 2). -/
def Timer.tick : Timer → Timer
  | .running ms => .running (ms - 1)
  | t => t

/-! ### Counters that stop -/

/-- "an increment at 65,535 leaves 65,535" (R12, R169). -/
def bump16 (n : Nat) : Nat := if n < Config.maxCount16 then n + 1 else n

/-- "An addition that would carry a total past 2^64 − 1 leaves it at 2^64 − 1" (R140). -/
def addTotal (a b : Nat) : Nat := if a + b ≤ Config.maxTotal then a + b else Config.maxTotal

def ceilDiv (a b : Nat) : Nat := (a + b - 1) / b

/-! ### Outbound traffic (R174 to R176) -/

/-- Same kind and subject (R175). -/
def Notice.sameSubject : Notice → Notice → Bool
  | .commit a _ _ _, .commit b _ _ _ => a = b
  | .earlyWarning a _ _, .earlyWarning b _ _ => a = b
  | .mediumEnd a _, .mediumEnd b _ => a = b
  | .streamFault a _ _, .streamFault b _ _ => a = b
  | .credit _ _, .credit _ _ => true
  | .condition _, .condition _ => true
  | .importSlots _, .importSlots _ => true
  | _, _ => false

/-- What the newer notice leaves in the waiting one's place: its own contents, but for IMPORT "the union of the mail
slots named in both" (R175). -/
def Notice.replaceBy : Notice → Notice → Notice
  | .importSlots a, .importSlots b => .importSlots (a ++ b.filter fun m => !a.contains m)
  | _, n => n

/-- A notice takes the place of a waiting one of its kind and subject, or a place at the tail (R175). -/
def queueControl (n : Notice) : List Control → List Control
  | [] => [.notice n]
  | .notice m :: rest => if m.sameSubject n then .notice (m.replaceBy n) :: rest else .notice m :: queueControl n rest
  | .reply r :: rest => .reply r :: queueControl n rest

/-- Queue a notice to a port; "a notice addressed to a DOWN port is not queued" (R175). -/
def queueNotice (s : State) (p : Port) (n : Notice) : State :=
  s.modPort p fun c => if c.up then { c with control := queueControl n c.control } else c

/-- Queue a notice to every UP port (R49, R52). -/
def queueNoticeAll (s : State) (n : Notice) : State := queueNotice (queueNotice (queueNotice s .p0 n) .p1 n) .p2 n

/-- Queue a reply; a DOWN port sends nothing (R169, R171). -/
def queueReply (s : State) (p : Port) (r : Reply) : State :=
  s.modPort p fun c => if c.up then { c with control := c.control ++ [.reply r] } else c

/-- Data frames handed to a port in order (R151); a DOWN port sends nothing (R169, R170). -/
def queueFrames (s : State) (p : Port) (fs : List DataFrame) : State :=
  s.modPort p fun c => if c.up then { c with frames := c.frames ++ fs } else c

def isWriteRefused (c : Control) : Bool :=
  match c with
  | .reply r => match r.body with
    | .writeRefused _ _ => true
    | _ => false
  | .notice _ => false

/-- A BAD REQUEST reply to a block that opens no tag (R174). -/
def isLooseBadRequest (c : Control) : Bool :=
  match c with
  | .reply r => r.code = .badRequest && !r.frees && !isWriteRefused c
  | .notice _ => false

/-- The same refusal in the words of R174: "in stream number, code and record number", or "in kind code and tag byte". -/
def sameRefusal (r : Reply) : Control → Bool
  | .reply q => if isWriteRefused (.reply r) then q.body = r.body && q.code = r.code
      else q.kind = r.kind && q.tag = r.tag && q.code = r.code && q.frees = r.frees && !isWriteRefused (.reply q)
  | .notice _ => false

/-- Queue a refusal of one of the two limited sorts: not a second time while the same waits; dropped and counted when
8 of its sort wait (R174). -/
def queueLimited (s : State) (p : Port) (sort : Control → Bool) (r : Reply) : State :=
  s.modPort p fun c =>
    if !c.up then c
    else if c.control.any (sameRefusal r) then c
    else if 8 ≤ (c.control.filter sort).length then { c with dropped := bump16 c.dropped }
    else { c with control := c.control ++ [.reply r] }

/-- The WRITE-REFUSED reply (R104): kind code of the write refused, tag byte FFh (R185). -/
def queueWriteRefused (s : State) (p : Port) (kind : ReqKind) (stream : Byte) (code : ReplyCode) (record : Option Nat) : State :=
  queueLimited s p isWriteRefused ⟨kind.code, 0xFF, code, false, .writeRefused stream record, false⟩

/-- BAD REQUEST to a block that opens no tag: "with the tag byte as sent" (R173, R185). -/
def queueLooseBadRequest (s : State) (p : Port) (kind tag : Byte) : State :=
  queueLimited s p isLooseBadRequest ⟨kind, tag, .badRequest, false, .none, false⟩

/-- TAG IN USE, "queued unless a TAG IN USE reply on the same tag is already waiting" (R174). -/
def queueTagInUse (s : State) (p : Port) (kind : ReqKind) (tag : Byte) : State :=
  s.modPort p fun c =>
    if !c.up then c
    else if c.control.any (fun x => match x with | .reply r => r.code = .tagInUse && r.tag = tag | .notice _ => false) then c
    else { c with control := c.control ++ [.reply ⟨kind.code, tag, .tagInUse, false, .none, false⟩] }

/-- The one reply to a tagged request. -/
def answer (s : State) (p : Port) (tag : Byte) (kind : ReqKind) (code : ReplyCode) (body : ReplyBody := .none)
    (clamped : Bool := false) : State :=
  queueReply s p ⟨kind.code, tag, code, clamped, body, true⟩

/-- A reply whose tag may have been dropped with its link: then "discarded by the port controller and never sent" (R171). -/
def answerHeld (s : State) (p : Port) (tag : Option Byte) (kind : ReqKind) (code : ReplyCode) (body : ReplyBody := .none)
    (clamped : Bool := false) : State :=
  match tag with
  | some t => answer s p t kind code body clamped
  | none => s

/-- A refusal at acceptance: an empty body (R185). -/
def refuse (s : State) (p : Port) (tag : Byte) (kind : ReqKind) (code : ReplyCode) : State := answer s p tag kind code

/-- R176 on a free link: the reply or notice queued earliest, else the data frame handed earliest. -/
def PortCtl.pump (c : PortCtl) : PortCtl :=
  if !c.up || c.sending.isSome then c
  else match c.control, c.frames with
    | x :: rest, _ => { c with control := rest, sending := some (.control x) }
    | [], d :: rest => { c with frames := rest, sending := some (.data d) }
    | [], [] => c

/-- The end of every event: each free outbound link begins its next frame (log entry 9). -/
def pump (s : State) : State := ((s.modPort .p0 PortCtl.pump).modPort .p1 PortCtl.pump).modPort .p2 PortCtl.pump

/-- The answer of a meaning whose effect is `s`. -/
def finish (s : State) : Result := .next (pump s)

/-! ### Tags (R173) -/

def PortCtl.tagKind (c : PortCtl) (tag : Byte) : Option ReqKind := (c.tags[tag.toNat]?).join
def openTag (s : State) (p : Port) (tag : Byte) (kind : ReqKind) : State :=
  s.modPort p fun c => { c with tags := c.tags.set tag.toNat (some kind) }
def PortCtl.freeTag (c : PortCtl) (tag : Byte) : PortCtl := { c with tags := c.tags.set tag.toNat none }

/-- How far a tagged request of a known kind and length gets in R173 before its owning block sees it. -/
inductive Admission where
  /-- It goes no further; the state is what its refusal (or a DOWN port) leaves. -/
  | stopped (s : State)
  /-- Its tag is open and its owning block tests it. -/
  | taken (s : State)

/-- Steps 1 and 2 of R173, and R185's tag byte above 7. "A port that is DOWN receives no request" (R169). -/
def admission (s : State) (p : Port) (tag : Byte) (kind : ReqKind) : Admission :=
  if !(s.port p).up then .stopped s
  else if 7 < tag.toNat then .stopped (queueLooseBadRequest s p kind.code tag)
  else if ((s.port p).tagKind tag).isSome then .stopped (queueTagInUse s p kind tag)
  else .taken (openTag s p tag kind)

/-- A tagged request: admitted, then given to its owning block `f`. -/
def request (s : State) (p : Port) (tag : Byte) (kind : ReqKind) (f : State → State) : Result :=
  match admission s p tag kind with
  | .stopped s' => finish s'
  | .taken s' => finish (f s')

/-- Step 3 of R173: a request that names a bay in the port's released-bay list is refused DRIVE BUSY. -/
def unlessReleased (s : State) (p : Port) (tag : Byte) (kind : ReqKind) (bay : Option Bay) (f : State → State) : State :=
  match bay with
  | some b => if (s.port p).released.contains b then refuse s p tag kind .driveBusy else f s
  | none => f s

/-! ### Library condition (R52) -/

/-- "Each change of value is sent as a CONDITION notice carrying the new value to every port that is UP". -/
def setCondition (s : State) (c : LibCondition) : State :=
  if s.picker.condition = c then s
  else queueNoticeAll (s.modPicker fun k => { k with condition := c }) (.condition c)

/-! ### Element table (R7) -/

def bayPea : Bay → Nat
  | .d0 => 1
  | .d1 => 2

def isStorage (pea : Nat) : Bool := decide (16 ≤ pea)
def isMail (pea : Nat) : Bool := decide (4 ≤ pea) && decide (pea ≤ 7)
def isBay (pea : Nat) : Bool := pea = 1 || pea = 2
def peaBay (pea : Nat) : Option Bay := if pea = 1 then some .d0 else if pea = 2 then some .d1 else none

def State.element (s : State) (pea : Nat) : Option Element := s.elements.find? fun e => e.pea = pea
def State.elemState (s : State) (pea : Nat) : Option ElemState := (s.element pea).map (·.state)
def State.installed (s : State) (pea : Nat) : Bool := (s.element pea).isSome

def modElement (s : State) (pea : Nat) (f : Element → Element) : State :=
  { s with elements := s.elements.map fun e => if e.pea = pea then f e else e }
def setElem (s : State) (pea : Nat) (st : ElemState) : State := modElement s pea fun e => { e with state := st }

def setClaim (s : State) (pea num : Nat) : State := modElement s pea fun e => { e with claim := some num }
/-- "It sets the claim back to none when that move completes or is removed" (R10). -/
def clearClaims (s : State) (num : Nat) : State :=
  { s with elements := s.elements.map fun e => if e.claim = some num then { e with claim := none } else e }

def State.isEmptyElem (s : State) (pea : Nat) : Bool := s.elemState pea = some .empty
def State.isClaimed (s : State) (pea : Nat) : Bool := ((s.element pea).bind (·.claim)).isSome

def ElemState.isFull : ElemState → Bool
  | .full _ _ => true
  | _ => false

/-- The label a FULL entry holds. -/
def ElemState.label : ElemState → Option Label
  | .full l _ => l
  | _ => none

/-- The label of a FULL entry, or the label last known of an UNKNOWN one (R7). -/
def ElemState.anyLabel : ElemState → Option Label
  | .full l _ => l
  | .unknown l => l
  | .empty => none

/-- "An entry whose condition is UNREGISTERED, NO LABEL or DUPLICATE names no volume" (R7). -/
def ElemState.namedLabel : ElemState → Option Label
  | .full l .normal => l
  | .full l .misplaced => l
  | _ => none

/-! ### Volume table (R12) -/

def State.volume (s : State) (l : Label) : Option Volume := s.store.volumes.find? fun v => v.label = l

def setVolumes (s : State) (vs : List Volume) : State := { s with store := { s.store with volumes := vs } }

/-- One store write to every record that `f` changes; `f` keeps the label. -/
def mapVolumes (s : State) (f : Volume → Volume) : State := setVolumes s (s.store.volumes.map f)

/-- One store write to the record of a label; `f` keeps the label. -/
def modVolume (s : State) (l : Label) (f : Volume → Volume) : State := mapVolumes s fun v => if v.label = l then f v else v

/-- The volume a drive context names, if the table holds its record. -/
def State.driveVolume (s : State) (b : Bay) : Option Volume := (s.drive b).volume.bind s.volume

def modDriveVolume (s : State) (b : Bay) (f : Volume → Volume) : State :=
  match (s.drive b).volume with
  | some l => modVolume s l f
  | none => s

/-- The volume an element's entry names (R7). -/
def State.elemVolume (s : State) (pea : Nat) : Option Volume := ((s.elemState pea).bind (·.namedLabel)).bind s.volume

end Sys2Proof.Machine
end

