-- ==== Sys2Proof/Machine/Clock.lean ====
section
/-! DEFINITION. The passing of time (log entry 2): one millisecond of every running timer. What an expiry does is its own
command. -/

namespace Sys2Proof.Machine

/-- One millisecond: the motion timer, the two reply timers, the two commit latency timers, the three claim-hold timers. -/
def tick (s : State) : State :=
  let tickDrive := fun (d : Drive) => { d with timer := d.timer.tick }
  let tickStream := fun (c : Stream) => { c with timer := c.timer.tick }
  let tickPort := fun (c : PortCtl) => { c with claimTimer := c.claimTimer.tick }
  { s with picker := { s.picker with timer := s.picker.timer.tick },
           drives := ⟨tickDrive s.drives.d0, tickDrive s.drives.d1⟩,
           streams := ⟨tickStream s.streams.d0, tickStream s.streams.d1⟩,
           ports := ⟨tickPort s.ports.p0, tickPort s.ports.p1, tickPort s.ports.p2⟩ }

end Sys2Proof.Machine
end

