-- ==== Sys2Proof/Machine/Codec.lean ====
section
/-! DEFINITION. The shrink and expand transformation, the check word and the tape block header, to the bit (R124 to R130,
R186). -/

namespace Sys2Proof.Machine

/-! ### The parse (R124) -/

/-- A token: a byte, or a copy of distance d and length m. -/
inductive Token where
  | byte (b : Byte)
  | copy (d m : Nat)
  deriving DecidableEq, Repr

/-- The longest m, at most `cap`, with the first m bytes of the two lists equal. -/
def commonLen : Nat → List Byte → List Byte → Nat
  | cap + 1, a :: as, b :: bs => if a = b then commonLen cap as bs + 1 else 0
  | _, _, _ => 0

/-- The longest match at distance d from position i: x[i+k] against x[i+k−d], up to 34 (and, by the record's end, L − i). -/
def matchAt (x : List Byte) (i d : Nat) : Nat := commonLen 34 (x.drop (i - d)) (x.drop i)

/-- The greatest match over the distances 1 to the lesser of 2048 and i, at the smallest distance that has it. -/
def bestMatch (x : List Byte) (i : Nat) : Nat × Nat :=
  (List.range (min 2048 i)).foldl (fun best k => if best.2 < matchAt x i (k + 1) then (k + 1, matchAt x i (k + 1)) else best) (0, 0)

/-- The greedy parse from position i, with fuel for the bytes left. -/
def parseFrom (x : List Byte) : Nat → Nat → List Token
  | 0, _ => []
  | fuel + 1, i =>
    if i < x.length then
      let m := bestMatch x i
      if 3 ≤ m.2 then .copy m.1 m.2 :: parseFrom x fuel (i + m.2) else .byte (x.getD i 0) :: parseFrom x fuel (i + 1)
    else []

def parse (x : List Byte) : List Token := parseFrom x x.length 0

/-! ### Packing (R125) -/

/-- A number as `w` bits, most significant first. -/
def bitsOf (w n : Nat) : List Bool := (List.range w).map fun k => n.testBit (w - 1 - k)

def bitsNat (bs : List Bool) : Nat := bs.foldl (fun acc b => 2 * acc + b.toNat) 0

def Token.bits : Token → List Bool
  | .byte b => false :: bitsOf 8 b.toNat
  | .copy d m => true :: (bitsOf 11 (d - 1) ++ bitsOf 5 (m - 3))

/-- Cut into bytes; the last is "filled out with 0 bits in its low positions". Fuel: the length. -/
def packBits : Nat → List Bool → List Byte
  | 0, _ => []
  | fuel + 1, bs =>
    if bs.isEmpty then []
    else BitVec.ofNat 8 (bitsNat ((bs.take 8) ++ List.replicate (8 - (bs.take 8).length) false)) :: packBits fuel (bs.drop 8)

def tokenStream (x : List Byte) : List Byte :=
  let bits := (parse x).flatMap Token.bits
  packBits bits.length bits

/-- R126: the form and stored bytes of a record. -/
def shrinkRecord (on : Bool) (x : List Byte) : Form × List Byte :=
  if on && decide ((tokenStream x).length < x.length) then (.shrunk, tokenStream x) else (.plain, x)

/-! ### The check word (R127) -/

def checkStep (s : Nat × Nat) (b : Byte) : Nat × Nat :=
  let s1 := (s.1 + b.toNat) % 65521
  (s1, (s.2 + s1) % 65521)

def checkWord (x : List Byte) : Word :=
  let s := x.foldl checkStep (1, 0)
  BitVec.ofNat 32 (s.2 * 65536 + s.1)

/-! ### Expanding (R129, R130) -/

/-- Append m bytes, each equal to the byte d places before it. -/
def copyOut (d : Nat) : Nat → List Byte → List Byte
  | 0, out => out
  | m + 1, out => copyOut d m (out ++ [out.getD (out.length - d) 0])

/-- Decode tokens until L bytes are out. The flag says whether L was reached; the bytes are what was output. -/
def expandFrom (len : Nat) : Nat → List Bool → List Byte → List Byte × Bool
  | 0, _, out => (out, out.length = len)
  | fuel + 1, bs, out =>
    if out.length = len then (out, true)
    else match bs with
      | [] => (out, false)
      | false :: rest =>
        if rest.length < 8 then (out, false)
        else expandFrom len fuel (rest.drop 8) (out ++ [BitVec.ofNat 8 (bitsNat (rest.take 8))])
      | true :: rest =>
        if rest.length < 16 then (out, false)
        else
          let d := bitsNat (rest.take 11) + 1
          let m := bitsNat ((rest.drop 11).take 5) + 3
          if out.length < d || len < out.length + m then (out, false)
          else expandFrom len fuel (rest.drop 16) (copyOut d m out)

def expandBytes (len : Nat) (stored : List Byte) : List Byte × Bool :=
  expandFrom len (len + 1) (stored.flatMap fun b => bitsOf 8 b.toNat) []

/-- How an expansion or pass ends. -/
inductive CheckResult where
  | good | checkError | formatError
  deriving DecidableEq, Repr

/-- R130: expand a SHRUNK record or pass over a PLAIN one; the raw bytes and the outcome. -/
def expandRecord (h : TapeHeader) (stored : List Byte) : List Byte × CheckResult :=
  if h.form = 1 then
    let r := expandBytes h.rawLen.toNat stored
    (r.1, if !r.2 then .formatError else if checkWord r.1 = h.check then .good else .checkError)
  else (stored, if checkWord stored = h.check then .good else .checkError)

/-! ### Header tests (R68, R128, R186) -/

def kindData : Byte := 0
def kindIndex : Byte := 1
def kindMark : Byte := 2

/-- R128 with the kind test of R186: "A kind byte above 2, or a form byte above 1 on a DATA or INDEX block, fails". -/
def headerPasses (h : TapeHeader) : Bool :=
  (h.kind = kindData || h.kind = kindIndex)
    && decide (1 ≤ h.rawLen.toNat) && decide (h.rawLen.toNat ≤ Config.maxRecord)
    && (h.kind = kindData || h.rawLen.toNat % 4 = 0)
    && (if h.form = 0 then h.storedLen = h.rawLen
        else if h.form = 1 then decide (1 ≤ h.storedLen.toNat) && decide (h.storedLen.toNat < h.rawLen.toNat)
        else false)

/-- R68: what the bay can place in the units: no header of a stored length above 32,768, no MARK with stored bytes, and no other
block whose stored length differs from the count of bytes delivered. A stored length above 32,768 counts on a MARK too (log entry 58). -/
def dataFits (h : TapeHeader) (stored : List Byte) : Bool :=
  decide (h.storedLen.toNat ≤ Config.maxRecord)
    && (if h.kind = kindMark then stored.isEmpty else decide (h.storedLen.toNat = stored.length))

/-- A 4-byte big-endian field; "A count that reaches 2^32 − 1 stays there" (R185). -/
def be32 (n : Nat) : List Byte :=
  let v := min n Config.absent32
  [BitVec.ofNat 8 (v / 16777216), BitVec.ofNat 8 (v / 65536), BitVec.ofNat 8 (v / 256), BitVec.ofNat 8 v]

def be16 (n : Nat) : List Byte := [BitVec.ofNat 8 (n / 256), BitVec.ofNat 8 n]

/-- The 32 bytes of a tape block header (Table 10-8). -/
def TapeHeader.bytes (h : TapeHeader) : List Byte :=
  [h.kind, h.form, h.writer, 0] ++ be32 h.rawLen.toNat ++ be32 h.storedLen.toNat ++ be32 h.check.toNat
    ++ be32 h.setNumber.toNat ++ List.replicate 12 0

/-- Entry e of an index record: four raw bytes at 4e, "the first byte the most significant"; none past the raw length (R134). -/
def indexEntry (raw : List Byte) (e : Nat) : Option Nat :=
  if 4 * e + 4 ≤ raw.length then some (beNat ((raw.drop (4 * e)).take 4)) else none

end Sys2Proof.Machine
end

