-- ==== Sys2Proof/Machine/Flags.lean ====
section
/-! DEFINITION. The figures and flags the rules compute from state: the ratio figure (R138, R139), whether a bay carries an
activity (R72), capacities and margins (R66, R67), and the SYNC and closing outcomes (R113, R121). -/

namespace Sys2Proof.Machine

/-! ### The ratio figure -/

/-- Code c meets the test (8 + f) × 2^e × S ≤ 16 × R, with c = 8e + f (R139). -/
def figureMeets (c r s : Nat) : Bool := decide ((8 + c % 8) * 2 ^ (c / 8) * s ≤ 16 * r)

/-- R139: absent for S = 0; else the greatest code that meets the test, or 0. -/
def ratioFigure (r s : Nat) : Option Nat :=
  if s = 0 then none
  else some ((List.range 64).foldl (fun best c => if figureMeets c r s then c else best) 0)

/-! ### Bays -/

def Activity.isNone : Activity → Bool
  | .none => true
  | _ => false

/-- "a bay carries an activity while its activity is other than none, and also while its state is POSITIONING, WRITING or
READING" (R72). -/
def Drive.carriesActivity (d : Drive) : Bool :=
  !d.activity.isNone || d.state = .positioning || d.state = .writing || d.state = .reading

/-- "The sum of the frames of the in-flight write list, plus 64 while a gap is in flight" (Table 3-1). -/
def Drive.framesInFlight (d : Drive) : Nat := (d.inFlight.map (·.frames)).sum + (if d.gap then Config.gapFrames else 0)

/-- Whether any order is outstanding at the bay (R55). -/
def Drive.owes (d : Drive) : Bool := d.order.isSome || d.gap || !d.inFlight.isEmpty

def Drive.posBlock (d : Drive) : Option Nat := d.position.bind (·.block)
def Drive.posFrame (d : Drive) : Option Nat := d.position.bind (·.frame)

/-- The frames a bay's volume can still take (R66): capacity less frames used less frames in flight. -/
def State.remaining (s : State) (b : Bay) : Nat :=
  match s.driveVolume b with
  | some v => Config.capacity v.cls - (v.framesUsed + (s.drive b).framesInFlight)
  | none => 0

/-- The frames of a block: 1 + ceil(stored/1024), and 1 for a mark (R62). -/
def blockFrames (stored : Nat) : Nat := 1 + ceilDiv stored Config.frameBytes

/-! ### Streams -/

/-- How many records are committed: the highest committed record plus 1 (R110). -/
def Stream.committedCount (c : Stream) : Nat :=
  match c.highestCommitted with
  | some h => h + 1
  | none => 0

/-- The end-of-data a SYNC or close reply carries: the block after the highest committed record's, or the start block (R113). -/
def Stream.eod (c : Stream) : Nat := c.start + c.committedCount

/-- OPEN, WRITE-HALTED, MEDIUM-END or DRAINING: the states in which a stream is its bay's activity (R98). -/
def Stream.active (c : Stream) : Bool :=
  c.state = .open || c.state = .writeHalted || c.state = .mediumEnd || c.state = .draining

/-- A stream a port may name: its own, and not CLOSED or OPENING (R102 test 2). -/
def Stream.namedBy (c : Stream) (p : Port) : Bool :=
  c.port = some p && c.state ≠ .closed && c.state ≠ .opening

/-- Whether the stream still writes what it holds (R98, R109): OPEN, WRITE-HALTED or DRAINING, no discard mark, and not
past medium end (R117: "offers nothing further to the bay or to the engine"). -/
def Stream.writes (c : Stream) : Bool :=
  (c.state = .open || c.state = .writeHalted || c.state = .draining) && !c.discard && c.firstUnsent.isNone

def FaultCode.reply : FaultCode → ReplyCode
  | .writeFault => .writeFault
  | .driveFault => .driveFault

/-- A record before `upTo` has been released by a discard: it is neither committed nor still in the list (R107, R120). -/
def Stream.discardReaches (c : Stream) (upTo : Nat) : Bool :=
  c.discard && decide (c.committedCount + (c.records.filter fun r => decide (r.num < upTo)).length < upTo)

/-- R113 for a target of `upTo` − 1: DONE when all before `upTo` are committed; the code of a loss that reaches it, END OF
MEDIUM first when two do (log entry 51); else nothing yet. -/
def Stream.syncOutcome (c : Stream) (upTo : Nat) : Option ReplyCode :=
  if upTo ≤ c.committedCount then some .done
  else if (c.firstUnsent.any fun u => decide (u < upTo)) then some .endOfMedium
  else match c.fault with
    | some f => some f.reply
    | none => if c.discardReaches upTo then some .discarded else none

/-- The outcome of a close (R121). -/
def Stream.closeOutcome (c : Stream) : ReplyCode :=
  match c.fault with
  | some f => f.reply
  | none => if c.discard then .done else if c.firstUnsent.isSome then .endOfMedium else .done

/-! ### Settings -/

/-- "the unit window x is below threshold when 100 × x < t × W" (R81). -/
def belowThreshold (threshold window ceiling : Nat) : Bool := decide (100 * window < threshold * ceiling)

end Sys2Proof.Machine
end

