-- ==== Sys2Proof/Machine/Operands.lean ====
section
/-! DEFINITION. Operand forms: visibility, the decode of logical element addresses and its back translation (R3, R5, R6),
the shared slots, and the coded fields of requests (R185). -/

namespace Sys2Proof.Machine

/-! ### Partition and layout (R1, R3) -/

/-- The magazine a storage slot stands in: magazine k holds PEA 16+6k to 21+6k (R1). -/
def magazineOf (pea : Nat) : Nat := (pea - 16) / 6

def Settings.assignment (st : Settings) (pea : Nat) : Assignment := st.partition.getD (magazineOf pea) .shared

/-- "an installed storage slot is visible to port p when its magazine is assigned to p or is SHARED" (R3); installed
picker, bays and mail slots are visible to every port. -/
def visibleUnder (st : Settings) (p : Port) (pea : Nat) : Bool :=
  if isStorage pea then st.assignment pea = .owned p || st.assignment pea = .shared else true

def State.visible (s : State) (p : Port) (pea : Nat) : Bool := s.installed pea && visibleUnder s.settings p pea

/-- Visible to an owner; for a scratch volume, or no volume, "a slot of a SHARED magazine" (R40, R43). -/
def State.visibleToOwner (s : State) (owner : Option Port) (pea : Nat) : Bool :=
  match owner with
  | some p => s.visible p pea
  | none => s.installed pea && (!isStorage pea || s.settings.assignment pea = .shared)

/-- The installed storage slots, ascending. -/
def storageSlots (strap : Nat) : List Nat := (installedPeas strap).filter isStorage
def mailSlots (strap : Nat) : List Nat := (installedPeas strap).filter isMail

/-- The shared slots in their numbering (R19). -/
def sharedSlots (s : State) : List Nat := (storageSlots s.strap).filter fun q => s.settings.assignment q = .shared

/-- A port's storage slots in LEA order: its own magazines' slots, then the SHARED ones, each ascending (R5). -/
def storageOrder (s : State) (p : Port) : List Nat :=
  (storageSlots s.strap).filter (fun q => s.settings.assignment q = .owned p) ++ sharedSlots s

/-- R5: the PEA an LEA decodes to for port p. -/
def decodeLea (s : State) (p : Port) (lea : Nat) : Option Nat :=
  if lea < 3 then some lea
  else if lea < 16 then (if isMail lea && (mailSlots s.strap).contains lea then some lea else none)
  else (storageOrder s p)[lea - 16]?

/-- R6: a PEA back to port p's LEA; none for a slot not visible to p. -/
def encodeLea (s : State) (p : Port) (pea : Nat) : Option Nat :=
  if isStorage pea then ((storageOrder s p).findIdx? (· = pea)).map (· + 16)
  else if s.installed pea then some pea else none

/-- R6, R18: a PEA as port p is shown it. -/
def shownPea (s : State) (p : Port) (pea : Nat) : Place :=
  match encodeLea s p pea with
  | some n => .lea n
  | none => .notVisible

/-! ### Coded fields -/

/-- The bay a bay or stream byte names: 0 D0, 1 D1 (R185). -/
def bayOf (b : Byte) : Option Bay := if b = 0 then some .d0 else if b = 1 then some .d1 else none

/-- The bay a drive LEA names, in the tests that compare bays (R173 step 3). -/
def bayOfLea (lea : Byte) : Option Bay := peaBay lea.toNat

/-- A yes or no byte: 0 no, 1 yes (R185). -/
def flagOf (b : Byte) : Option Bool := if b = 0 then some false else if b = 1 then some true else none

/-- A move source: by LEA (form 0) or by label (form 1); a form outside its codes or a label byte outside the 36 codes
is refused BAD REQUEST (R185). -/
inductive SourceName where
  | lea (n : Nat)
  | label (l : Label)
  deriving DecidableEq, Repr

def sourceOf (form lea : Byte) (label : Label) : Option SourceName :=
  if form = 0 then some (.lea lea.toNat)
  else if form = 1 then (if label.valid then some (.label label) else none)
  else none

/-- The five address forms (Table 10-2). -/
def addressOf (form : Byte) (first k e : Word) : Option Address :=
  match form.toNat with
  | 0 => some (.block first.toNat)
  | 1 => some (.set first.toNat k.toNat)
  | 2 => some (.indirectBlock first.toNat e.toNat)
  | 3 => some (.indirectSet first.toNat k.toNat e.toNat)
  | 4 => some .next
  | _ => none

/-- The verify forms (Table 10-2). -/
def verifyFormOf (form : Byte) (a n : Word) : Option VerifyForm :=
  match form.toNat with
  | 0 => some .full
  | 1 => some .resume
  | 2 => some (.range a.toNat n.toNat)
  | _ => none

/-- A test chain: the first refusal that stands gives the outcome. -/
def firstRefusal : List (Bool × ReplyCode) → Option ReplyCode
  | [] => none
  | (bad, code) :: rest => if bad then some code else firstRefusal rest

end Sys2Proof.Machine
end

