-- ==== Sys2Proof/Machine/SettingValues.lean ====
section
/-! DEFINITION. The values of settings (R181 to R183, Table 10-5): the entries of a CONFIGURE, the values as taken, and the settings as
they would stand. -/

namespace Sys2Proof.Machine

def portAt (n : Nat) : Port := if n = 0 then .p0 else if n = 1 then .p1 else .p2

/-! ### One entry (Table 10-5) -/

/-- The number of indexes a setting code has; 0 for a code a CONFIGURE may not hold. -/
def indexesOf (code : Nat) : Nat :=
  if code = 0x01 then 8
  else if 0x02 ≤ code ∧ code ≤ 0x05 then 3
  else if 0x06 ≤ code ∧ code ≤ 0x0B then 1
  else 0

/-- R182 test 1 on one entry. -/
def entryListed (e : SettingEntry) : Bool :=
  decide (e.index.toNat < indexesOf e.setting.toNat) &&
  (match e.setting.toNat with
    | 0x01 => decide (e.value.toNat ≤ 3)
    | 0x05 => [0, 1, 2, 4, 8].contains e.value.toNat
    | 0x06 => [100, 75, 50, 25].contains e.value.toNat
    | 0x07 => [0, 4, 8, 16].contains e.value.toNat
    | _ => true)

/-- "a setting and index given twice is refused BAD REQUEST". -/
def givenTwice : List SettingEntry → Bool
  | [] => false
  | e :: rest => rest.any (fun f => f.setting = e.setting && f.index = e.index) || givenTwice rest

/-- The value as taken (R182). -/
def clampValue (code v : Nat) : Nat :=
  match code with
  | 0x08 => if 4000 < v then 4000 else v / 10 * 10
  | 0x09 => if v < 5 then 5 else if 60 < v then 60 else v
  | 0x0A => min v 600
  | 0x0B => min v 16000000
  | _ => v

def clampEntry (e : SettingEntry) : SettingEntry := { e with value := BitVec.ofNat 32 (clampValue e.setting.toNat e.value.toNat) }

def assignmentOf (v : Nat) : Assignment := if v < 3 then .owned (portAt v) else .shared

def Settings.put (st : Settings) (e : SettingEntry) : Settings :=
  let v := e.value.toNat
  let p := portAt e.index.toNat
  match e.setting.toNat with
  | 0x01 => { st with partition := st.partition.set e.index.toNat (assignmentOf v) }
  | 0x02 => { st with writeUnits := st.writeUnits.set p v }
  | 0x03 => { st with readUnits := st.readUnits.set p v }
  | 0x04 => { st with writeDescs := st.writeDescs.set p v }
  | 0x05 => { st with weight := st.weight.set p v }
  | 0x06 => { st with threshold := v }
  | 0x07 => { st with commitCount := if v = 0 then none else some v }
  | 0x08 => { st with commitLatency := v }
  | 0x09 => { st with motionLimit := v }
  | 0x0A => { st with claimHold := v }
  | 0x0B => { st with margin := v }
  | _ => st

/-- The settings as they would stand, the values clamped. -/
def Settings.with (st : Settings) (es : List SettingEntry) : Settings := (es.map clampEntry).foldl Settings.put st

end Sys2Proof.Machine
end

