-- ==== Sys2Proof/Machine/Credit.lean ====
section
/-! DEFINITION. The segment buffer and credit manager (chapter 4): windows, refill, restore allocations, the internal
reserve, congestion and its turns, attach and detach, and the movement of allotments. First on the buffer alone, then on
the whole state, where every change of a cumulative count queues its CREDIT notice (R80). -/

namespace Sys2Proof.Machine

/-! ### Allotments (R74, R75) -/

/-- An origin's allotment of units (R74). -/
def Settings.unitAllotment (st : Settings) : Origin → Nat
  | .writeHome p => st.writeUnits.get p
  | .readHome p => st.readUnits.get p
  | .pool => st.poolUnits
  | .internal => Config.internalUnits

/-- An origin's allotment of descriptors (R75). -/
def Settings.descAllotment (st : Settings) : Origin → Nat
  | .writeHome p => st.writeDescs.get p
  | .readHome _ => Config.readDescs
  | .pool => st.poolDescs
  | .internal => Config.internalDescs

/-- The units of origin o that a change of the allotments takes to another origin. -/
def movedUnits (old new : Settings) (o : Origin) : Nat := old.unitAllotment o - new.unitAllotment o
def movedDescs (old new : Settings) (o : Origin) : Nat := old.descAllotment o - new.descAllotment o

/-! ### What the credit manager looks at -/

/-- What the credit manager looks at outside the buffer: the settings in force, which ports are UP, and the settings that will be in
force when the settings write in progress completes (those in force, when none is in progress). -/
structure CreditEnv where
  settings : Settings
  up : PerPort Bool
  next : Settings
  deriving DecidableEq, Repr

/-- No settings write in progress. -/
def CreditEnv.of (st : Settings) (up : PerPort Bool) : CreditEnv := ⟨st, up, st⟩

def State.creditEnv (s : State) : CreditEnv :=
  ⟨s.settings, ⟨s.ports.p0.up, s.ports.p1.up, s.ports.p2.up⟩,
    match s.storeWrite with
    | some q => s.settings.with q.entries
    | none => s.settings⟩

/-- What the write in progress has set aside of an origin: FREE there, and out of reach (log entry 12). -/
def CreditEnv.asideUnits (v : CreditEnv) (o : Origin) : Nat := movedUnits v.settings v.next o
def CreditEnv.asideDescs (v : CreditEnv) (o : Origin) : Nat := movedDescs v.settings v.next o

/-- The ceilings of R77: those in force, or the lower ones that a write in progress will bring, since "a window above a lowered ceiling
cannot occur" (R96; log entry 12). -/
def CreditEnv.unitCeiling (v : CreditEnv) (p : Port) : Nat := min (v.settings.writeUnits.get p) (v.next.writeUnits.get p)
def CreditEnv.descCeiling (v : CreditEnv) (p : Port) : Nat := min (v.settings.writeDescs.get p) (v.next.writeDescs.get p)

/-! ### Windows (R77) -/

def Share.unitWindow (h : Share) : Nat := h.writeGranted + h.poolGranted
def Share.descWindow (h : Share) : Nat := h.descWriteGranted + h.descPoolGranted

def Buffer.modShare (b : Buffer) (p : Port) (f : Share → Share) : Buffer := { b with share := b.share.set p (f (b.share.get p)) }

/-- Counts are "counted modulo 2^32" (R80). -/
def addCount (a n : Nat) : Nat := (a + n) % 4294967296

def CreditEnv.weight (v : CreditEnv) (p : Port) : Nat := v.settings.weight.get p

/-- Below threshold (R81). -/
def unitsLow (v : CreditEnv) (b : Buffer) (p : Port) : Bool :=
  belowThreshold v.settings.threshold (b.share.get p).unitWindow (v.unitCeiling p)
def descsLow (v : CreditEnv) (b : Buffer) (p : Port) : Bool :=
  belowThreshold v.settings.threshold (b.share.get p).descWindow (v.descCeiling p)

/-! ### Descriptors (R75) -/

def Buffer.desc (b : Buffer) (id : Nat) : Option Desc := b.descs.find? fun d => d.id = id

def replaceDesc (id : Nat) (f : Desc → Desc) : List Desc → List Desc
  | [] => []
  | d :: rest => if d.id = id then f d :: rest else d :: replaceDesc id f rest

def removeDesc (id : Nat) : List Desc → List Desc
  | [] => []
  | d :: rest => if d.id = id then rest else d :: removeDesc id rest

def Buffer.modDesc (b : Buffer) (id : Nat) (f : Desc → Desc) : Buffer := { b with descs := replaceDesc id f b.descs }

/-- The lowest number that no HELD descriptor has and no allocation names (log entry 7). -/
def Buffer.freshId (b : Buffer) : Nat :=
  let used := b.descs.map (·.id) ++ b.allocs.filterMap (·.desc)
  ((List.range Config.totalDescs).find? fun n => !used.contains n).getD (used.foldl max 0 + 1)

def Buffer.addDesc (b : Buffer) (d : Desc) : Buffer := { b with descs := d :: b.descs }

/-! ### Restore allocations (R84 to R86) -/

def Alloc.need (a : Alloc) : Nat :=
  match a.kind with
  | .read => Config.largestUnits
  | .expand n => n

def Alloc.isRead (a : Alloc) : Bool := a.kind = .read

/-- The descriptor an allocation fills, if it has one. -/
def Buffer.allocDesc (b : Buffer) (a : Alloc) : Option Desc := a.desc.bind b.desc

/-- The units an allocation still needs; an allocation without a descriptor takes none. -/
def Buffer.allocLack (b : Buffer) (a : Alloc) : Nat :=
  match b.allocDesc a with
  | some d => a.need - (if a.isRead then d.units.length else d.raw.length)
  | none => 0

/-- Complete: it has its descriptor and its units (R84). -/
def Buffer.allocComplete (b : Buffer) (a : Alloc) : Bool := (b.allocDesc a).isSome && b.allocLack a = 0

/-- "EXPAND allocations before READ allocations, and within each kind in the order they were made. The first allocation in
that order is being filled" (R86). -/
def Buffer.filling (b : Buffer) (p : Port) : Option Alloc :=
  let open' := b.allocs.filter fun a => a.port = p && 0 < b.allocLack a
  match open'.find? fun a => !a.isRead with
  | some a => some a
  | none => open'.head?

/-- A descriptor of an unfinished READ allocation: not yet a staged record or index block. -/
def Buffer.beingRead (b : Buffer) (id : Nat) : Bool :=
  b.allocs.any fun a => a.isRead && a.desc = some id && 0 < b.allocLack a

/-- "while p holds any other read-home descriptor as a staged record or index block" (R85). -/
def Buffer.floorHolds (b : Buffer) (a : Alloc) : Bool :=
  a.isRead && b.descs.any fun d => d.origin = .readHome a.port && some d.id ≠ a.desc && !b.beingRead d.id

/-- The FREE read-home units allocation `a` may take now (R85). -/
def Buffer.homeFor (b : Buffer) (a : Alloc) : Nat :=
  if b.floorHolds a then (b.share.get a.port).readFree - Config.largestUnits else (b.share.get a.port).readFree

/-- Units of one origin join the allocation's unit list (READ) or raw list (EXPAND) as HELD. -/
def Buffer.joinAlloc (b : Buffer) (a : Alloc) (o : Origin) (n : Nat) : Buffer :=
  match a.desc with
  | some id => b.modDesc id fun d =>
      if a.isRead then { d with units := d.units ++ List.replicate n o } else { d with raw := d.raw ++ List.replicate n o }
  | none => b

/-- The allocation takes what it can: "from p's FREE read-home units first. It then takes FREE pool units, if w[p] is
above 0" (R85). -/
def fillAlloc (v : CreditEnv) (b : Buffer) (a : Alloc) : Buffer :=
  let home := min (b.allocLack a) (b.homeFor a)
  let pool := if 0 < v.weight a.port then min (b.allocLack a - home) b.poolFree else 0
  let b1 := b.modShare a.port fun h => { h with readFree := h.readFree - home }
  ({ b1 with poolFree := b1.poolFree - pool }.joinAlloc a (.readHome a.port) home).joinAlloc a .pool pool

/-- Fill port p's allocations in order, until one is left wanting. Fuel: the number of allocations. -/
def fillFor (v : CreditEnv) (p : Port) : Nat → Buffer → Buffer
  | 0, b => b
  | n + 1, b =>
    match b.filling p with
    | some a =>
      let b1 := fillAlloc v b a
      if b1.allocLack a = 0 then fillFor v p n b1 else b1
    | none => b

def fillPort (v : CreditEnv) (b : Buffer) (p : Port) : Buffer := fillFor v p b.allocs.length b

/-- The pool "has none FREE": none within reach and none set aside. -/
def poolEmpty (v : CreditEnv) (b : Buffer) : Bool := b.poolFree + v.asideUnits .pool = 0

/-- "stalled for units, when it may take pool units (w[p] above 0) and the pool has none FREE" (R86). -/
def stalledForUnits (v : CreditEnv) (b : Buffer) (p : Port) : Bool :=
  match b.filling p with
  | some a => decide (0 < v.weight p) && poolEmpty v b && b.homeFor a = 0
  | none => false

/-! ### Congestion and turns (R89 to R91) -/

def poolWaiter (v : CreditEnv) (b : Buffer) (p : Port) : Bool :=
  v.up.get p && decide (0 < v.weight p)
    && ((unitsLow v b p && (b.share.get p).writeFree + v.asideUnits (.writeHome p) = 0) || stalledForUnits v b p)

def congested (v : CreditEnv) (b : Buffer) : Bool :=
  poolEmpty v b && (poolWaiter v b .p0 || poolWaiter v b .p1 || poolWaiter v b .p2)

/-- The next pool waiter after p in the cycle, if another port waits. -/
def nextWaiter (v : CreditEnv) (b : Buffer) (p : Port) : Option Port := [p.next, p.next.next].find? fun q => poolWaiter v b q

/-- R90 step 2: the unit joins the allocation being filled, or the port's unit window. -/
def givePoolUnit (b : Buffer) (p : Port) : Buffer :=
  match b.filling p with
  | some a => b.joinAlloc a .pool 1
  | none => b.modShare p fun h => { h with poolGranted := h.poolGranted + 1, cumUnits := addCount h.cumUnits 1 }

/-- R90: one released pool unit handed while the pool is congested. -/
def handPoolUnit (v : CreditEnv) (b : Buffer) : Buffer :=
  let b1 := if poolWaiter v b b.turnPort then b
    else match nextWaiter v b b.turnPort with
      | some q => { b with turnPort := q, turnCount := 0 }
      | none => b
  let b2 := givePoolUnit b1 b1.turnPort
  if v.weight b1.turnPort ≤ b1.turnCount + 1 then
    { b2 with turnPort := (nextWaiter v b2 b1.turnPort).getD b1.turnPort, turnCount := 0 }
  else { b2 with turnCount := b1.turnCount + 1 }

/-- R91: "it is UP, its weight is above 0, its descriptor window is below threshold, and its write home has no FREE descriptor". -/
def descWaiter (v : CreditEnv) (b : Buffer) (p : Port) : Bool :=
  v.up.get p && decide (0 < v.weight p) && descsLow v b p
    && (b.share.get p).descWriteFree + v.asideDescs (.writeHome p) = 0

/-! ### Releases (R76) -/

def releaseUnit (v : CreditEnv) (b : Buffer) : Origin → Buffer
  | .writeHome p => b.modShare p fun h => { h with writeFree := h.writeFree + 1 }
  | .readHome p => fillPort v (b.modShare p fun h => { h with readFree := h.readFree + 1 }) p
  | .pool => if congested v b then handPoolUnit v b else { b with poolFree := b.poolFree + 1 }
  | .internal => { b with internalFree := b.internalFree + 1 }

/-- Units released "one at a time in the order of its unit list". -/
def releaseUnits (v : CreditEnv) (b : Buffer) (os : List Origin) : Buffer := os.foldl (releaseUnit v) b

/-- A READ allocation of p that waits for a descriptor. -/
def Alloc.wants (p : Port) (a : Alloc) : Bool := a.port = p && a.isRead && a.desc.isNone

/-- The oldest waiting allocation of p gets descriptor `id`. -/
def assignDesc (p : Port) (id : Nat) : List Alloc → List Alloc
  | [] => []
  | a :: rest => if a.wants p then { a with desc := some id } :: rest else a :: assignDesc p id rest

/-- The oldest READ allocation of p that waits for a descriptor takes the one released (R84). -/
def giveReadDesc (v : CreditEnv) (b : Buffer) (p : Port) : Buffer :=
  if b.allocs.any (Alloc.wants p) then
    let id := b.freshId
    fillPort v ({ b with allocs := assignDesc p id b.allocs }.addDesc ⟨id, .readHome p, [], [], [], []⟩) p
  else b.modShare p fun h => { h with descReadFree := h.descReadFree + 1 }

/-- R91: to the first waiting port at or after the descriptor turn, else FREE. -/
def releasePoolDesc (v : CreditEnv) (b : Buffer) : Buffer :=
  if b.descPoolFree + v.asideDescs .pool = 0 then
    match [b.descTurn, b.descTurn.next, b.descTurn.next.next].find? fun q => descWaiter v b q with
    | some q => { b.modShare q fun h => { h with descPoolGranted := h.descPoolGranted + 1, cumDescs := addCount h.cumDescs 1 }
                  with descTurn := q.next }
    | none => { b with descPoolFree := b.descPoolFree + 1 }
  else { b with descPoolFree := b.descPoolFree + 1 }

def releaseDescOf (v : CreditEnv) (b : Buffer) : Origin → Buffer
  | .writeHome p => b.modShare p fun h => { h with descWriteFree := h.descWriteFree + 1 }
  | .readHome p => giveReadDesc v b p
  | .pool => releasePoolDesc v b
  | .internal => { b with descInternalFree := b.descInternalFree + 1 }

/-- A HELD descriptor released with every unit it holds, its unit list before its raw list (log entry 57). It has left the HELD ones
when its units go, so it is no staged record for the floor (log entry 48). -/
def Buffer.release (v : CreditEnv) (id : Nat) (b : Buffer) : Buffer :=
  match b.desc id with
  | some d =>
    let b1 := { b with descs := removeDesc id b.descs, allocs := b.allocs.filter fun a => a.isRead || a.desc ≠ some id }
    releaseDescOf v (releaseUnits v b1 (d.units ++ d.raw)) d.origin
  | none => b

/-- The first n units of the list are kept, the surplus released "from the end of its unit list backward" (R79, R87, R88); n is 0
for a MARK (log entry 49). -/
def Buffer.trim (v : CreditEnv) (id n : Nat) (b : Buffer) : Buffer :=
  match b.desc id with
  | some d => releaseUnits v (b.modDesc id fun e => { e with units := e.units.take n }) (d.units.drop n).reverse
  | none => b

/-- The stored units of an expanded record released; its raw list holds it (R87). -/
def Buffer.dropStored (v : CreditEnv) (id : Nat) (b : Buffer) : Buffer :=
  match b.desc id with
  | some d => releaseUnits v (b.modDesc id fun e => { e with units := [], data := [] }) d.units
  | none => b

/-! ### Refill (R81 to R83) -/

def refillUnits (v : CreditEnv) (b : Buffer) (p : Port) : Buffer :=
  let h := b.share.get p
  let lack := v.unitCeiling p - h.unitWindow
  let home := min lack h.writeFree
  let pool := if 0 < v.weight p then min (lack - home) b.poolFree else 0
  { b.modShare p fun h => { h with writeFree := h.writeFree - home, writeGranted := h.writeGranted + home,
                                   poolGranted := h.poolGranted + pool, cumUnits := addCount h.cumUnits (home + pool) }
    with poolFree := b.poolFree - pool }

def refillDescs (v : CreditEnv) (b : Buffer) (p : Port) : Buffer :=
  let h := b.share.get p
  let lack := v.descCeiling p - h.descWindow
  let home := min lack h.descWriteFree
  let pool := if 0 < v.weight p then min (lack - home) b.descPoolFree else 0
  { b.modShare p fun h => { h with descWriteFree := h.descWriteFree - home, descWriteGranted := h.descWriteGranted + home,
                                   descPoolGranted := h.descPoolGranted + pool, cumDescs := addCount h.cumDescs (home + pool) }
    with descPoolFree := b.descPoolFree - pool }

/-- One port's visit by the pass (R81). -/
def refillPort (v : CreditEnv) (b : Buffer) (p : Port) : Buffer :=
  if v.up.get p then
    let b1 := if unitsLow v b p then refillUnits v b p else b
    if descsLow v b1 p then refillDescs v b1 p else b1
  else b

/-- R81: the UP ports in cyclic order from the current port of the turn state. -/
def refillPass (v : CreditEnv) (b : Buffer) : Buffer :=
  let p := b.turnPort
  refillPort v (refillPort v (refillPort v b p) p.next) p.next.next

/-- R83: an idle link brings both windows to their ceilings, "whether or not it is below threshold". -/
def refillIdle (v : CreditEnv) (p : Port) (b : Buffer) : Buffer := refillDescs v (refillUnits v b p) p

/-- After the releases, consumption or change of one event: the allocations take what is FREE, then a refill pass (R81, R86). -/
def settle (v : CreditEnv) (b : Buffer) : Buffer := refillPass v (fillPort v (fillPort v (fillPort v b .p0) .p1) .p2)

/-! ### Consumption (R78) -/

def windowsHold (b : Buffer) (p : Port) (k : Nat) : Bool :=
  decide (k ≤ (b.share.get p).unitWindow) && decide (1 ≤ (b.share.get p).descWindow)

/-- k units and a descriptor taken, "granted write-home units first and then from its granted pool units", the bytes placed. -/
def Buffer.consume (p : Port) (k : Nat) (bytes : List Byte) (b : Buffer) : Buffer :=
  let h := b.share.get p
  let home := min k h.writeGranted
  let own := 0 < h.descWriteGranted
  (b.modShare p fun h => { h with writeGranted := h.writeGranted - home, poolGranted := h.poolGranted - (k - home),
                                  descWriteGranted := if own then h.descWriteGranted - 1 else h.descWriteGranted,
                                  descPoolGranted := if own then h.descPoolGranted else h.descPoolGranted - 1 }).addDesc
    ⟨b.freshId, if own then .writeHome p else .pool, List.replicate home (.writeHome p) ++ List.replicate (k - home) .pool, [],
     bytes, []⟩

/-! ### Making and cancelling allocations (R84, R87) -/

/-- A READ allocation: it takes a FREE read-home descriptor or waits for one. -/
def Buffer.askRead (v : CreditEnv) (p : Port) (bay : Bay) (b : Buffer) : Buffer :=
  if 0 < (b.share.get p).descReadFree then
    let id := b.freshId
    let b1 := (b.modShare p fun h => { h with descReadFree := h.descReadFree - 1 }).addDesc ⟨id, .readHome p, [], [], [], []⟩
    fillPort v { b1 with allocs := b1.allocs ++ [⟨p, bay, .read, some id⟩] } p
  else { b with allocs := b.allocs ++ [⟨p, bay, .read, none⟩] }

def Buffer.askExpand (v : CreditEnv) (p : Port) (bay : Bay) (id n : Nat) (b : Buffer) : Buffer :=
  fillPort v { b with allocs := b.allocs ++ [⟨p, bay, .expand n, some id⟩] } p

def Buffer.readAlloc (b : Buffer) (bay : Bay) : Option Alloc := b.allocs.find? fun a => a.bay = bay && a.isRead

/-- The bay's first complete EXPAND allocation. -/
def Buffer.readyExpand (b : Buffer) (bay : Bay) : Option Alloc :=
  b.allocs.find? fun a => a.bay = bay && !a.isRead && b.allocComplete a

def Buffer.dropRead (bay : Bay) (b : Buffer) : Buffer := { b with allocs := b.allocs.filter fun a => !(a.bay = bay && a.isRead) }
def Buffer.dropExpand (id : Nat) (b : Buffer) : Buffer := { b with allocs := b.allocs.filter fun a => a.isRead || a.desc ≠ some id }

/-- The bay's READ allocation cancelled: what it holds is released, its descriptor with it (R87). -/
def Buffer.cancelRead (v : CreditEnv) (bay : Bay) (b : Buffer) : Buffer :=
  match b.readAlloc bay with
  | some a => match a.desc with
    | some id => (b.dropRead bay).release v id
    | none => b.dropRead bay
  | none => b

/-! ### The internal reserve (R88) -/

/-- "every one of the 64 internal units is FREE and a descriptor is FREE". -/
def Buffer.reserveWhole (b : Buffer) : Bool := b.internalFree = Config.internalUnits && decide (0 < b.descInternalFree)

def Buffer.askReserve (bay : Bay) (b : Buffer) : Buffer :=
  if b.verifyWaiting.contains bay then b else { b with verifyWaiting := b.verifyWaiting ++ [bay] }
def Buffer.withdrawReserve (bay : Bay) (b : Buffer) : Buffer := { b with verifyWaiting := b.verifyWaiting.filter (· ≠ bay) }

/-- All 64 units and a descriptor become HELD by the run's block. -/
def Buffer.takeReserve (b : Buffer) : Buffer :=
  { b with internalFree := b.internalFree - Config.internalUnits, descInternalFree := b.descInternalFree - 1 }.addDesc
    ⟨b.freshId, .internal, List.replicate Config.internalUnits .internal, [], [], []⟩

/-! ### Attach and detach (R92, R93) -/

def Buffer.attach (v : CreditEnv) (p : Port) (b : Buffer) : Buffer :=
  refillPass v (refillIdle v p (b.modShare p fun h => { h with cumUnits := 0, cumDescs := 0 }))

/-- n pool descriptors released one after another. -/
def releasePoolDescs (v : CreditEnv) : Nat → Buffer → Buffer
  | 0, b => b
  | n + 1, b => releasePoolDescs v n (releasePoolDesc v b)

def Buffer.detach (v : CreditEnv) (p : Port) (b : Buffer) : Buffer :=
  let h := b.share.get p
  let b1 := b.modShare p fun h => { h with writeFree := h.writeFree + h.writeGranted, writeGranted := 0, poolGranted := 0,
                                           descWriteFree := h.descWriteFree + h.descWriteGranted, descWriteGranted := 0,
                                           descPoolGranted := 0 }
  releasePoolDescs v h.descPoolGranted (releaseUnits v b1 (List.replicate h.poolGranted .pool))

/-! ### Changing the allotments (R94, R95) -/

def leastWrite : Nat := 64
def leastRead : Nat := 128
def leastDescs : Nat := 2

/-- R95: one port's lowers may be taken. -/
def lowerAllowed (v : CreditEnv) (new : Settings) (b : Buffer) (p : Port) : Bool :=
  let h := b.share.get p
  let dw := v.settings.writeUnits.get p - new.writeUnits.get p
  let dr := v.settings.readUnits.get p - new.readUnits.get p
  let dd := v.settings.writeDescs.get p - new.writeDescs.get p
  (dw = 0 && dr = 0 && dd = 0)
    || (!v.up.get p && decide (dw ≤ h.writeFree) && decide (dd ≤ h.descWriteFree) && decide (dr ≤ h.readFree))

/-- One port's lowers taken: the given-up units and descriptors go to the pool, by the turns while it is congested. The port is DOWN
(R95), and no raise is applied yet: the waiters are those of the settings in force. -/
def lowerPort (v : CreditEnv) (new : Settings) (b : Buffer) (p : Port) : Buffer :=
  let dw := v.settings.writeUnits.get p - new.writeUnits.get p
  let dr := v.settings.readUnits.get p - new.readUnits.get p
  let dd := v.settings.writeDescs.get p - new.writeDescs.get p
  let b1 := b.modShare p fun h => { h with writeFree := h.writeFree - dw, readFree := h.readFree - dr, descWriteFree := h.descWriteFree - dd }
  releasePoolDescs v dd (releaseUnits v b1 (List.replicate (dw + dr) .pool))

def raiseUnits (old new : Settings) (p : Port) : Nat :=
  (new.writeUnits.get p - old.writeUnits.get p) + (new.readUnits.get p - old.readUnits.get p)
def raiseDescs (old new : Settings) (p : Port) : Nat := new.writeDescs.get p - old.writeDescs.get p

/-- "The credit manager applies the lowers first, then tests and applies the raises. If any part fails, nothing is applied"
(R94, R95): whether the new allotments can be taken. -/
def Buffer.allotmentsFit (v : CreditEnv) (new : Settings) (b : Buffer) : Bool :=
  let old := v.settings
  let b1 := lowerPort v new (lowerPort v new (lowerPort v new b .p0) .p1) .p2
  lowerAllowed v new b .p0 && lowerAllowed v new b .p1 && lowerAllowed v new b .p2
    && decide (raiseUnits old new .p0 + raiseUnits old new .p1 + raiseUnits old new .p2 ≤ b1.poolFree)
    && decide (raiseDescs old new .p0 + raiseDescs old new .p1 + raiseDescs old new .p2 ≤ b1.descPoolFree)

/-- FREE units and descriptors of the homes put at f's. -/
def Buffer.mapHomes (b : Buffer) (f : Port → Share → Share) : Buffer :=
  { b with share := ⟨f .p0 b.share.p0, f .p1 b.share.p1, f .p2 b.share.p2⟩ }

/-- A CONFIGURE taken: the FREE units and descriptors that its write will take to another origin are set aside, so that they are there
when the write completes (log entry 12). -/
def Buffer.setAside (old new : Settings) (b : Buffer) : Buffer :=
  { b.mapHomes fun p h => { h with writeFree := h.writeFree - movedUnits old new (.writeHome p),
                                   readFree := h.readFree - movedUnits old new (.readHome p),
                                   descWriteFree := h.descWriteFree - movedDescs old new (.writeHome p) }
    with poolFree := b.poolFree - movedUnits old new .pool, descPoolFree := b.descPoolFree - movedDescs old new .pool }

/-- What is set aside put back: the buffer as it stands, nothing of it changed by the write that goes on. -/
def Buffer.whole (old new : Settings) (b : Buffer) : Buffer :=
  { b.mapHomes fun p h => { h with writeFree := h.writeFree + movedUnits old new (.writeHome p),
                                   readFree := h.readFree + movedUnits old new (.readHome p),
                                   descWriteFree := h.descWriteFree + movedDescs old new (.writeHome p) }
    with poolFree := b.poolFree + movedUnits old new .pool, descPoolFree := b.descPoolFree + movedDescs old new .pool }

/-- The lowers applied and the raises not: the lower ceilings, and nothing set aside any more. -/
def CreditEnv.lowered (v : CreditEnv) : CreditEnv :=
  .of { v.settings with writeUnits := ⟨v.unitCeiling .p0, v.unitCeiling .p1, v.unitCeiling .p2⟩,
                        writeDescs := ⟨v.descCeiling .p0, v.descCeiling .p1, v.descCeiling .p2⟩ } v.up

/-- The write complete: what was set aside is FREE in its new origin (R94, R95). Units and descriptors that the pool gains are "handed
by the turns as if released", under the weights and the threshold in force until then (log entry 30); the raises come after. -/
def Buffer.landMoved (v : CreditEnv) (new : Settings) (b : Buffer) : Buffer :=
  let b1 := releasePoolDescs v.lowered (movedDescs new v.settings .pool)
    (releaseUnits v.lowered b (List.replicate (movedUnits new v.settings .pool) .pool))
  b1.mapHomes fun p h => { h with writeFree := h.writeFree + movedUnits new v.settings (.writeHome p),
                                  readFree := h.readFree + movedUnits new v.settings (.readHome p),
                                  descWriteFree := h.descWriteFree + movedDescs new v.settings (.writeHome p) }

/-! ### Counts of HELD units and descriptors -/

def Desc.unitsOf (d : Desc) (o : Origin) : Nat := (d.units.filter (· = o)).length + (d.raw.filter (· = o)).length
def Buffer.heldUnits (b : Buffer) (o : Origin) : Nat := (b.descs.map (·.unitsOf o)).sum
def Buffer.heldDescs (b : Buffer) (o : Origin) : Nat := (b.descs.filter fun d => d.origin = o).length

/-! ### On the whole state -/

/-- A CREDIT notice to p when either of its cumulative counts has changed (R80). -/
def creditNotice (old : Buffer) (s : State) (p : Port) : State :=
  let h := s.buffer.share.get p
  if h.cumUnits = (old.share.get p).cumUnits ∧ h.cumDescs = (old.share.get p).cumDescs then s
  else queueNotice s p (.credit h.cumUnits h.cumDescs)

/-- The one way the buffer changes within an event. -/
def onBuffer (s : State) (f : CreditEnv → Buffer → Buffer) : State :=
  let t := { s with buffer := f s.creditEnv s.buffer }
  creditNotice s.buffer (creditNotice s.buffer (creditNotice s.buffer t .p0) .p1) .p2

def releaseDesc (s : State) (id : Nat) : State := onBuffer s fun v b => b.release v id
def trimDesc (s : State) (id n : Nat) : State := onBuffer s fun v b => b.trim v id n
def placeBytes (s : State) (id : Nat) (bytes : List Byte) : State :=
  { s with buffer := s.buffer.modDesc id fun d => { d with data := bytes } }

/-- The buffer as reports show it: a unit that a settings write in progress has set aside is FREE in its origin until the write
completes (R74, R96). -/
def State.shownBuffer (s : State) : Buffer :=
  match s.storeWrite with
  | some q => s.buffer.whole s.settings (s.settings.with q.entries)
  | none => s.buffer

/-- The answer of an event that released, consumed or re-allotted: allocations served, a refill pass, then the links. -/
def finishCredit (s : State) : Result := finish (onBuffer s settle)

end Sys2Proof.Machine
end

