-- ==== Sys2Proof/Machine/Drive.lean ====
section
/-! DEFINITION. The drive link (chapter 3): issuing an order, taking a reply, the reply timer, positioning, and the engine's
offer places. -/

namespace Sys2Proof.Machine

/-! ### Orders and the reply timer (R55, R56) -/

/-- "When the controller issues an order while none is outstanding, it loads the timer with the order reply limit". -/
def Drive.timerAtIssue (d : Drive) : Timer := if d.owes then d.timer else .running Config.replyLimitMs

/-- An order other than WRITE and GAP issued. -/
def Drive.issue (d : Drive) (o : Order) (st : DriveState) : Drive :=
  { d with order := some o, state := st, timer := d.timerAtIssue }

/-- A reply taken: the timer reloaded while orders remain, else stopped (R56). -/
def Drive.replied (d : Drive) : Drive := { d with timer := if d.owes then .running Config.replyLimitMs else .stopped }

/-- The answer of the one order outstanding other than WRITE and GAP. -/
def Drive.answered (d : Drive) (st : DriveState) : Drive := ({ d with order := none, state := st }).replied

/-- R63 to R65: "When the list is empty and no gap is outstanding, the state goes to IDLE". -/
def Drive.afterWrite (d : Drive) : Drive := ({ d with state := if d.owes then d.state else .idle }).replied

/-! ### Position (R60, R61) -/

def unknownPosition : Position := ⟨none, none⟩

/-- The drive already stands at block a, with its frame known when it is needed (R61). -/
def Drive.standsAt (d : Drive) (a : Nat) (needFrame : Bool) : Bool :=
  d.posBlock = some a && (!needFrame || d.posFrame.isSome)

/-- LOCATE(a) issued (R61). -/
def issueLocate (s : State) (b : Bay) (a : Nat) : State := s.modDrive b fun d => d.issue (.locate a) .positioning

/-- R60, WRITE issued for block b with k frames. -/
def Position.written (q : Position) (b k : Nat) : Position := ⟨some (b + 1), q.frame.map (· + k)⟩

/-- R60, GAP issued: "Frame + 64, when known". -/
def Position.gapped (q : Position) : Position := { q with frame := q.frame.map (· + Config.gapFrames) }

/-- R60, WRITE-FAULT(b): "The frame at which block b began, plus b's frames, when known"; `later` the frames of the
discarded blocks behind it. -/
def Position.faulted (q : Position) (b later : Nat) : Position := ⟨some b, q.frame.map (· - later)⟩

/-- R65, R62: GAP issued. -/
def Drive.issueGap (d : Drive) : Drive :=
  { d with gap := true, position := d.position.map (·.gapped), state := .writing, timer := d.timerAtIssue }

/-- R62: WRITE issued. -/
def Drive.issueWrite (d : Drive) (f : Flight) : Drive :=
  { d with inFlight := d.inFlight ++ [f], position := d.position.map (·.written f.block f.frames), continuation := none,
           state := .writing, timer := d.timerAtIssue }

/-- R69: what entering FAULTED or OFFLINE does to the context. The volume and the claim are kept. -/
def Drive.down (d : Drive) (st : DriveState) : Drive :=
  { d with state := st, activity := .none, position := some unknownPosition, continuation := none, inFlight := [],
           gap := false, order := none, timer := .stopped }

/-! ### Tests of R72 -/

/-- R72, tests 2 to 5, for port p on bay b; and the DRIVE BUSY of R99 "While the stream is OPENING". -/
def bayRefusal (s : State) (p : Port) (b : Bay) : Option ReplyCode :=
  let d := s.drive b
  firstRefusal
    [ (d.claim ≠ some p, .driveBusy),
      (d.state = .faulted || d.state = .offline, .driveFault),
      (d.state = .empty, .noVolume),
      (d.state ≠ .idle || !d.activity.isNone || (s.stream b).state = .opening, .driveBusy) ]

/-- The bay takes new work: the runs that a drive fault ended, and that have not closed, go on beside it (log entry 31). -/
def setAside (s : State) (b : Bay) : State :=
  (s.setRestoreRuns b ⟨none, (s.restores.get b).left ++ (s.restore b).toList⟩).setVerifyRuns b
    ⟨none, (s.verifies.get b).left ++ (s.verifyRun b).toList⟩

/-! ### Engine offers (R135, R137) -/

/-- An item put in its bay's offer place, or behind the item that is there. -/
def Engine.put (e : Engine) (i : Item) : Engine :=
  if (e.offer.get i.bay).isNone then { e with offer := e.offer.set i.bay (some i) }
  else { e with behind := e.behind.set i.bay (e.behind.get i.bay ++ [i]) }

/-- The bay's offer place emptied, and filled from behind. -/
def Engine.vacate (e : Engine) (b : Bay) : Engine :=
  { e with offer := e.offer.set b (e.behind.get b).head?, behind := e.behind.set b (e.behind.get b).tail }

/-- The bay's item of descriptor `id` removed from the offer place, or from behind it. -/
def Engine.withdraw (e : Engine) (b : Bay) (id : Nat) : Engine :=
  if (e.offer.get b).any fun i => i.desc = id then e.vacate b
  else { e with behind := e.behind.set b ((e.behind.get b).filter fun i => i.desc ≠ id) }

def offerItem (s : State) (i : Item) : State := s.modEngine fun e => e.put i

/-- The bay's item of descriptor `id`, if it is not in hand: it "completes at once, at its abandonment, without being run". -/
def withdrawItem (s : State) (b : Bay) (id : Nat) : State := s.modEngine fun e => e.withdraw b id

def State.offered (s : State) (b : Bay) : Option Item := s.engine.offer.get b

/-- The bay's items: in hand, on offer and behind. -/
def State.itemsOf (s : State) (b : Bay) : List Item :=
  (s.engine.inHand.filter fun i => i.bay = b).toList ++ (s.offered b).toList ++ s.engine.behind.get b

/-- The item in hand of descriptor `id` is abandoned: its result will be "marked discarded" (R137). -/
def abandonInHand (s : State) (id : Nat) : State :=
  s.modEngine fun e => { e with inHand := e.inHand.map fun i => if i.desc = id then { i with abandoned := true } else i }

/-- The item of descriptor `id` that the engine has in hand. -/
def State.engineHolds (s : State) (id : Nat) : Bool := s.engine.inHand.any fun i => i.desc = id

end Sys2Proof.Machine
end

