-- ==== Sys2Proof/Machine/Volumes.lean ====
section
/-! DEFINITION. The events that reach the volume table (R13, R16, R21 to R27) other than the reconciliation of readings,
which queues moves and stands with the picker. -/

namespace Sys2Proof.Machine

/-! ### Creating, dropping and exporting records (R13) -/

/-- Insert a record in ascending label order (R18). -/
def insertVolume (v : Volume) : List Volume → List Volume
  | [] => [v]
  | w :: rest => if v.label.code.toNat < w.label.code.toNat then v :: w :: rest else w :: insertVolume v rest

/-- The record a new label gets at element `pea` (R13). -/
def newVolume (l : Label) (pea : Nat) : Volume where
  label := l
  owner := none
  location := .element pea
  home := if isStorage pea then some pea else none
  cls := none
  writeProtected := false
  eod := none
  framesUsed := 0
  marks := []
  verifiedTo := 0
  failure := none
  rawTotal := 0
  storedTotal := 0
  softErrors := 0
  hardErrors := 0

def Volume.exportSeq (v : Volume) : Option Nat :=
  match v.location with
  | .outside n => some n
  | _ => none

/-- The record OUTSIDE with the lowest export sequence, if any is OUTSIDE. -/
def oldestOutside (vs : List Volume) : Option Volume :=
  vs.foldl (fun best v =>
    match v.exportSeq, best.bind (·.exportSeq) with
    | some n, some m => if n < m then some v else best
    | some _, none => some v
    | none, _ => best) none

/-- R13: the table with a new record, the oldest OUTSIDE record dropped when 64 are held; none if it cannot be made. -/
def createVolume (vs : List Volume) (l : Label) (pea : Nat) : Option (List Volume) :=
  if vs.length < Config.maxVolumes then some (insertVolume (newVolume l pea) vs)
  else match oldestOutside vs with
    | some v => some (insertVolume (newVolume l pea) (vs.filter fun w => w.label ≠ v.label))
    | none => none

/-- The place of an OUTSIDE record in the order of export sequences. -/
def exportRank (vs : List Volume) (n : Nat) : Nat :=
  (vs.filter fun v => match v.exportSeq with
    | some m => decide (m < n)
    | none => false).length

/-- "When the counter stands at 4,294,967,295 and an export needs a number, the OUTSIDE records are first renumbered
0, 1, 2 and so on in their existing order, the counter is set to their number" (R13). -/
def renumberExports (s : State) : State :=
  if s.store.exportCounter < Config.absent32 then s
  else
    let vs := s.store.volumes
    let renum := vs.map fun v => match v.exportSeq with
      | some n => { v with location := .outside (exportRank vs n) }
      | none => v
    { s with store := { s.store with volumes := renum, exportCounter := (vs.filter fun v => v.exportSeq.isSome).length } }

/-- A record's location becomes OUTSIDE with the next export sequence (R13). -/
def exportVolume (s : State) (l : Label) : State :=
  let s1 := renumberExports s
  let s2 := modVolume s1 l fun v => { v with location := .outside s1.store.exportCounter }
  { s2 with store := { s2.store with exportCounter := s1.store.exportCounter + 1 } }

/-! ### Locations -/

/-- The records located at element `pea` but for the one of `keep` take location UNKNOWN (R12's law, R47). -/
def displaceFrom (s : State) (pea : Nat) (keep : Option Label) : State :=
  mapVolumes s fun v => if v.location = .element pea && some v.label ≠ keep then { v with location := .unknown } else v

/-- The records R23 moves when element `pea` is found empty: located there; or of the label its entry held and located
UNKNOWN, whatever the entry's condition (log entry 61). -/
def emptiedLabels (s : State) (pea : Nat) : List Label :=
  let named := (s.elemState pea).bind (·.anyLabel)
  (s.store.volumes.filter fun v => v.location = .element pea || (some v.label = named && v.location = .unknown)).map (·.label)

/-- R23: an element found empty. `byAudit` says an audit found it, which for a mail slot makes the location OUTSIDE. -/
def foundEmpty (s : State) (pea : Nat) (byAudit : Bool) : State :=
  let gone := emptiedLabels s pea
  let s1 := if byAudit && isMail pea then gone.foldl exportVolume s
    else gone.foldl (fun t l => modVolume t l fun v => { v with location := .unknown }) s
  setElem s1 pea .empty

/-- The record stands at an element other than `pea`, or in the picker. -/
def Volume.elsewhere (v : Volume) (pea : Nat) : Bool :=
  match v.location with
  | .element q => decide (q ≠ pea)
  | .picker => true
  | .unknown => false
  | .outside _ => false

/-- What a FETCH from `pea` with its label as expected takes: the source's label and condition (R8, R9). An entry that went UNKNOWN
while the FETCH ran (the mail door opened, R46), or that a mail audit has since found EMPTY while the FETCH was held, has no condition: it
is the one the label read has, NORMAL when its record lost its place with the entry, UNKNOWN or OUTSIDE (log entry 43). -/
def fetchedState (s : State) (pea : Nat) (read : Option Label) : ElemState :=
  match s.elemState pea, read with
  | some (.full l c), _ => .full l c
  | _, none => .full none .noLabel
  | _, some l =>
    match s.volume l with
    | none => .full (some l) .unregistered
    | some v => .full (some l) (if v.elsewhere pea then .duplicate else .normal)

/-- R9 and R21: a FETCH from `pea` complete, the label read as expected. -/
def fetchTaken (s : State) (pea : Nat) (read : Option Label) : State :=
  let held := fetchedState s pea read
  let s1 := match held.namedLabel.bind s.volume with
    | some v => modVolume s v.label fun w => { w with location := .picker, home := if isStorage pea then some pea else w.home }
    | none => s
  setElem (setElem s1 pea .empty) 0 held

/-- R8: the condition a carried cartridge has once placed at `pea`: a MISPLACED one placed where its owner can see it
becomes NORMAL. -/
def placedState (s : State) (pea : Nat) (held : ElemState) : ElemState :=
  match held with
  | .full l .misplaced =>
    match l.bind s.volume with
    | some v => if s.visibleToOwner v.owner pea then .full l .normal else .full l .misplaced
    | none => .full l .misplaced
  | .full l c => .full l c
  | _ => .full none .noLabel

/-- R9 and R21: a PLACE at `pea` complete and clear. A gripped cartridge of which the picker's entry holds nothing is
placed as NO LABEL (R43). A record that was located there, by a reading made meanwhile, loses its place (R12; log entry 19). -/
def placeTaken (s : State) (pea : Nat) : State :=
  let held := (s.elemState 0).getD .empty
  let s0 := displaceFrom s pea none
  let s1 := match s.elemVolume 0 with
    | some v => modVolume s0 v.label fun w => { w with location := .element pea }
    | none => s0
  setElem (setElem s1 pea (placedState s pea held)) 0 .empty

/-- R9, R38: a place found obstructed: the entry FULL, label absent, NO LABEL. A record located there loses its place (R12). -/
def placeObstructed (s : State) (pea : Nat) : State :=
  setElem (displaceFrom s pea none) pea (.full none .noLabel)

/-! ### Thread events (R24) -/

/-- THREADED: class and write-protected recorded; frames used lowered to the class's capacity when above it. -/
def Volume.threaded (v : Volume) (cls : Nat) (wp : Bool) : Volume :=
  { v with cls := some cls, writeProtected := wp, framesUsed := min v.framesUsed (Config.capacity (some cls)) }

def Volume.hardError (v : Volume) : Volume := { v with hardErrors := bump16 v.hardErrors }

/-! ### Write-path events (R25) -/

def Volume.committedData (v : Volume) (b frames raw stored : Nat) : Volume :=
  { v with framesUsed := v.framesUsed + frames, eod := some (b + 1),
           rawTotal := addTotal v.rawTotal raw, storedTotal := addTotal v.storedTotal (stored + 32) }

def Volume.committedMark (v : Volume) (b : Nat) : Volume :=
  { v with framesUsed := v.framesUsed + 1, eod := some (b + 1), marks := v.marks ++ [b],
           storedTotal := addTotal v.storedTotal 32 }

def Volume.writeFaulted (v : Volume) (frames : Nat) : Volume :=
  { v with framesUsed := v.framesUsed + frames, softErrors := bump16 v.softErrors }

def Volume.gapDone (v : Volume) : Volume := { v with framesUsed := v.framesUsed + Config.gapFrames }

/-- R26: the overwrite from block n, reported with frame count f. -/
def Volume.overwrite (v : Volume) (n f : Nat) : Volume :=
  { v with eod := if n = 0 then none else some n, framesUsed := f, marks := v.marks.filter fun m => decide (m < n),
           verifiedTo := min v.verifiedTo n,
           failure := match v.failure with
             | some b => if n ≤ b then none else some b
             | none => none
           rawTotal := 0, storedTotal := 0 }

/-- R16: made scratch and blank. -/
def Volume.released (v : Volume) : Volume :=
  { v with owner := none, eod := none, marks := [], verifiedTo := 0, failure := none, rawTotal := 0, storedTotal := 0,
           framesUsed := 0 }

/-! ### Check results (R27) -/

/-- A block passes its check. -/
def Volume.passed (v : Volume) (b : Nat) : Volume :=
  if b = v.verifiedTo && (match v.failure with
    | some f => decide (b < f)
    | none => true) then { v with verifiedTo := b + 1 } else v

/-- A block fails its check. -/
def Volume.failed (v : Volume) (b : Nat) : Volume :=
  { v with verifiedTo := min v.verifiedTo b,
           failure := match v.failure with
             | some f => some (min f b)
             | none => some b }

/-! ### Destinations -/

/-- The first storage slot, in ascending PEA, that is EMPTY, unclaimed and visible to the owner (R22, R40, R43, R50). -/
def firstEmptySlot (s : State) (owner : Option Port) : Option Nat :=
  (storageSlots s.strap).find? fun q => s.isEmptyElem q && !s.isClaimed q && s.visibleToOwner owner q

/-- R40: the home slot when it will do, else the first slot that will. -/
def unloadDest (s : State) (vol : Option Volume) : Option Nat :=
  let owner := vol.bind (·.owner)
  match vol.bind (·.home) with
  | some h => if s.isEmptyElem h && !s.isClaimed h && s.visibleToOwner owner h then some h else firstEmptySlot s owner
  | none => firstEmptySlot s owner

/-! ### Scratch choice (R19, R20) -/

/-- A slot that meets R20's four conditions. -/
def scratchReady (s : State) (pea : Nat) : Bool :=
  match s.element pea with
  | some e => match e.state with
    | .full (some l) .normal => e.claim.isNone && (match s.volume l with
      | some v => v.owner.isNone && !v.writeProtected
      | none => false)
    | _ => false
  | none => false

/-- R20: the slot's number and address, examined from the pointer and wrapping, each once. -/
def chooseScratch (s : State) : Option (Nat × Nat) :=
  let slots := sharedSlots s
  let numbered := (List.range slots.length).zip slots
  (numbered.drop s.scratchPointer ++ numbered.take s.scratchPointer).find? fun q => scratchReady s q.2

/-- The pointer after slot number k of n is chosen (R20). -/
def scratchAfter (s : State) (k : Nat) : Nat := if k + 1 = (sharedSlots s).length then 0 else k + 1

end Sys2Proof.Machine
end

