-- ==== Sys2Proof/Machine/StreamOps.lean ====
section
/-! DEFINITION. The stream controller's shared operations (chapter 5): notices and SYNC answers, the offers to the engine and
to the bay, medium end, stream fault, discard, the end of an opening, and the close. -/

namespace Sys2Proof.Machine

/-! ### Reporting commits (R111 to R113) -/

/-- Whether the stream's port is UP. -/
def State.streamUp (s : State) (b : Bay) : Bool :=
  match (s.stream b).port with
  | some p => (s.port p).up
  | none => false

/-- Queue a notice to the stream's port. -/
def toStreamPort (s : State) (b : Bay) (n : Notice) : State :=
  match (s.stream b).port with
  | some p => queueNotice s p n
  | none => s

/-- What a COMMIT notice, SYNC reply or close reply leaves: nothing unreported, the timer stopped. -/
def Stream.reported (c : Stream) : Stream :=
  { c with unreported := 0, timer := .stopped, highestReported := c.highestCommitted }

/-- A COMMIT notice queued (R111), with the figure computed at its queuing (R140). -/
def commitNotice (s : State) (b : Bay) : State :=
  let c := s.stream b
  (toStreamPort s b (.commit b (ratioFigure c.rawTotal c.storedTotal) (c.highestCommitted.getD Config.absent32) c.eod)).modStream b
    Stream.reported

/-- After a commit: the commit count, a latency of 0, or the loading of the latency timer (R111, R112). -/
def testCommitNotice (s : State) (b : Bay) : State :=
  let c := s.stream b
  let st := s.settings
  if s.streamUp b && (st.commitLatency = 0 || (match st.commitCount with
      | some n => decide (n ≤ c.unreported)
      | none => false)) then commitNotice s b
  else if st.commitLatency = 0 || c.timer.isRunning then s
  else s.modStream b fun c => { c with timer := .running st.commitLatency }

/-- The SYNC reply (R113). -/
def answerSync (s : State) (b : Bay) (tag : Byte) (code : ReplyCode) : State :=
  let c := s.stream b
  match c.port with
  | some p => (answer s p tag .sync code (.sync b c.highestCommitted c.eod)).modStream b Stream.reported
  | none => s

/-- The pending SYNC list tested at a commit or a loss (R113): each that meets its first or second case is answered, in
the order in which they came (log entry 75). -/
def testSyncs (s : State) (b : Bay) : State :=
  let c := s.stream b
  let keep := c.syncs.filter fun y => (c.syncOutcome y.upTo).isNone
  let go := c.syncs.filterMap fun y => (c.syncOutcome y.upTo).map fun o => (y.tag, o)
  go.foldl (fun t a => answerSync t b a.1 a.2) (s.modStream b fun c => { c with syncs := keep })

/-! ### Records leaving without a commit (R107, R115 to R120, R137) -/

def Stream.dropRec (c : Stream) (num : Nat) : Stream := { c with records := c.records.filter fun r => r.num ≠ num }

/-- One record given up. An item on offer completes at once and the record goes with it; a record in the engine's hand has
its item abandoned and stays until that item completes. A discard counts each record it releases (R120). -/
def giveUpRecord (b : Bay) (s : State) (r : Rec) : State :=
  if r.state = .inEngine && s.engineHolds r.desc then abandonInHand s r.desc
  else
    (releaseDesc (withdrawItem s b r.desc) r.desc).modStream b fun c =>
      { c.dropRec r.num with discarded := if c.discard then c.discarded + 1 else c.discarded }

/-- The records that meet `f` given up in record order. -/
def giveUpRecords (s : State) (b : Bay) (f : Rec → Bool) : State := ((s.stream b).records.filter f).foldl (giveUpRecord b) s

/-- R117: the stream meets medium end at record u. The records lost go in record order (log entry 68). -/
def mediumEnd (s : State) (b : Bay) (u : Nat) : State :=
  let s1 := s.modStream b fun c =>
    { c with firstUnsent := some u,
             state := if c.state = .open || c.state = .writeHalted then .mediumEnd else c.state }
  let s2 := giveUpRecords s1 b fun r => decide (u ≤ r.num) && r.state ≠ .inDrive
  testSyncs (toStreamPort s2 b (.mediumEnd b u)) b

/-! ### Closing (R121) -/

def clearStreamActivity (s : State) (b : Bay) : State :=
  s.modDrive b fun d => match d.activity with
    | .stream _ => { d with activity := .none }
    | _ => d

/-- One closing request answered to the port that sent it: a CLOSE-STREAM with the outcome of the close, an ABORT with DONE. The
CLOSE-STREAM reply that is sent leaves nothing unreported; one whose tag was dropped is not sent and reports nothing. -/
def answerClosing (b : Bay) (s : State) (q : Closing) : State :=
  let c := s.stream b
  if q.isAbort then answerHeld s q.port q.tag .abort .done
  else if q.tag.isSome && (s.port q.port).up then
    (answerHeld s q.port q.tag .closeStream c.closeOutcome
      (.close b c.highestCommitted c.eod (c.nextRecord - c.committedCount) c.refused c.discarded)).modStream b Stream.reported
  else s

/-- The stream closes: "A CLOSE-STREAM waiting in the closing requests is answered before the ABORT" (R122), then the SYNCs
still pending when the outcome is other than DONE; each sort in the order in which they came (log entry 75). -/
def closeStream (s : State) (b : Bay) : State :=
  let c := s.stream b
  let o := c.closeOutcome
  let s1 := (c.closing.filter fun q => !q.isAbort).foldl (answerClosing b) s
  let s2 := (c.closing.filter fun q => q.isAbort).foldl (answerClosing b) s1
  let s3 := if o = .done then s2 else c.syncs.foldl (fun t y => answerSync t b y.tag o) s2
  clearStreamActivity (s3.modStream b fun c =>
    { c with state := .closed, timer := .stopped, fault := none, closing := [], discard := false, syncs := [] }) b

/-! ### Stream fault (R115, R116) -/

/-- A record of a stream that gives up: released at once, but one in the engine's hand when its item completes. -/
def loseRecord (b : Bay) (s : State) (r : Rec) : State :=
  if r.state = .inEngine && s.engineHolds r.desc then abandonInHand s r.desc
  else releaseDesc (withdrawItem s b r.desc) r.desc

/-- The stream gives up with a fault code: everything in one event. A DRAINING stream closes here and answers who waits, also while an
abandoned item of its is in the engine's hand (log entry 29). The hard error goes to the volume that the drive context names, also for a
stream that outlasts its cartridge (log entry 16). -/
def streamFault (s : State) (b : Bay) (code : FaultCode) : State :=
  let c := s.stream b
  let lost := c.records.head?.map (·.num)
  let s1 := c.records.foldl (loseRecord b) s
  let s2 := modDriveVolume (s1.modStream b fun c => { c with fault := some code, records := [] }) b Volume.hardError
  let s3 := testSyncs (toStreamPort s2 b (.streamFault b code lost)) b
  if c.state = .draining then closeStream s3 b
  else clearStreamActivity (s3.modStream b fun c => { c with state := .faulted }) b

/-! ### The offer to the engine (R108) -/

/-- No header: what a SHRINK item carries. -/
def blankHeader : TapeHeader := ⟨0, 0, 0, 0, 0, 0, 0⟩

/-- The stream's oldest RAW record offered as a SHRINK item, when it has none in the engine. -/
def offerEngine (s : State) (b : Bay) : State :=
  let c := s.stream b
  if c.writes && !(c.records.any fun r => r.state = .inEngine) then
    match c.records.find? fun r => r.state = .raw with
    | some r =>
      offerItem (s.modStream b fun c => { c with records := c.records.map fun q =>
        if q.num = r.num then { q with state := .inEngine } else q }) ⟨b, .shrink c.shrink, r.desc, blankHeader, false⟩
    | none => s
  else s

/-! ### The offer to the bay (R109, R62, R66, R67) -/

def RecKind.code : RecKind → Byte
  | .data => 0
  | .index => 1
  | .mark => 2

def Form.code : Form → Byte
  | .plain => 0
  | .shrunk => 1

/-- "the volume's mark list entries below the block, and the stream's own marks sent before it" (R109). -/
def setNumberAt (s : State) (b : Bay) (num block : Nat) : Nat :=
  (((s.driveVolume b).map (·.marks)).getD [] |>.filter fun m => decide (m < block)).length
    + ((s.stream b).records.filter fun r => r.kind = .mark && decide (r.num < num)).length

/-- The header of a record's block at its first send (R109, R186). For a mark the form, lengths and check word are 0. -/
def recordHeader (s : State) (b : Bay) (r : Rec) (block : Nat) : TapeHeader where
  kind := r.kind.code
  form := (r.coded.map fun k => k.form.code).getD 0
  writer := BitVec.ofNat 8 (((s.stream b).port.map (·.num)).getD 0)
  rawLen := BitVec.ofNat 32 r.rawLen
  storedLen := BitVec.ofNat 32 ((r.coded.map (·.storedLen)).getD 0)
  check := (r.coded.map (·.check)).getD 0
  setNumber := BitVec.ofNat 32 (setNumberAt s b r.num block)

/-- "1 + ceil(stored/1024) for a data block and 1 for a mark" (R62). -/
def Rec.frames (r : Rec) : Nat :=
  if r.kind = .mark then 1 else blockFrames ((r.coded.map (·.storedLen)).getD 0)

/-- R67, R118: the report after an admitted send, acted on by the early-warning-sent flag. -/
def earlyWarning (s : State) (b : Bay) (num : Nat) : State :=
  if decide (s.remaining b < s.settings.margin) && !(s.stream b).earlyWarned && s.streamUp b then
    (toStreamPort s b (.earlyWarning b num (s.remaining b))).modStream b fun c => { c with earlyWarned := true }
  else s

/-- The bay takes the offer: WRITE issued, the record IN-DRIVE (R62, R109). "A rewrite writes the same header as the first write of its
record" (R186), whatever has become of the volume's mark list since. -/
def sendBlock (s : State) (b : Bay) (r : Rec) (block : Nat) : State :=
  let h := r.header.getD (recordHeader s b r block)
  let f : Flight := ⟨block, r.kind = .mark, r.frames, r.num, h⟩
  let s1 := (s.modDrive b fun d => d.issueWrite f).modStream b fun c =>
    { c with nextBlock := if r.block.isNone then c.nextBlock + 1 else c.nextBlock,
             records := c.records.map fun q =>
               if q.num = r.num then { q with state := .inDrive, block := some block, writes := q.writes + 1, header := some h }
               else q }
  earlyWarning s1 b r.num

/-- The tests of R62 other than the frames check; a WRITE is issued from IDLE or WRITING only (Table 3-2), with no order but WRITEs
outstanding (R55). -/
def Drive.takesWrite (d : Drive) : Bool :=
  (match d.activity with
    | .stream _ => true
    | _ => false) && (d.state = .idle || d.state = .writing) && !d.gap && d.order.isNone && decide (d.inFlight.length < Config.maxInFlight)

/-- One offer. None: nothing to offer, or it waits. An offer whose block is not the position's block (R62) waits (log entry 16). -/
def offerOnce (s : State) (b : Bay) : Option State :=
  let c := s.stream b
  if !c.writes then none
  else match c.records.find? fun r => r.state ≠ .inDrive with
    | some r =>
      if r.state ≠ .stored then none
      else if Config.absent32 ≤ r.block.getD c.nextBlock then some (mediumEnd s b r.num)
      else if !(s.drive b).takesWrite || (s.drive b).posBlock ≠ some (r.block.getD c.nextBlock) then none
      else if s.remaining b < r.frames then some (mediumEnd s b r.num)
      else some (sendBlock s b r (r.block.getD c.nextBlock))
    | none => none

/-- The offers of one event, until one waits or is refused. Fuel: the places of the in-flight write list, and one. -/
def offerRun : Nat → State → Bay → State
  | 0, s, _ => s
  | n + 1, s, b =>
    match offerOnce s b with
    | some t => offerRun n t b
    | none => s

def offerBlocks (s : State) (b : Bay) : State := offerRun (Config.maxInFlight + 1) s b

/-! ### Discard (R120) -/

/-- DISCARD: the mark set, every record not in the drive released, the closing request joined. -/
def discardStream (s : State) (b : Bay) (q : Closing) : State :=
  let s1 := s.modStream b fun c =>
    { c with discarded := if c.discard then c.discarded else 0, discard := true, state := .draining, closing := c.closing ++ [q] }
  testSyncs (giveUpRecords s1 b fun r => r.state ≠ .inDrive) b

/-! ### The end of an opening (R100, R101) -/

/-- The APPEND or FROM n of an opening applied to the volume record, the owner with it in one store write (R15, R26). -/
def openVolume (s : State) (b : Bay) (p : Port) (f : Nat) : State :=
  let c := s.stream b
  modDriveVolume s b fun v =>
    let w := match c.openFrom with
      | some n => if n < v.eod.getD 0 then v.overwrite n f else v
      | none => v
    { w with owner := some p }

def openReply (s : State) (b : Bay) : ReplyBody := .openStream (s.stream b).start ((s.driveVolume b).bind (·.cls))

/-- The bay reports the drive at the start block, with frame count f (R100). -/
def openingDone (s : State) (b : Bay) (f : Nat) : State :=
  match (s.stream b).port with
  | some p =>
    let s1 := openVolume s b p f
    let s2 := (s1.modStream b fun c => { c with state := .open, openTag := none }).modDrive b fun d => { d with activity := .stream p }
    answerHeld s2 p (s.stream b).openTag .openStream .done (openReply s2 b)
  | none => s

/-- An opening that does not reach its start block (R101): an abandoned one is answered ABORTED, also when the
bay goes down (log entry 50), then its ABORTs DONE in the order in which they came (log
entry 75). -/
def openingEnds (s : State) (b : Bay) (code : ReplyCode) : State :=
  let c := s.stream b
  match c.port with
  | some p =>
    let s1 := answerHeld s p c.openTag .openStream (if c.abandoned then .aborted else code) (openReply s b)
    (c.closing.foldl (answerClosing b) s1).modStream b fun c =>
      { c with state := .closed, timer := .stopped, openTag := none, closing := [], abandoned := false }
  | none => s

/-! ### Link loss (R123) -/

/-- A stream of a port whose link goes down or is reset. -/
def streamLinkLoss (s : State) (b : Bay) : State :=
  let c := s.stream b
  let s1 := s.modStream b fun c => { c with syncs := [], openTag := none }
  match c.state with
  | .open => s1.modStream b fun c => { c with state := .draining, refused := 0 }
  | .writeHalted => s1.modStream b fun c => { c with state := .draining, refused := 0 }
  | .mediumEnd => s1.modStream b fun c => { c with state := .draining, refused := 0 }
  | .faulted => closeStream s1 b
  | .opening => s1.modStream b fun c => { c with abandoned := true }
  | .draining => s1
  | .closed => s1

/-- The tag of a closing request of port p gone. -/
def Closing.untag (p : Port) (q : Closing) : Closing := if q.port = p then { q with tag := none } else q
def untagClosing (s : State) (p : Port) (b : Bay) : State :=
  s.modStream b fun c => { c with closing := c.closing.map (Closing.untag p) }

/-- The closing requests of port p lose their tags, an ABORT of another port's stream too (log entry 16); then both streams, each if it
is port p's. -/
def portStreamsLoss (s : State) (p : Port) : State :=
  let s0 := untagClosing (untagClosing s p .d0) p .d1
  let s1 := if (s0.stream .d0).port = some p then streamLinkLoss s0 .d0 else s0
  if (s1.stream .d1).port = some p then streamLinkLoss s1 .d1 else s1

end Sys2Proof.Machine
end

