-- ==== Sys2Proof/Machine/RestoreOps.lean ====
section
/-! DEFINITION. The restore resolver's shared operations (chapter 7): positioning, reading ahead, offering and handing, what a
DATA or a failed read does, endings and what they abandon. -/

namespace Sys2Proof.Machine

def addStaged (s : State) (b : Bay) (e : Staged) : State := s.modRestore b fun r => { r with staged := r.staged ++ [e] }
def modStaged (s : State) (b : Bay) (block : Nat) (f : Staged → Staged) : State :=
  s.modRestore b fun r => { r with staged := r.staged.map fun e => if e.block = block then f e else e }
def dropStaged (s : State) (b : Bay) (block : Nat) : State :=
  s.modRestore b fun r => { r with staged := r.staged.filter fun e => e.block ≠ block }

def releaseOpt (s : State) (id : Option Nat) : State :=
  match id with
  | some n => releaseDesc s n
  | none => s

/-! ### Runs left behind (log entry 31) -/

/-- The run has a staged entry of descriptor `id`. -/
def RestoreRun.stages (r : RestoreRun) (id : Option Nat) : Bool := r.staged.any fun e => e.desc = id && e.desc.isSome

/-- f done for the k-th restore run that bay b left behind, as for the bay's run. -/
def onLeftRestore (s : State) (b : Bay) (k : Nat) (f : State → State) : State :=
  match (s.restores.get b).left[k]? with
  | some r =>
    let t := f (s.setRestore b (some r))
    t.setRestoreRuns b ⟨s.restore b, (s.restores.get b).left.set k ((t.restore b).getD r)⟩
  | none => s

/-- f done for the restore run of bay b that stages descriptor `id`: the bay's run, or one it left behind. -/
def onRunOf (s : State) (b : Bay) (id : Option Nat) (f : State → State) : State :=
  if (s.restore b).any fun r => r.stages id then f s
  else match (s.restores.get b).left.findIdx? fun r => r.stages id with
    | some k => onLeftRestore s b k f
    | none => f s

/-- f done for every restore run left behind at bay b that meets g, oldest first. -/
def onLeftRestores (s : State) (b : Bay) (g : RestoreRun → Bool) (f : State → State) : State :=
  (List.range (s.restores.get b).left.length).foldl (fun t k =>
    if ((t.restores.get b).left[k]?).any g then onLeftRestore t b k f else t) s

/-! ### Giving work up (R137, R152) -/

/-- A descriptor whose item, if it has one, is abandoned: on offer, both go at once; in hand, the units go at its completion. -/
def giveUpDesc (s : State) (b : Bay) (id : Nat) : State :=
  if s.engineHolds id then abandonInHand s id
  else releaseDesc (withdrawItem s b id) id

/-- A staged entry abandoned: its allocation cancelled, its item abandoned, its units released, and it leaves the list. -/
def giveUpStaged (b : Bay) (s : State) (e : Staged) : State :=
  let s1 := dropStaged s b e.block
  match e.desc with
  | some id => giveUpDesc s1 b id
  | none => onBuffer s1 fun v u => u.cancelRead v b

/-- The entries of the run that meet `f`, by ascending block: the order in which their units go back (log entry 65). -/
def giveUpStagedIf (s : State) (b : Bay) (f : Staged → Bool) : State :=
  match s.restore b with
  | some r => (r.staged.filter f).foldl (giveUpStaged b) s
  | none => s

/-- The index block of a run that ends: one whose READ is outstanding is kept until the reply (R154). -/
def giveUpIndex (s : State) (b : Bay) : State :=
  match (s.restore b).bind (·.index) with
  | some x =>
    if x.stage = .reading then s
    else
      let s1 := s.modRestore b fun r => { r with index := none }
      match x.desc with
      | some id => giveUpDesc s1 b id
      | none => onBuffer s1 fun v u => u.cancelRead v b
  | none => s

/-! ### Endings (R152) -/

def isReadFailure (c : ReplyCode) : Bool :=
  c = .checkError || c = .formatError || c = .readFault || c = .badIndex || c = .notFound || c = .beyondData

/-- An entry whose block is ready for delivery, or beyond. -/
def Staged.past (e : Staged) : Bool := e.stage = .ready || e.stage = .sending

/-- Whether a new ending displaces the one already taken. A DRIVE FAULT counts as beyond every block (log entry 21). -/
def displaces (r : RestoreRun) (old : Ending) (code : ReplyCode) (block : Option Nat) : Bool :=
  if isReadFailure code then
    match old.block, block with
    | some m, some n => decide (n < m)
    | none, _ => old.code = .driveFault
    | some _, none => false
  else if code = .driveFault then
    (old.code = .done || old.code = .mark || old.code = .endOfData) && !(r.staged.all Staged.past)
  else false

/-- Take an ending: unless it leaves the present one standing, it is recorded, the run goes to ENDING, and the staged entries
above its block are abandoned; a READ already issued is awaited (R153). -/
def takeEnding (s : State) (b : Bay) (code : ReplyCode) (block : Option Nat) : State :=
  match s.restore b with
  | some r =>
    if (match r.ending with
        | some o => displaces r o code block
        | none => true) then
      giveUpStagedIf (s.modRestore b fun r => { r with phase := .ending, ending := some ⟨code, block⟩ }) b fun e =>
        e.stage ≠ .reading && (match block with
          | some n => decide (n < e.block)
          | none => false)
    else s
  | none => s

/-- A failure at a block reported to the volume table (R27). -/
def reportFailure (s : State) (l : Label) (block : Nat) : State := modVolume s l fun v => v.failed block

/-! ### Reading ahead (R147) -/

/-- A READ is outstanding at the bay. -/
def Drive.readOutstanding (d : Drive) : Bool :=
  match d.order with
  | some (.read _) => true
  | _ => false

/-- "no READ allocation of the run is waiting or being filled, and no READ is outstanding at the bay for it": another order of the bay,
the UNTHREAD of an UNLOAD accepted before (log entry 16), keeps no allocation from being made. -/
def State.noReadHere (s : State) (b : Bay) : Bool := (s.buffer.readAlloc b).isNone && !(s.drive b).readOutstanding

/-- The conditions of R147. -/
def wantsRead (s : State) (b : Bay) (r : RestoreRun) : Bool :=
  r.phase = .reading && r.ending.isNone && s.noReadHere b && decide (r.staged.length < Config.maxStaged)
    && decide (r.blocksRead < r.count) && decide (r.next < r.eod) && !(r.stopAtMark && r.markRead)

/-- A READ allocation for the next block, a new entry in stage RESERVING at the tail of the staged list. -/
def askNext (s : State) (b : Bay) : State :=
  match s.restore b with
  | some r =>
    if wantsRead s b r then
      onBuffer (addStaged s b ⟨r.next, none, .reserving, none, false, false⟩) fun v u => u.askRead v r.port b
    else s
  | none => s

/-! ### Offering and handing (R148, R151) -/

/-- The first entry in EXPANDING whose item has not been offered, offered if its allocation is complete and the place is empty. -/
def offerStaged (s : State) (b : Bay) : State :=
  match s.restore b with
  | some r =>
    match r.staged.find? fun e => e.stage = .expanding && !e.offered with
    | some e =>
      match e.desc, e.header with
      | some id, some h =>
        if e.rawReady && (s.offered b).isNone then
          modStaged (offerItem s ⟨b, .deliver, id, h, false⟩) b e.block fun e => { e with offered := true }
        else s
      | _, _ => s
    | none => s
  | none => s

/-- What the bay's runs may offer, those left behind first: "each when the offer place is empty" (R148). -/
def offerDue (s : State) (b : Bay) : State := offerStaged (onLeftRestores s b (fun _ => true) fun t => offerStaged t b) b

/-- The data frame of an entry (R151, section 10.2). -/
def frameOf (u : Buffer) (b : Bay) (e : Staged) : DataFrame :=
  match e.header with
  | some h =>
    let d := e.desc.bind u.desc
    ⟨b, e.desc, e.block, false, h.kind, if h.form = 1 then (d.map (·.rawData)).getD [] else (d.map (·.data)).getD []⟩
  | none => ⟨b, e.desc, e.block, true, 0, []⟩

/-- READY entries handed from the head, each "when the entry before it has been handed". -/
def handFrom (u : Buffer) (b : Bay) : List Staged → List Staged × List DataFrame
  | [] => ([], [])
  | e :: rest =>
    match e.stage with
    | .sending => (e :: (handFrom u b rest).1, (handFrom u b rest).2)
    | .ready => ({ e with stage := .sending } :: (handFrom u b rest).1, frameOf u b e :: (handFrom u b rest).2)
    | _ => (e :: rest, [])

def handReady (s : State) (b : Bay) : State :=
  match s.restore b with
  | some r =>
    let x := handFrom s.buffer b r.staged
    queueFrames (s.setRestore b (some { r with staged := x.1 })) r.port x.2
  | none => s

/-- What the run does after each event that may let it go on. -/
def restoreAdvance (s : State) (b : Bay) : State := handReady (offerStaged (askNext s b) b) b

/-! ### Positioning (R146) -/

def Address.indirect : Address → Option Nat
  | .indirectBlock _ e => some e
  | .indirectSet _ _ e => some e
  | _ => none

/-- The block is reported: INDEX for an index block, with its READ allocation, or READING. -/
def restoreArrived (s : State) (b : Bay) : State :=
  match s.restore b with
  | some r =>
    if r.phase ≠ .positioning then s
    else if r.address.indirect.isSome && r.start.isNone then
      onBuffer (s.modRestore b fun r => { r with phase := .index, index := some ⟨r.target, none, .reserving⟩ }) fun v u =>
        u.askRead v r.port b
    else restoreAdvance (s.modRestore b fun r => { r with phase := .reading, next := r.target }) b
  | none => s

/-- The run asks its bay to position at its target, "without need of the frame count". LOCATE is issued from IDLE (Table 3-2): a bay
that an UNLOAD has taken meanwhile issues none (log entry 16). -/
def restorePosition (s : State) (b : Bay) : State :=
  match s.restore b with
  | some r => if (s.drive b).standsAt r.target false then restoreArrived s b
    else if (s.drive b).state = .idle then issueLocate s b r.target else s
  | none => s

/-! ### Replies (R144, R148, R149) -/

def unitsFor (bytes : Nat) : Nat := ceilDiv bytes Config.unitBytes

/-- DATA for the index block (R144). -/
def indexData (s : State) (b : Bay) (r : RestoreRun) (x : IndexRead) (h : TapeHeader) (stored : List Byte) : State :=
  let gone := fun t : State => releaseOpt (t.modRestore b fun r => { r with index := none }) x.desc
  if r.ending.isSome then gone s
  else if h.kind ≠ kindIndex then takeEnding (gone s) b .badIndex (some x.block)
  else
    match x.desc with
    | some id =>
      let s1 := trimDesc (placeBytes s id stored) id (unitsFor stored.length)
      if headerPasses h then
        offerItem (s1.modRestore b fun r => { r with index := some { x with stage := .expanding } })
          ⟨b, .checkIndex (r.address.indirect.getD 0), id, h, false⟩
      else takeEnding (gone (reportFailure s1 r.volume x.block)) b .formatError (some x.block)
    | none => s

/-- The ending a block read may bring: MARK, DONE or END OF DATA (R152). -/
def endingAfter (s : State) (b : Bay) (block : Nat) (mark : Bool) : State :=
  match s.restore b with
  | some r =>
    if mark && r.stopAtMark then takeEnding s b .mark (some block)
    else if r.count ≤ r.blocksRead then takeEnding s b .done (some r.next)
    else if r.eod ≤ r.next then takeEnding s b .endOfData (some r.eod)
    else s
  | none => s

/-- DATA for a READING entry of a run that goes on (R148). -/
def stagedData (s : State) (b : Bay) (r : RestoreRun) (e : Staged) (id : Nat) (h : TapeHeader) (stored : List Byte) : State :=
  let mark := h.kind = kindMark
  let s1 := s.modRestore b fun r =>
    { r with blocksRead := r.blocksRead + 1, next := e.block + 1, markRead := r.markRead || mark }
  if mark then
    restoreAdvance (endingAfter (modStaged (trimDesc s1 id 0) b e.block fun e => { e with stage := .ready }) b e.block true) b
  else
    let s2 := trimDesc (placeBytes s1 id stored) id (unitsFor stored.length)
    if headerPasses h then
      let s3 := modStaged s2 b e.block fun e => { e with stage := .expanding, header := some h, rawReady := h.form ≠ 1 }
      let s4 := if h.form = 1 then onBuffer s3 fun v u => u.askExpand v r.port b id (unitsFor h.rawLen.toNat) else s3
      restoreAdvance (endingAfter s4 b e.block false) b
    else
      let s3 := releaseDesc (dropStaged (reportFailure s2 r.volume e.block) b e.block) id
      restoreAdvance (takeEnding (endingAfter s3 b e.block false) b .formatError (some e.block)) b

/-- DATA for a restore run: its index block, its READING entry, or a block awaited after an ending, "released unused" and not counted as
read (log entry 63). -/
def restoreData (s : State) (b : Bay) (h : TapeHeader) (stored : List Byte) : State :=
  match s.restore b with
  | some r =>
    match r.index with
    | some x => if x.stage = .reading then indexData s b r x h stored else s
    | none =>
      match r.staged.find? fun e => e.stage = .reading with
      | some e =>
        match e.desc with
        | some id =>
          if r.ending.isSome then releaseDesc (dropStaged s b e.block) id
          else stagedData s b r e id h stored
        | none => s
      | none => s
  | none => s

/-- A READ answered READ-FAULT or BLANK at `block` (R144, R149). -/
def restoreReadFailed (s : State) (b : Bay) (block : Nat) : State :=
  match s.restore b with
  | some r =>
    match r.index with
    | some x =>
      takeEnding (releaseOpt (s.modRestore b fun r => { r with index := none }) x.desc) b .readFault (some x.block)
    | none =>
      match r.staged.find? fun e => e.stage = .reading with
      | some e => takeEnding (releaseOpt (dropStaged s b e.block) e.desc) b .readFault (some block)
      | none => s
  | none => s

/-- The bay goes to FAULTED or OFFLINE: "The entry in READING or RESERVING is released, and the ending DRIVE FAULT is taken" (R149). -/
def restoreDriveFault (s : State) (b : Bay) : State :=
  let s1 := giveUpStagedIf s b fun e => e.stage = .reading || e.stage = .reserving
  let s2 := giveUpIndex (s1.modRestore b fun r =>
    { r with index := r.index.map fun x => if x.stage = .reading then { x with stage := .reserving } else x }) b
  takeEnding s2 b .driveFault none

/-! ### ABORT and link loss (R154, R155) -/

/-- An entry's frame, which the port has not begun to send. -/
def DataFrame.isOf (f : DataFrame) (b : Bay) (e : Staged) : Bool := f.bay = b && f.block = e.block && f.desc = e.desc
def PortCtl.waits (c : PortCtl) (b : Bay) (e : Staged) : Bool := c.frames.any fun f => f.isOf b e

/-- Unbegun frames of the run withdrawn, their entries released without delivery. -/
def withdrawFrames (s : State) (b : Bay) (p : Port) : State :=
  let c := s.port p
  let mine := ((s.restore b).map (·.staged)).getD []
  let s1 := giveUpStagedIf s b fun e => e.stage = .sending && c.waits b e
  s1.modPort p fun c => { c with frames := c.frames.filter fun f => !(mine.any fun e => f.isOf b e) }

/-- R154: the run ends ABORTED unless it has an ending; what is not yet SENDING is abandoned and unbegun frames withdrawn. -/
def restoreAbort (s : State) (b : Bay) : State :=
  match s.restore b with
  | some r =>
    let s1 := s.modRestore b fun r => { r with phase := .ending, ending := some (r.ending.getD ⟨.aborted, none⟩) }
    let s2 := giveUpStagedIf s1 b fun e => e.stage ≠ .reading && e.stage ≠ .sending
    withdrawFrames (giveUpIndex s2 b) b r.port
  | none => s

/-- R155: as an ABORT, with the ending ABORTED whatever was taken, no reply, and every frame of the run lost. The port's waiting ABORTs
have gone already (`portRestoresLoss`); one of another port waits on (log entry 16). -/
def restoreLinkLoss (s : State) (b : Bay) : State :=
  let s1 := s.modRestore b fun r => { r with tag := none, ending := some ⟨.aborted, none⟩, phase := .ending }
  giveUpStagedIf (restoreAbort s1 b) b fun e => e.stage = .sending

/-- A bay's runs that are port p's, the ones left behind with the rest. -/
def bayRestoresLoss (p : Port) (s : State) (b : Bay) : State :=
  onLeftRestores (if (s.restore b).any fun r => r.port = p then restoreLinkLoss s b else s) b (fun r => r.port = p) fun t =>
    restoreLinkLoss t b

/-- The waiting ABORTs that port p did not send. -/
def abortsBut (p : Port) (as : List RunAbort) : List RunAbort := as.filter fun a => a.port ≠ p

/-- The ABORTs of port p that wait at a restore run of the bay dropped, whosever the run is (log entry 16). -/
def dropRestoreAborts (s : State) (p : Port) (b : Bay) : State :=
  let f := fun r : RestoreRun => { r with aborts := abortsBut p r.aborts }
  s.setRestoreRuns b ⟨(s.restore b).map f, (s.restores.get b).left.map f⟩

/-- The ABORTs that port p has waiting at a restore run are dropped; then both bays' runs that are port p's. -/
def portRestoresLoss (s : State) (p : Port) : State :=
  bayRestoresLoss p (bayRestoresLoss p (dropRestoreAborts (dropRestoreAborts s p .d0) p .d1) .d0) .d1

/-! ### Delivery and the close (R151, R153) -/

/-- A data frame fully sent: units and descriptor released, counted, the continuation block set after it (R73). -/
def recordDelivered (s : State) (b : Bay) (block : Nat) (id : Option Nat) : State :=
  match s.restore b with
  | some r =>
    match r.staged.find? fun e => e.block = block && e.desc = id && e.stage = .sending with
    | some e =>
      let s1 := releaseOpt (dropStaged s b block) e.desc
      let s2 := s1.modRestore b fun r => { r with delivered := r.delivered + 1 }
      restoreAdvance (s2.modDrive b fun d => { d with continuation := some (block + 1) }) b
    | none => s
  | none => s

/-- A LOCATE or READ outstanding at the bay. -/
def Drive.runOrder (d : Drive) : Bool :=
  match d.order with
  | some (.locate _) => true
  | some (.read _) => true
  | _ => false

/-- The items of a restore run. -/
def ItemKind.ofRestore : ItemKind → Bool
  | .deliver => true
  | .checkIndex _ => true
  | _ => false

/-- The conditions of R153. An abandoned item of another run of the bay holds the close up too (log entry 31). -/
def restoreCloses (s : State) (b : Bay) (r : RestoreRun) : Bool :=
  r.ending.isSome && !(s.drive b).runOrder && r.staged.isEmpty && r.index.isNone
    && !((s.itemsOf b).any fun i => i.kind.ofRestore && !((s.restores.get b).left.any fun q => q.stages (some i.desc)))
    && (s.buffer.readAlloc b).isNone

/-- The same for a run left behind: it orders nothing of the drive, and an item of a run of the bay that was given up is awaited, whose it
was (log entry 31). -/
def leftRestoreCloses (s : State) (b : Bay) (r : RestoreRun) : Bool :=
  r.ending.isSome && r.staged.isEmpty && !((s.itemsOf b).any fun i => i.kind.ofRestore && i.abandoned)

def clearRunActivity (s : State) (b : Bay) : State :=
  s.modDrive b fun d => match d.activity with
    | .restore _ => { d with activity := .none }
    | .verify _ => { d with activity := .none }
    | _ => d

/-- Each waiting ABORT answered DONE, to the port that sent it, in the order in which they came (log entry 75). -/
def answerAborts (s : State) (as : List RunAbort) : State := as.foldl (fun t a => answer t a.port a.tag .abort .done) s

/-- The READ-RECORDS reply, then the answer to each waiting ABORT (R153). -/
def answerRestore (s : State) (b : Bay) (r : RestoreRun) : State :=
  let e := r.ending.getD ⟨.done, none⟩
  answerAborts (answerHeld s r.port r.tag .readRecords e.code (.read b r.start r.delivered e.block) r.clamped) r.aborts

/-- The close of R153. -/
def closeRestore (s : State) (b : Bay) (r : RestoreRun) : State := answerRestore (clearRunActivity (s.setRestore b none) b) b r

end Sys2Proof.Machine
end

