-- ==== Sys2Proof/Machine/VerifyOps.lean ====
section
/-! DEFINITION. The verify controller's shared operations (chapter 8). -/

namespace Sys2Proof.Machine

def verifyEnds (s : State) (b : Bay) (code : ReplyCode) (block : Option Nat) : State :=
  s.modVerify b fun r => { r with phase := .ending, ending := some (r.ending.getD ⟨code, block⟩) }

/-- The run returns to RESERVING and asks for the whole reserve (R160, R88). -/
def verifyReserve (s : State) (b : Bay) : State :=
  onBuffer (s.modVerify b fun r => { r with phase := .reserving }) fun _ u => u.askReserve b

/-- The block in hand's units and descriptor back to the reserve, the block in hand cleared. -/
def verifyRelease (s : State) (b : Bay) : State :=
  match s.verifyRun b with
  | some r =>
    let s1 := s.modVerify b fun r => { r with inHand := none }
    match r.inHand with
    | some x => releaseDesc s1 x.2
    | none => s1
  | none => s

/-- The outcome at the limit block (R158). -/
def limitOutcome (r : VerifyRun) : ReplyCode :=
  match r.form with
  | .range a n => if a + n ≤ r.eod then .done else .endOfData
  | _ => .done

/-- R162: the block's result reported, its reserve released, and the run's next phase. A drive fault met while CHECKING
ends the run after its result, unless the result is a failure (R164). -/
def verifyResult (s : State) (b : Bay) (r : VerifyRun) (block : Nat) (res : CheckResult) : State :=
  let s1 := verifyRelease (s.modVerify b fun r => { r with checked := r.checked + 1 }) b
  match res with
  | .good =>
    let s2 := modVolume s1 r.volume fun v => v.passed block
    if r.driveFailed then verifyEnds s2 b .driveFault none
    else if block + 1 = r.limit then verifyEnds s2 b (limitOutcome r) (some r.limit)
    else verifyReserve s2 b
  | .checkError => verifyEnds (modVolume s1 r.volume fun v => v.failed block) b .checkError (some block)
  | .formatError => verifyEnds (modVolume s1 r.volume fun v => v.failed block) b .formatError (some block)

/-- The marks of the volume the run reads. -/
def marksOf (s : State) (l : Label) : List Nat := ((s.volume l).map (·.marks)).getD []

/-- R161: what is decided on DATA for block n, of descriptor `id`. -/
def verifyBlock (s : State) (b : Bay) (r : VerifyRun) (n id : Nat) (h : TapeHeader) (stored : List Byte) : State :=
  let known := (marksOf s r.volume).contains n
  let s1 := s.modVerify b fun r => { r with next := n + 1 }
  if h.kind = kindMark then verifyResult (trimDesc s1 id 0) b r n (if known then .good else .formatError)
  else if known then verifyResult (trimDesc s1 id 0) b r n .formatError
  else if h.kind = kindData || h.kind = kindIndex then
    let s2 := trimDesc (placeBytes s1 id stored) id (unitsFor stored.length)
    if headerPasses h then
      offerItem (s2.modVerify b fun r => { r with phase := .checking }) ⟨b, .checkVerify, id, h, false⟩
    else verifyResult s2 b r n .formatError
  else verifyResult (trimDesc s1 id 0) b r n .formatError

/-- DATA for a verify run; after an ending it is used for nothing but the bay's position (R166). -/
def verifyData (s : State) (b : Bay) (h : TapeHeader) (stored : List Byte) : State :=
  match s.verifyRun b with
  | some r =>
    match r.inHand with
    | some (n, id) =>
      if r.ending.isSome then verifyRelease s b
      else if r.phase = .reading then verifyBlock s b r n id h stored
      else s
    | none => s
  | none => s

/-- A READ answered READ-FAULT or BLANK at `block` (R160). -/
def verifyReadFailed (s : State) (b : Bay) (block : Nat) : State := verifyEnds (verifyRelease s b) b .readFault (some block)

/-- The bay goes to FAULTED or OFFLINE (R159, R160, R164). -/
def verifyDriveFault (s : State) (b : Bay) : State :=
  match s.verifyRun b with
  | some r =>
    if r.phase = .checking then s.modVerify b fun r => { r with driveFailed := true }
    else
      let s1 := if r.phase = .reading || (r.phase = .ending && !((r.inHand.map (·.2)).any s.engineHolds)) then verifyRelease s b else s
      verifyEnds (onBuffer s1 fun _ u => u.withdrawReserve b) b .driveFault none
  | none => s

/-- The block is reported: the run goes to RESERVING (R159). -/
def verifyArrived (s : State) (b : Bay) : State :=
  match s.verifyRun b with
  | some r => if r.phase = .positioning then verifyReserve s b else s
  | none => s

def verifyPosition (s : State) (b : Bay) : State :=
  match s.verifyRun b with
  | some r => if (s.drive b).standsAt r.start false then verifyArrived s b else issueLocate s b r.start
  | none => s

/-- R166 by phase: a request that waits is withdrawn; an item on offer goes with its block; one in hand is awaited. -/
def verifyAbort (s : State) (b : Bay) : State :=
  match s.verifyRun b with
  | some r =>
    let s1 := if r.phase = .reserving then onBuffer s fun _ u => u.withdrawReserve b else s
    let s2 := match r.phase, r.inHand with
      | .checking, some (_, id) =>
        if s.engineHolds id then abandonInHand s1 id else verifyRelease (withdrawItem s1 b id) b
      | _, _ => s1
    verifyEnds s2 b .aborted none
  | none => s

/-- R167: as an ABORT, ending ABORTED whatever was taken, and no reply. The port's waiting ABORTs have gone already
(`portVerifiesLoss`); one of another port waits on (log entry 16). -/
def verifyLinkLoss (s : State) (b : Bay) : State :=
  let s1 := verifyAbort (s.modVerify b fun r => { r with tag := none, ending := none }) b
  s1.modVerify b fun r => { r with ending := some ⟨.aborted, none⟩ }

/-- f done for the k-th verify run that bay b left behind, as for the bay's run (log entry 31). -/
def onLeftVerify (s : State) (b : Bay) (k : Nat) (f : State → State) : State :=
  match (s.verifies.get b).left[k]? with
  | some r =>
    let t := f (s.setVerify b (some r))
    t.setVerifyRuns b ⟨s.verifyRun b, (s.verifies.get b).left.set k ((t.verifyRun b).getD r)⟩
  | none => s

/-- The run has the block of descriptor `id` in hand. -/
def VerifyRun.checks (r : VerifyRun) (id : Nat) : Bool := r.inHand.any fun x => x.2 = id

/-- f done for the verify run of bay b that has descriptor `id` in hand: the bay's run, or one it left behind. -/
def onVerifyOf (s : State) (b : Bay) (id : Nat) (f : State → State) : State :=
  if (s.verifyRun b).any fun r => r.checks id then f s
  else match (s.verifies.get b).left.findIdx? fun r => r.checks id with
    | some k => onLeftVerify s b k f
    | none => f s

/-- A bay's verify runs that are port p's, the ones left behind with the rest. -/
def bayVerifiesLoss (p : Port) (s : State) (b : Bay) : State :=
  (List.range (s.verifies.get b).left.length).foldl (fun t k =>
      if ((t.verifies.get b).left[k]?).any fun r => r.port = p then onLeftVerify t b k fun u => verifyLinkLoss u b else t)
    (if (s.verifyRun b).any fun r => r.port = p then verifyLinkLoss s b else s)

/-- The ABORTs of port p that wait at a verify run of the bay dropped, whosever the run is (log entry 16). -/
def dropVerifyAborts (s : State) (p : Port) (b : Bay) : State :=
  let f := fun r : VerifyRun => { r with aborts := abortsBut p r.aborts }
  s.setVerifyRuns b ⟨(s.verifyRun b).map f, (s.verifies.get b).left.map f⟩

/-- The ABORTs that port p has waiting at a verify run are dropped; then both bays' runs that are port p's. -/
def portVerifiesLoss (s : State) (p : Port) : State :=
  bayVerifiesLoss p (bayVerifiesLoss p (dropVerifyAborts (dropVerifyAborts s p .d0) p .d1) .d0) .d1

/-- The conditions of R165. -/
def verifyCloses (s : State) (b : Bay) (r : VerifyRun) : Bool :=
  r.ending.isSome && !(s.drive b).runOrder && r.inHand.isNone
    && !((s.itemsOf b).any fun i => i.kind = .checkVerify && !((s.verifies.get b).left.any fun q => q.checks i.desc))
    && !s.buffer.verifyWaiting.contains b

/-- The same for a run left behind: its block in hand gone, its item has completed. -/
def leftVerifyCloses (r : VerifyRun) : Bool := r.ending.isSome && r.inHand.isNone

def VerifyForm.code : VerifyForm → Nat
  | .full => 0
  | .resume => 1
  | .range _ _ => 2

/-- The VERIFY reply, with the volume's verified-to and failure block "as they stand at the close", then the answer to each waiting
ABORT (R165). A volume whose record has gone by then gives 0 and no failure block (log entry 70). -/
def answerVerify (s : State) (b : Bay) (r : VerifyRun) : State :=
  let v := s.volume r.volume
  let e := r.ending.getD ⟨.done, none⟩
  answerAborts (answerHeld s r.port r.tag .verify e.code
    (.verify b r.form.code r.start r.checked e.block ((v.map (·.verifiedTo)).getD 0) (v.bind (·.failure)))) r.aborts

/-- The close of R165. -/
def closeVerify (s : State) (b : Bay) (r : VerifyRun) : State := answerVerify (clearRunActivity (s.setVerify b none) b) b r

end Sys2Proof.Machine
end

