-- ==== Sys2Proof/Machine/BufferEvents.lean ====
section
/-! DEFINITION. The credit manager's own steps: a READ or EXPAND allocation complete (R84, R144, R147, R148) and a verify
reservation met (R88, R160); and a frame fully sent (R151, R173, R176). -/

namespace Sys2Proof.Machine

/-! ### Allocations (R84) -/

/-- READ issued for the index block or the entry in RESERVING, the allocation's descriptor with it. The drive stands at that block, so the
order's block, which DATA is matched to, is the position's (R68). -/
def readIssued (s : State) (b : Bay) (r : RestoreRun) (id : Option Nat) : State :=
  let s1 := { s with buffer := s.buffer.dropRead b }
  match r.index with
  | some x =>
    (s1.modRestore b fun r => { r with index := some { x with desc := id, stage := .reading } }).modDrive b fun d =>
      d.issue (.read x.block) .reading
  | none =>
    match r.staged.find? fun e => e.stage = .reserving with
    | some e =>
      (modStaged s1 b e.block fun e => { e with desc := id, stage := .reading }).modDrive b fun d => d.issue (.read e.block) .reading
    | none => s

/-- The block whose READ allocation the run has asked for: the index block, or the entry in RESERVING. -/
def RestoreRun.readBlock (r : RestoreRun) : Option Nat :=
  match r.index with
  | some x => some x.block
  | none => (r.staged.find? fun e => e.stage = .reserving).map (·.block)

/-- The bay can take a READ of the block: no order outstanding, IDLE, and the drive at the block (R68, R144). -/
def Drive.readsAt (d : Drive) (block : Nat) : Bool := !d.owes && d.state = .idle && d.standsAt block false

/-- READ_ALLOCATION_COMPLETE (R84): the run asks the bay to READ "When the allocation is complete and the drive stands at" the block
(R144, R147). A drive that stands at another block is asked nothing (log entry 16). -/
def execReadAllocationComplete (b : Bay) (s : State) : Result :=
  match s.buffer.readAlloc b, s.restore b with
  | some a, some r =>
    if s.buffer.allocComplete a && r.ending.isNone && r.readBlock.any (s.drive b).readsAt then finish (readIssued s b r a.desc)
    else .next s
  | _, _ => .next s

/-- The entry of descriptor `id` may be offered: its allocation is complete. -/
def expandReady (b : Bay) (id : Option Nat) (s : State) : State :=
  restoreAdvance (s.modRestore b fun r =>
    { r with staged := r.staged.map fun e => if e.desc = id then { e with rawReady := true } else e }) b

/-- EXPAND_ALLOCATION_COMPLETE (R84): the entry may offer its EXPAND-DELIVER item (R148). -/
def execExpandAllocationComplete (b : Bay) (s : State) : Result :=
  match s.buffer.readyExpand b with
  | some a =>
    let s1 := { s with buffer := match a.desc with
      | some id => s.buffer.dropExpand id
      | none => s.buffer }
    finish (onRunOf s1 b a.desc (expandReady b a.desc))
  | none => .next s

/-! ### The internal reserve (R88) -/

/-- The reservation made: the block in hand recorded, READ issued (R160). -/
def reservationMet (s : State) (b : Bay) (r : VerifyRun) : State :=
  let id := s.buffer.freshId
  let s1 := onBuffer s fun _ u => (u.withdrawReserve b).takeReserve
  (s1.modVerify b fun r => { r with phase := .reading, inHand := some (r.next, id) }).modDrive b fun d =>
    d.issue (.read r.next) .reading

/-- VERIFY_RESERVATION_MET (R88): the request made first, when the reserve is whole. While its bay owes an order, is not IDLE or
stands at another block it is neither met nor withdrawn, and the other bay's request waits behind it (log entry 62). -/
def execVerifyReservationMet (s : State) : Result :=
  match s.buffer.verifyWaiting with
  | b :: _ =>
    match s.verifyRun b with
    | some r =>
      if s.buffer.reserveWhole && r.phase = .reserving && (s.drive b).readsAt r.next then
        finish (reservationMet s b r)
      else .next s
    | none => .next s
  | [] => .next s

/-! ### A frame sent (R176) -/

/-- What the frame's end does: a reply frees its tag (R173); a data frame is reported to its run (R151). -/
def frameEnded (s : State) (p : Port) : Frame → State
  | .control (.reply r) => if r.frees then s.modPort p fun c => c.freeTag r.tag else s
  | .control (.notice _) => s
  | .data d => onBuffer (onRunOf s d.bay d.desc fun t => recordDelivered t d.bay d.block d.desc) settle

/-- A COMMIT notice for an idle link (R111), whatever the state of the port's stream. -/
def idleCommit (s : State) (p : Port) (b : Bay) : State :=
  let c := s.stream b
  if c.port = some p && decide (0 < c.unreported) then commitNotice s b else s

/-- The idle report, to the credit manager (R83) and to the stream controller (R111): the COMMIT notice of D0's stream before that of
D1's (log entry 72). -/
def idleReport (s : State) (p : Port) : State := idleCommit (idleCommit (onBuffer s fun v u => refillIdle v p u) p .d0) p .d1

/-- FRAME_SENT (R176). -/
def execFrameSent (p : Port) (s : State) : Result :=
  match (s.port p).sending with
  | some f =>
    let s1 := frameEnded (s.modPort p fun c => { c with sending := none }) p f
    if (s1.port p).control.isEmpty && (s1.port p).frames.isEmpty then finish (idleReport s1 p) else finish s1
  | none => .next s

end Sys2Proof.Machine
end

