-- ==== Sys2Proof/Machine/MoveQueue.lean ====
section
/-! DEFINITION. The move queue (R33, R41, R50, R51): places and numbers, acceptance, completion, owed unloads and returns. -/

namespace Sys2Proof.Machine

/-! ### Places and numbers (R33) -/

def Requester.isPort (p : Port) : Requester → Bool
  | .port q _ => q = p
  | .internal => false

def Requester.isInternal : Requester → Bool
  | .internal => true
  | .port _ _ => false

/-- Entries that take a port place, and of one port. -/
def Picker.portEntries (k : Picker) : Nat := (k.queue.filter fun e => !e.requester.isInternal).length
def Picker.entriesOf (k : Picker) (p : Port) : List MoveEntry := k.queue.filter fun e => e.requester.isPort p
/-- Entries that take an internal place: RETURN and UNLOAD of the 716's own. -/
def Picker.internalEntries (k : Picker) : Nat := (k.queue.filter fun e => e.requester.isInternal && e.kind ≠ .recover).length

/-- "the next number that no entry in the queue holds". Fuel: one more than the queue can hold. -/
def freeNumber (q : List MoveEntry) : Nat → Nat → Nat
  | 0, n => n
  | fuel + 1, n => if q.any fun e => e.number = n then freeNumber q fuel ((n + 1) % 256) else n

def Phase.inHand : Phase → Bool
  | .run _ => true
  | .stopped _ => true
  | _ => false

/-- The entry in hand (R34); while STOPPED, the one that was. -/
def State.inHandMove (s : State) : Option MoveEntry := s.picker.queue.find? fun e => e.phase.inHand

def modEntry (s : State) (num : Nat) (f : MoveEntry → MoveEntry) : State :=
  s.modPicker fun k => { k with queue := k.queue.map fun e => if e.number = num then f e else e }

/-- An entry takes its number and claims its elements (R10, R28). -/
def acceptEntry (s : State) (q : Requester) (kind : MoveKind) (source : Nat) (dest : Option Nat) (expected : Option Label)
    (phase : Phase) : State :=
  let n := freeNumber s.picker.queue (s.picker.queue.length + 1) s.picker.nextMove
  let s1 := s.modPicker fun k =>
    { k with queue := k.queue ++ [⟨n, q, kind, source, dest, expected, phase, .outward, false⟩], nextMove := (n + 1) % 256 }
  let s2 := setClaim s1 source n
  match dest with
  | some d => setClaim s2 d n
  | none => s2

/-! ### Owed unloads and returns (R50) -/

/-- An internal UNLOAD for a bay marked unload-owed, when an internal place is free and no entry claims the bay. -/
def queueOwedUnload (s : State) (b : Bay) : State :=
  if s.picker.unloadOwed.get b && decide (s.picker.internalEntries < Config.internalPlaces) && !s.isClaimed (bayPea b) then
    acceptEntry s .internal .unload (bayPea b) none ((s.elemState (bayPea b)).bind (·.anyLabel)) .queued
  else s

/-- "Owed unloads go before any new RETURN, and D0 before D1". -/
def queueOwedUnloads (s : State) : State := queueOwedUnload (queueOwedUnload s .d0) .d1

/-- The bay marked unload-owed, and "at the marking itself" the owed unloads queued while a place is free. A bay that is marked already is
not marked anew: its UNLOAD waits for the next chance that R50 gives (log entry 17). -/
def markOwed (s : State) (b : Bay) : State :=
  if s.picker.unloadOwed.get b then s
  else queueOwedUnloads (s.modPicker fun k => { k with unloadOwed := k.unloadOwed.set b true })

/-- A RETURN for the volume of `l`, MISPLACED at `pea`, to the first slot its owner can use; none when there is no place,
no slot, or the source is claimed. -/
def queueReturn (s : State) (pea : Nat) (l : Label) (owner : Option Port) : State :=
  let s1 := queueOwedUnloads s
  match firstEmptySlot s1 owner with
  | some d =>
    if decide (s1.picker.internalEntries < Config.internalPlaces) && !s1.isClaimed pea then
      acceptEntry s1 .internal .ret pea (some d) (some l) .queued
    else s1
  | none => s1

/-! ### Released-bay lists (R178) -/

def PortCtl.leave (c : PortCtl) (b : Bay) : PortCtl := { c with released := c.released.filter fun x => x ≠ b }

/-- The bay leaves every port's released-bay list. -/
def leaveReleased (s : State) (b : Bay) : State :=
  ((s.modPort .p0 fun c => c.leave b).modPort .p1 fun c => c.leave b).modPort .p2 fun c => c.leave b

def dropClaim (s : State) (b : Bay) : State := s.modDrive b fun d => { d with claim := none }

def clearOwed (s : State) (b : Bay) : State := s.modPicker fun k => { k with unloadOwed := k.unloadOwed.set b false }

/-! ### Completion (R41) -/

def MoveKind.isLoad : MoveKind → Bool
  | .load => true
  | .scratchLoad => true
  | _ => false

def MoveKind.request : MoveKind → ReqKind
  | .move => .move
  | .load => .load
  | .unload => .unload
  | .scratchLoad => .loadScratch
  | .ret => .move
  | .recover => .recover

def removeEntry (s : State) (num : Nat) : State :=
  clearClaims (s.modPicker fun k => { k with queue := k.queue.filter fun e => e.number ≠ num }) num

/-- What a completion does to the drive's claim, the unload-owed mark and the released-bay lists (R41, R50, R71, R178). -/
def settleClaims (s : State) (e : MoveEntry) (code : ReplyCode) : State :=
  if e.kind.isLoad then
    match e.dest.bind peaBay with
    | some b => if code = .done || code = .driveFault then s else leaveReleased (dropClaim s b) b
    | none => s
  else if e.kind = .unload then
    match peaBay e.source with
    | some b =>
      if s.isEmptyElem (bayPea b) then clearOwed (leaveReleased (dropClaim s b) b) b
      else if code = .driveFault && e.requester.isInternal then clearOwed (leaveReleased s b) b
      else s
    | none => s
  else s

/-- The completion reply, to a port that still has the tag. Its LEA is 0 where the destination has none for the port under the map in
force (log entry 52). -/
def moveReply (s : State) (e : MoveEntry) (code : ReplyCode) : State :=
  match e.requester with
  | .port p tag =>
    answerHeld s p tag e.kind.request code
      (.move e.number (if code = .done then e.dest.bind (encodeLea s p) else none)
        (if e.kind = .scratchLoad then e.expected else none))
  | .internal => s

/-- The completion leaves a storage slot EMPTY (R41): its source, or a destination that the move gives up (log entry 67). -/
def leavesSlotEmpty (s : State) (e : MoveEntry) : Bool :=
  (isStorage e.source && s.isEmptyElem e.source) || (e.dest.any fun d => isStorage d && s.isEmptyElem d)

/-- R41: the move completes. -/
def completeMove (s : State) (e : MoveEntry) (code : ReplyCode) : State :=
  let s1 := moveReply (settleClaims (removeEntry s e.number) e code) e code
  if leavesSlotEmpty s1 e || (e.kind = .unload && code = .done) then queueOwedUnloads s1 else s1

/-! ### Link loss (R51) -/

/-- A QUEUED entry removed; the drive claim a LOAD or SCRATCH-LOAD took is dropped. -/
def withdrawEntry (s : State) (e : MoveEntry) : State :=
  let s1 := removeEntry s e.number
  if e.kind.isLoad then
    match e.dest.bind peaBay with
    | some b => dropClaim s1 b
    | none => s1
  else s1

/-- What a link loss does to the port's moves and waiting requests. A started entry keeps its place until it completes (log entry 55),
and its tag is gone (log entry 74). -/
def portMovesLoss (s : State) (p : Port) : State :=
  let s1 := ((s.picker.entriesOf p).filter fun e => e.phase = .queued).foldl withdrawEntry s
  s1.modPicker fun k =>
    { k with queue := k.queue.map fun e => if e.requester.isPort p then { e with requester := .port p none } else e,
             auditWaiting := k.auditWaiting.filter fun w => w.1 ≠ p,
             recoverWaiting := k.recoverWaiting.filter fun w => w.1 ≠ p }

/-- A started, uncompleted entry of port p that names bay b. -/
def startedNames (s : State) (p : Port) (b : Bay) : Bool :=
  s.picker.queue.any fun e =>
    e.requester.isPort p && e.phase ≠ .queued && (e.source = bayPea b || e.dest = some (bayPea b))

/-- A started, uncompleted LOAD or SCRATCH-LOAD of port p for bay b. -/
def startedLoad (s : State) (p : Port) (b : Bay) : Bool :=
  s.picker.queue.any fun e =>
    e.requester.isPort p && e.kind.isLoad && e.phase ≠ .queued && e.dest = some (bayPea b)

end Sys2Proof.Machine
end

