-- ==== Sys2Proof/Machine/AuditOps.lean ====
section
/-! DEFINITION. Audits (R22, R23, R47 to R49): reconciling what is found, the order of readings, the questions to the bays, and
the completion. -/

namespace Sys2Proof.Machine

/-- The audit-pending mark set for element `pea` (R37, R47). -/
def markPending (s : State) (pea : Nat) : State :=
  s.modPicker fun k =>
    { k with auditPending := true, audit := k.audit.map fun a => { a with markedFor := a.markedFor ++ [pea] } }

/-! ### Reconciling a cartridge found (R22) -/

def setLocation (s : State) (l : Label) (pea : Nat) : State :=
  modVolume s l fun v => { v with location := .element pea,
                                  home := if v.home.isNone && isStorage pea then some pea else v.home }

/-- The element at which a record stood loses it: "F's entry is set to UNKNOWN with label absent and a full audit is marked
pending. When the record was located at PICKER, the picker entry is set to UNKNOWN"; that the picker's
entry keeps no last-known label is log entry 60. -/
def vacate (s : State) (old : Location) (pea : Nat) : State :=
  match old with
  | .element f => if f = pea then s else markPending (setElem s f (.unknown none)) f
  | .picker => setElem s 0 (.unknown none)
  | _ => s

/-- Case 3: located "at another element that is non-empty and that the running audit has already read". -/
def standsElsewhere (s : State) (v : Volume) (pea : Nat) (readDone : List Nat) : Bool :=
  match v.location with
  | .element f => f ≠ pea && readDone.contains f && !s.isEmptyElem f
  | _ => false

/-- R22: a cartridge found at `pea` with the label read. `readDone`: what the running audit has read. -/
def reconcile (s : State) (pea : Nat) (read : Option Label) (readDone : List Nat) : State :=
  let s1 := displaceFrom s pea read
  match read with
  | none => setElem s1 pea (.full none .noLabel)
  | some l =>
    match s1.volume l with
    | none =>
      match createVolume s1.store.volumes l pea with
      | some vs => setElem (setVolumes s1 vs) pea (.full (some l) .normal)
      | none => setElem s1 pea (.full (some l) .unregistered)
    | some v =>
      if standsElsewhere s1 v pea readDone then setElem s1 pea (.full (some l) .duplicate)
      else
        let s2 := setLocation (vacate s1 v.location pea) l pea
        if s2.visibleToOwner v.owner pea || v.owner.isNone then setElem s2 pea (.full (some l) .normal)
        else queueReturn (setElem s2 pea (.full (some l) .misplaced)) pea l v.owner

/-- A slot that R49 notes: a mail slot whose label gets a record, or whose record stood OUTSIDE; or one that an audit stopped
before it could send its IMPORT had noted ("The full audit that later reads the mail slots sends it instead"). -/
def notable (s : State) (pea : Nat) (read : Option Label) : Bool :=
  isMail pea && (match read with
    | some l => match s.volume l with
      | some v => v.exportSeq.isSome || s.picker.owedImport.contains l
      | none => (createVolume (displaceFrom s pea read).store.volumes l pea).isSome
    | none => false)

/-- A bay that does not answer "is left UNKNOWN" (R47); a record located there loses its place. -/
def bayUnknown (s : State) (b : Bay) : State :=
  setElem (displaceFrom s (bayPea b) none) (bayPea b) (.unknown ((s.elemState (bayPea b)).bind (·.anyLabel)))

/-! ### Motions (R36) -/

/-- A motion command issued: the timer loaded with the motion limit. -/
def issueMotion (s : State) (m : Motion) (st : PickerState) : State :=
  s.modPicker fun k => { k with motion := some m, state := st, timer := .running (1000 * s.settings.motionLimit) }

/-- A report taken: the command is no longer outstanding, the timer stops. -/
def motionReported (s : State) : State := s.modPicker fun k => { k with motion := none, timer := .stopped }

/-! ### The end of an audit -/

/-- Every request of a list answered. -/
def answerAll (s : State) (kind : ReqKind) (code : ReplyCode) (ws : List (Port × Byte)) : State :=
  ws.foldl (fun t w => answer t w.1 w.2 kind code) s

/-- An audit stopped by a motion fault or by the service door sends no IMPORT: what it noted is owed (R49). -/
def oweImport (s : State) : State :=
  match s.picker.audit with
  | some a =>
    s.modPicker fun k => { k with owedImport := k.owedImport ++ a.noted.filterMap fun q => (s.elemState q).bind (·.anyLabel) }
  | none => s

/-- What stays owed when an audit completes: all of it, unless the audit read the mail slots. -/
def importOwed (owed : List Label) (a : AuditRun) : List Label := if a.readDone.any isMail then [] else owed

def importNotice (s : State) (a : AuditRun) : State :=
  if a.noted.isEmpty then s else queueNoticeAll s (.importSlots a.noted)

/-- R47: the full audit completes. A mark set for an element it read afterwards is cleared; another stays, one set for a bay among
them (log entry 47). Who waits by AUDIT is answered before who waits by RECOVER, and both before the IMPORT notice
(log entry 59). -/
def completeFull (s : State) (a : AuditRun) : State :=
  let ws := s.picker.auditWaiting
  let rs := s.picker.recoverWaiting
  let s1 := s.modPicker fun k =>
    { k with audit := none, state := .idle, motion := none, timer := .stopped, startupDue := false,
             auditPending := !a.markedFor.isEmpty, auditWaiting := [], recoverWaiting := [],
             owedImport := importOwed k.owedImport a }
  queueOwedUnloads (importNotice (answerAll (answerAll (setCondition s1 .ready) .audit .done ws) .recover .done rs) a)

/-- R49: the mail audit completes, with the IMPORT of what it noted, also when the mail door has opened again (log entry 66). -/
def completeMail (s : State) (a : AuditRun) : State :=
  let s1 := s.modPicker fun k =>
    { k with audit := none, state := .idle, motion := none, timer := .stopped, owedImport := importOwed k.owedImport a }
  queueOwedUnloads (importNotice s1 a)

/-! ### The questions to the bays (R47, R59) -/

/-- How a bay controller answers an audit. -/
inductive BayAnswer where
  | skipped
  | context (l : Option Label)
  | silent
  | query
  deriving DecidableEq, Repr

/-- "claimed by an entry in THREAD-WAIT or UNTHREAD-WAIT" (R47). -/
def bayWaits (s : State) (b : Bay) : Bool :=
  s.picker.queue.any fun e => (e.phase = .threadWait || e.phase = .unthreadWait)
    && (s.element (bayPea b)).any fun x => x.claim = some e.number

def bayAnswer (s : State) (b : Bay) (startup : Bool) : BayAnswer :=
  let d := s.drive b
  if bayWaits s b then .skipped
  else if d.order = some .query then .query
  else if d.owes || (!startup && d.state = .idle) then
    (if d.state = .threading || d.state = .unthreading then .skipped else .context d.volume)
  else if !startup && d.state = .offline then .silent
  else .query

/-- QUERY issued, unless one is outstanding already. -/
def issueQuery (s : State) (b : Bay) : State :=
  s.modDrive b fun d => if d.order = some .query then d else d.issue .query d.state

/-- Ask the bays in order; when none is left, the audit completes. -/
def askBays (a : AuditRun) : List Bay → State → State
  | [], s => completeFull s ((s.picker.audit).getD a)
  | b :: rest, s =>
    match bayAnswer s b a.startup with
    | .skipped => askBays a rest s
    | .context l => askBays a rest (reconcile s (bayPea b) l [])
    | .silent => askBays a rest (bayUnknown s b)
    | .query => issueQuery (s.modPicker fun k => { k with audit := k.audit.map fun a => { a with bays := rest, asking := some b } }) b

/-! ### Readings -/

/-- The slots still to read: the mail slots are passed over when the audit reaches them and the mail door is open (R46, R47). A
mail audit whose mail door opens again thus passes over what it has not read, and is complete (log entry 66). -/
def slotsLeft (s : State) (a : AuditRun) : List Nat := a.slots.dropWhile fun q => isMail q && s.mailOpen

/-- The next slot read, or the bays asked, or the audit complete. -/
def auditNext (s : State) : State :=
  match s.picker.audit with
  | some a =>
    match slotsLeft s a with
    | q :: rest =>
      issueMotion (s.modPicker fun k => { k with audit := some { a with slots := rest } }) (.reading q) .auditing
    | [] =>
      if a.full then askBays a a.bays (s.modPicker fun k => { k with audit := some { a with slots := [] }, state := .auditing })
      else completeMail s a
  | none => s

/-- R47: a full audit started. -/
def startFullAudit (s : State) : State :=
  let s1 := s.modPicker fun k =>
    { k with state := .auditing, auditPending := false, doorAudit := false,
             audit := some ⟨true, k.startupDue, storageSlots s.strap ++ mailSlots s.strap, [.d0, .d1], none, [], [], []⟩ }
  auditNext (setCondition s1 .auditing)

/-- R49: a mail audit started; "the library condition stays as it was". A move holding keeps its motion held. -/
def startMailAudit (s : State) : State :=
  auditNext (s.modPicker fun k =>
    { k with state := .auditing, mailAuditDue := false, audit := some ⟨false, false, mailSlots s.strap, [], none, [], [], []⟩ })

/-- One reading taken (R47). -/
def takeReading (s : State) (a : AuditRun) (pea : Nat) (r : Reading) : State :=
  let s1 := s.modPicker fun k =>
    { k with audit := some { a with readDone := a.readDone ++ [pea], markedFor := a.markedFor.filter fun q => q ≠ pea } }
  let note := fun (t : State) (read : Option Label) =>
    if notable s pea read then
      t.modPicker fun k =>
        { k with audit := k.audit.map fun x => { x with noted := x.noted ++ [pea] },
                 owedImport := k.owedImport.filter fun l => some l ≠ read }
    else t
  match r with
  | .label l => note (reconcile s1 pea (some l) a.readDone) (some l)
  | .noLabel => reconcile s1 pea none a.readDone
  | .empty => foundEmpty s1 pea true

/-- The bay an audit waits for has answered; the next is asked. -/
def bayAnswered (s : State) (b : Bay) : State :=
  match s.picker.audit with
  | some a =>
    if a.asking = some b then
      askBays a a.bays (s.modPicker fun k => { k with audit := some { a with asking := none } })
    else s
  | none => s

end Sys2Proof.Machine
end

