-- ==== Sys2Proof/Machine/PickerOps.lean ====
section
/-! DEFINITION. The picker at work (chapter 2): motions and holds, the phases of a move, faults and recovery, what the drive
replies mean to a move, and the order of work. -/

namespace Sys2Proof.Machine

def setPhase (s : State) (num : Nat) (ph : Phase) : State := modEntry s num fun e => { e with phase := ph }

/-! ### Motions and holds (R36, R46) -/

/-- The element a motion command aims at. -/
def Motion.target : Motion → Option Nat
  | .fetch q => some q
  | .putBack q _ => some q
  | .place q => some q
  | .reading q => some q
  | _ => none

/-- "While the mail door is open, the picker controller issues no motion command whose target is a mail slot": it is held, with
the timer stopped and the picker not IDLE. -/
def issueOrHold (s : State) (m : Motion) : State :=
  if s.mailOpen && (m.target.any isMail) then
    s.modPicker fun k => { k with motion := none, held := some m, state := .moving, timer := .stopped }
  else issueMotion s m .moving

/-- The picker ends the work in hand: it goes IDLE, or takes at once the full audit that a closed service door owes (R45). -/
def freePicker (s : State) : State :=
  if s.picker.doorAudit then startFullAudit s else s.modPicker fun k => { k with state := .idle }

/-- Where the cartridge in hand goes. -/
def MoveEntry.placeAt (e : MoveEntry) : Nat :=
  match e.leg with
  | .outward => e.dest.getD e.source
  | _ => e.source

/-- Where it was fetched from: for a cartridge coming back from a THREAD-FAULT, the bay (R42). -/
def MoveEntry.fetchedFrom (e : MoveEntry) : Nat :=
  match e.leg with
  | .threadReturn => e.dest.getD e.source
  | _ => e.source

def startCarry (s : State) (e : MoveEntry) : State := issueMotion (setPhase s e.number (.run .carry)) .carry .moving
def startPlace (s : State) (e : MoveEntry) : State := issueOrHold (setPhase s e.number (.run .place)) (.place e.placeAt)
def startFetch (s : State) (e : MoveEntry) (pea : Nat) : State := issueOrHold (setPhase s e.number (.run .fetch)) (.fetch pea)

/-! ### Faults (R42, R44) -/

/-- The recovery record of a gripped cartridge. -/
def recoveryOf (s : State) (pea : Nat) (l : Option Label) : Recovery :=
  ⟨pea, l, (l.bind s.volume).bind (·.owner)⟩

/-- What R42 writes at a fault: the gripped cartridge of the picker's entry, or the one of a put-back (R37); else the record
already held. -/
def faultRecord (s : State) : Option Recovery :=
  match s.picker.motion, s.inHandMove with
  | some (.putBack q read), _ => some (recoveryOf s q read)
  | _, some e =>
    match s.elemState 0 with
    | some (.full l _) => some (recoveryOf s e.fetchedFrom l)
    | _ => none
  | _, none =>
    match s.elemState 0 with
    | some (.full l _) => some (recoveryOf s ((s.picker.recovery.map (·.pea)).getD 0) l)
    | _ => none

/-- An audit in progress at a fault stops: the mark is set, and the ports awaiting a full audit receive MOTION FAULT, those that wait
by AUDIT first (log entry 59). -/
def stopAudit (s : State) : State :=
  match s.picker.audit with
  | some a =>
    let ws := s.picker.auditWaiting
    let rs := s.picker.recoverWaiting
    let s1 := (oweImport s).modPicker fun k =>
      { k with audit := none, auditPending := true, auditWaiting := if a.full then [] else k.auditWaiting,
               recoverWaiting := if a.full then [] else k.recoverWaiting }
    if a.full then answerAll (answerAll s1 .audit .motionFault ws) .recover .motionFault rs else s1
  | none => s

/-- The picker FAULTED and the condition HALTED(MOTION FAULT), with a recovery record or none (R38, R42). -/
def faultPicker (s : State) (r : Option Recovery) : State :=
  setCondition (s.modPicker fun k =>
    { k with state := .faulted, motion := none, held := none, timer := .stopped, doorAudit := false, recovery := r }) .motionFault

/-- R42: the first expiry outside recovery. After a homing that expired the start-up audit is due, and the audit-pending mark is clear
(log entry 56). -/
def firstFault (s : State) : State :=
  let s1 := stopAudit (faultPicker s (faultRecord s))
  match s.inHandMove with
  | some e => completeMove s1 e .motionFault
  | none => s1

/-- The bays whose mark a disabled picker clears leave the released-bay lists (R178). -/
def clearOwedMarks (s : State) : State :=
  let s1 := if s.picker.unloadOwed.d0 then leaveReleased s .d0 else s
  let s2 := if s.picker.unloadOwed.d1 then leaveReleased s1 .d1 else s1
  s2.modPicker fun k => { k with unloadOwed := .all false }

/-- R44: the picker DISABLED. RECOVER is answered, and then the port entries complete in queue order (log entry 75). -/
def disablePicker (s : State) : State :=
  let rs := s.picker.recoverWaiting
  let s1 := clearOwedMarks (setCondition (s.modPicker fun k =>
    { k with state := .disabled, motion := none, held := none, timer := .stopped, audit := none, doorAudit := false,
             recoverWaiting := [] }) .pickerDisabled)
  let s2 := answerAll s1 .recover .motionFault rs
  let s3 := (s.picker.queue.filter fun e => !e.requester.isInternal).foldl (fun t e => completeMove t e .motionFault) s2
  (s.picker.queue.filter fun e => e.requester.isInternal).foldl (fun t e => removeEntry t e.number) s3

/-! ### Recovery (R43) -/

/-- Whether the gripped cartridge names no volume: the picker's entry is FULL with condition NO LABEL, UNREGISTERED or DUPLICATE. -/
def gripsNoVolume (s : State) : Bool :=
  match s.elemState 0 with
  | some (.full l c) => (ElemState.full l c).namedLabel.isNone
  | _ => false

/-- The destination of a recovery: the source when it will do, else the first slot of the same search, "visible to the recorded
owner, or a slot of a SHARED magazine when the owner is NONE or the cartridge names no volume". -/
def recoveryDest (s : State) : Option Nat :=
  match s.picker.recovery with
  | some r =>
    if s.isEmptyElem r.pea && !s.isClaimed r.pea && !isBay r.pea then some r.pea
    else firstEmptySlot s (if gripsNoVolume s then none else r.owner)
  | none => firstEmptySlot s none

/-- The recovery's last motion has reported: the record discarded, the picker IDLE, the audit-pending mark set. -/
def recoveryDone (s : State) (e : MoveEntry) : State :=
  (removeEntry s e.number).modPicker fun k => { k with recovery := none, state := .idle, auditPending := true }

/-- An obstructed recovery: the next slot found by the same search takes the entry, or the picker is disabled. -/
def recoveryObstructed (s : State) (e : MoveEntry) (pea : Nat) : State :=
  let s1 := placeObstructed (clearClaims s e.number) pea
  match recoveryDest s1 with
  | some d =>
    let s2 := setClaim (setClaim (modEntry s1 e.number fun e => { e with dest := some d }) 0 e.number) d e.number
    startCarry s2 e
  | none => disablePicker s1

/-! ### Phase ends (R37, R38) -/

/-- A FETCH from `pea` reported: grip, then label (R37). The label expected is the one the source's entry held at acceptance (R9); of a
drive bay it is the one the bay's entry holds now (DESIGN CHOICE between R9 and R37, log entry 78). -/
def fetchReported (s : State) (e : MoveEntry) (pea : Nat) (gripped : Bool) (read : Option Label) : State :=
  let expected := if isBay pea then (s.elemState pea).bind (·.anyLabel) else e.expected
  if !gripped then
    freePicker (completeMove (markPending (setElem (foundEmpty s pea false) 0 .empty) pea) e .sourceEmpty)
  else if read ≠ expected then issueOrHold s (.putBack pea read)
  else startCarry (fetchTaken s pea read) e

/-- The element's claim given up: a RETURN that the put-back of its MISPLACED cartridge queues takes it over (log entry 25). -/
def freeClaim (s : State) (pea : Nat) : State := modElement s pea fun e => { e with claim := none }

/-- The put-back of R37 reported: the source reconciled with the label as read, the mark set, the picker EMPTY (Table 1-4), and the
move completed. -/
def putBackReported (s : State) (e : MoveEntry) (pea : Nat) (read : Option Label) : State :=
  let s1 := markPending (reconcile (freeClaim s pea) pea read []) pea
  freePicker (completeMove (setElem s1 0 .empty) e .labelChanged)

/-- THREAD issued for the cartridge placed (R57). -/
def startThread (s : State) (e : MoveEntry) (b : Bay) : State :=
  setPhase (s.modDrive b fun d =>
    ({ d with volume := (s.elemState (bayPea b)).bind (·.namedLabel) }).issue .thread .threading) e.number .threadWait

/-- An obstructed place on the way out: carried back to the source (R38). -/
def placeBlocked (s : State) (e : MoveEntry) (pea : Nat) : State :=
  startCarry (modEntry (markPending (placeObstructed s pea) pea) e.number fun e => { e with leg := .obstructed }) e

/-- The place back at the source obstructed too (R38). -/
def placeBlockedTwice (s : State) (e : MoveEntry) (pea : Nat) : State :=
  let s1 := markPending (placeObstructed s pea) pea
  completeMove (faultPicker s1 (some (recoveryOf s1 e.source ((s1.elemState 0).bind (·.label))))) e .destOccupied

/-- A PLACE at `pea` reported. -/
def placeReported (s : State) (e : MoveEntry) (pea : Nat) (obstructed : Bool) : State :=
  if e.kind = .recover then
    if obstructed then recoveryObstructed s e pea else recoveryDone (placeTaken s pea) e
  else match e.leg, obstructed with
    | .outward, false =>
      match e.kind.isLoad, peaBay pea with
      | true, some b => freePicker (startThread (placeTaken s pea) e b)
      | _, _ => freePicker (completeMove (placeTaken s pea) e .done)
    | .outward, true => placeBlocked s e pea
    | .obstructed, false => freePicker (completeMove (placeTaken s pea) e .destOccupied)
    | .threadReturn, false => freePicker (completeMove (placeTaken s pea) e .loadFault)
    | _, true => placeBlockedTwice s e pea

/-- A motion held at a mail slot goes on after the mail audit; a PLACE whose slot is FULL is obstructed without a motion (R46). -/
def resumeHeld (s : State) : State :=
  match s.picker.held, s.inHandMove with
  | some m, some e =>
    if s.mailOpen then s.modPicker fun k => { k with state := .moving }
    else
      let s1 := s.modPicker fun k => { k with held := none, state := .moving }
      match m with
      | .place q => if (s.elemState q).any (·.isFull) then placeReported s1 e q true else issueMotion s1 m .moving
      | _ => issueMotion s1 m .moving
  | _, _ => s

/-- A mail audit that ends gives a move holding its turn, unless the mail door was opened and closed again meanwhile: then the
mail slots are read once more. -/
def afterAudit (s : State) : State :=
  if s.picker.audit.isNone && s.picker.held.isSome then
    (if s.picker.mailAuditDue && !s.mailOpen then startMailAudit s else resumeHeld s)
  else s

/-! ### What the drive tells a move (R39, R40) -/

def threadWaiter (s : State) (b : Bay) : Option MoveEntry :=
  s.picker.queue.find? fun e => e.phase = .threadWait && e.dest = some (bayPea b) && !e.replied

def unthreadWaiter (s : State) (b : Bay) : Option MoveEntry :=
  s.picker.queue.find? fun e => e.phase = .unthreadWait && e.source = bayPea b && !e.replied

def setReplied (s : State) (e : MoveEntry) : State := modEntry s e.number fun e => { e with replied := true }

/-- THREAD-FAULT told to the picker controller: the entry waits for the picker (R39). -/
def threadFailed (s : State) (b : Bay) : State :=
  match threadWaiter s b with
  | some e => modEntry s e.number fun e => { e with replied := true, leg := .threadReturn }
  | none => s

/-- EJECTED told to the picker controller: the destination used, or chosen and claimed, or NO SLOT (R40). -/
def unloadEjected (s : State) (e : MoveEntry) : State :=
  match e.dest with
  | some _ => setReplied s e
  | none =>
    match unloadDest s (s.elemVolume e.source) with
    | some d => setClaim (modEntry s e.number fun e => { e with replied := true, dest := some d }) d e.number
    | none => completeMove s e .noSlot

/-- A move waiting on a THREAD or UNTHREAD completes DRIVE FAULT (R39, R40, R69). -/
def moveDriveFault (s : State) (b : Bay) : State :=
  let s1 := match threadWaiter s b with
    | some e => completeMove s e .driveFault
    | none => s
  match unthreadWaiter s1 b with
  | some e => completeMove s1 e .driveFault
  | none => s1

/-! ### Starting a queued entry (R35, R58) -/

/-- The recheck of R35: the outcome of an entry that no longer passes. -/
def recheck (s : State) (e : MoveEntry) : Option ReplyCode :=
  firstRefusal
    [ (!(s.elemState e.source).any fun x => x.isFull && x.label = e.expected, .sourceChanged),
      (e.dest.any fun d => !s.isEmptyElem d, .destOccupied),
      (e.kind.isLoad && (e.dest.bind peaBay).any fun b => (s.drive b).state ≠ .empty, .driveBusy) ]

/-- An UNLOAD enters UNTHREAD-WAIT, and the bay acts according to its state (R58). A bay with an order outstanding, which R58 says an
unthread never meets, takes no UNTHREAD: DRIVE BUSY (log entry 16). -/
def startUnload (s : State) (e : MoveEntry) (b : Bay) : State :=
  let s1 := setPhase s e.number .unthreadWait
  let e1 := { e with phase := Phase.unthreadWait }
  let d := s.drive b
  if d.state = .empty then unloadEjected s1 e1
  else if d.state = .offline then completeMove s1 e1 .driveFault
  else if d.state = .faulted || d.state = .idle then
    s1.modDrive b fun d => d.issue (.unthread false) .unthreading
  else completeMove s1 e1 .driveBusy

def startEntry (s : State) (e : MoveEntry) : State :=
  match recheck s e with
  | some code => completeMove s e code
  | none =>
    match e.kind, peaBay e.source with
    | .unload, some b => startUnload s e b
    | _, _ => startFetch s e e.source

/-! ### The order of work (R34) -/

/-- "an entry that names a mail slot while the mail door is open is passed over". -/
def passedOver (s : State) (e : MoveEntry) : Bool := s.mailOpen && (isMail e.source || e.dest.any isMail)

def takeReplied (s : State) (e : MoveEntry) : State := startFetch s e (if e.kind = .unload then e.source else e.fetchedFrom)

/-- The next piece of work of an IDLE picker (R34). The full audit of a recovery comes here; a RECOVER that comes before it is taken goes
first (log entry 79). -/
def nextWork (s : State) : State :=
  let k := s.picker
  let faulted := k.condition = .motionFault
  match (if faulted then none else k.queue.find? fun e => e.replied) with
  | some e => takeReplied s e
  | none =>
    if k.mailAuditDue && !s.mailOpen && !faulted then afterAudit (startMailAudit s)
    else if k.auditPending then startFullAudit s
    else if k.condition ≠ .ready then s
    else
      match k.queue.find? fun e => e.phase = .queued && e.requester.isInternal && !passedOver s e with
      | some e => startEntry s e
      | none =>
        match k.queue.find? fun e => e.phase = .queued && !e.requester.isInternal && !passedOver s e with
        | some e => startEntry s e
        | none => s

/-- HALTED(SERVICE DOOR) and HALTED(PICKER DISABLED) take no new work (R34). -/
def mayTakeWork (s : State) : Bool :=
  s.picker.state = .idle && s.picker.condition ≠ .serviceDoor && s.picker.condition ≠ .pickerDisabled

end Sys2Proof.Machine
end

