-- ==== Sys2Proof/Machine/BayDown.lean ====
section
/-! DEFINITION. A bay going to FAULTED or OFFLINE (R69, R70), with what it tells each block whose work was cut short. -/

namespace Sys2Proof.Machine

/-- The activity's end: a stream faults (or its opening ends, R101), a run takes its ending. -/
def activityDown (s : State) (b : Bay) (a : Activity) : State :=
  match a with
  | .stream _ => streamFault s b .driveFault
  | .restore _ => restoreDriveFault s b
  | .verify _ => verifyDriveFault s b
  | .none => if (s.stream b).state = .opening then openingEnds s b .driveFault else s

/-- An audit's query answered as not answering (R59, R69). -/
def auditSilent (s : State) (b : Bay) : State :=
  if s.picker.audit.any fun a => a.asking = some b then afterAudit (bayAnswered (bayUnknown s b) b) else s

/-- R69 and R70: the bay goes to `st`. It does not go to FAULTED from OFFLINE. -/
def bayDown (s : State) (b : Bay) (st : DriveState) : State :=
  let a := (s.drive b).activity
  let s1 := s.modDrive b fun d => d.down st
  auditSilent (moveDriveFault (activityDown s1 b a) b) b

/-- A reply out of order (R55, R61, R63, R64, R68). -/
def orderBroken (s : State) (b : Bay) : State := if (s.drive b).state = .offline then s else bayDown s b .faulted

end Sys2Proof.Machine
end

