-- ==== Sys2Proof/Machine/DriveReplies.lean ====
section
/-! DEFINITION. The drives' replies and their silence (R55 to R70), with what each tells the picker, the volume table, the
stream or the run whose order it answers. A reply that matches no outstanding order is ignored (R55, R69, R70). -/

namespace Sys2Proof.Machine

/-! ### Threading and unthreading (R57, R58) -/

/-- The context of a bay whose cartridge is out of the drive: "The state goes to EMPTY, and the volume and position become absent" (R57).
THREAD-FAULT is not among the events of R73, and leaves the continuation block. -/
def Drive.emptied (d : Drive) : Drive := { d.answered .empty with volume := none, position := none }

/-- The context at an EJECTED reply, which makes the continuation block absent too (R58, R73). -/
def Drive.ejected (d : Drive) : Drive := { d.emptied with continuation := none }

/-- THREADED of a class the spec defines. -/
def threadedGood (s : State) (b : Bay) (cls : Nat) (wp : Bool) : State :=
  let s1 := modDriveVolume s b fun v => v.threaded cls wp
  let s2 := s1.modDrive b fun d => { d.answered .idle with position := some ⟨some 0, some 0⟩, continuation := none }
  match threadWaiter s2 b with
  | some e => completeMove s2 e .done
  | none => s2

/-- A class that is not supported: UNTHREAD at once. The tape is threaded until EJECTED, at block 0 and frame 0 (R60). -/
def threadedBad (s : State) (b : Bay) : State :=
  s.modDrive b fun d =>
    { (d.answered .empty).issue (.unthread true) .unthreading with position := some ⟨some 0, some 0⟩, continuation := none }

/-- The load failed: the hard error counted, the context as `f` leaves it, the picker controller told. -/
def loadFailed (s : State) (b : Bay) (f : Drive → Drive) : State :=
  threadFailed ((modDriveVolume s b Volume.hardError).modDrive b f) b

def supportedClass (cls : Nat) : Bool := decide (1 ≤ cls) && decide (cls ≤ 3)

/-- THREADED (R57, R24). -/
def execThreaded (b : Bay) (cls : Nat) (wp : Bool) (s : State) : Result :=
  if (s.drive b).order = some .thread then
    finish (if supportedClass cls then threadedGood s b cls wp else threadedBad s b)
  else .next s

/-- THREAD_FAULT (R57, R24). -/
def execThreadFault (b : Bay) (s : State) : Result :=
  if (s.drive b).order = some .thread then finish (loadFailed s b Drive.emptied) else .next s

/-- EJECTED of an UNLOAD: the entry that waits takes its destination (R40). -/
def unloadDone (s : State) (b : Bay) : State :=
  let s1 := s.modDrive b Drive.ejected
  match unthreadWaiter s1 b with
  | some e => unloadEjected s1 e
  | none => s1

/-- EJECTED (R58); after a class that is not supported it counts as THREAD-FAULT (R57). -/
def execEjected (b : Bay) (s : State) : Result :=
  match (s.drive b).order with
  | some (.unthread false) => finish (unloadDone s b)
  | some (.unthread true) => finish (loadFailed s b Drive.ejected)
  | _ => .next s

/-! ### STATUS (R59) -/

/-- The context as STATUS leaves it. -/
def Drive.fromStatus (d : Drive) (threaded : Bool) (cls : Nat) (l : Option Label) : Drive :=
  let e := d.answered d.state
  if !threaded then { e with state := .empty, volume := none, position := none }
  else { e with state := if d.state = .faulted || !supportedClass cls then .faulted else .idle,
                volume := l, position := some unknownPosition }

/-- The bay marked unload-owed at the start-up audit (R47, R50). -/
def owedAtStart (s : State) (b : Bay) : State := if s.picker.startupDue then markOwed s b else s

/-- A cartridge present: reconciled (R22), then the context set; the volume is the label "when the audit's reconciliation leaves
a record carrying it". -/
def statusPresent (s : State) (b : Bay) (l : Option Label) (threaded : Bool) (cls : Nat) (wp : Bool) : State :=
  let s1 := reconcile s (bayPea b) l []
  let s2 := owedAtStart (s1.modDrive b fun d => d.fromStatus threaded cls ((l.bind s1.volume).map (·.label))) b
  if threaded && supportedClass cls then modDriveVolume s2 b fun v => v.threaded cls wp else s2

/-- Nothing present: the bay found empty (R23). -/
def statusAbsent (s : State) (b : Bay) : State :=
  (foundEmpty s (bayPea b) true).modDrive b fun d => d.fromStatus false 0 none

/-- STATUS (R59). -/
def execStatus (b : Bay) (present : Bool) (label : Option Label) (threaded : Bool) (cls : Nat) (wp : Bool) (s : State) : Result :=
  if (s.drive b).order = some .query then
    finish (afterAudit (bayAnswered (if present then statusPresent s b label threaded cls wp else statusAbsent s b) b))
  else .next s

/-! ### LOCATED and BLANK (R61) -/

/-- What asked the bay to position is told. -/
def positionReported (s : State) (b : Bay) (frame : Nat) : State :=
  if (s.stream b).state = .opening then
    (if (s.stream b).abandoned then openingEnds s b .aborted else openingDone s b frame)
  else verifyArrived (restoreArrived s b) b

/-- LOCATED (R61, R60). -/
def execLocated (b : Bay) (block frame : Nat) (s : State) : Result :=
  match (s.drive b).order with
  | some (.locate a) =>
    if block ≠ a then finishCredit (orderBroken s b)
    else finishCredit (positionReported
      (s.modDrive b fun d => { d.answered .idle with position := some ⟨some block, some frame⟩ }) b frame)
  | _ => .next s

/-- BLANK to a LOCATE, as its asker takes it (R101, R146, R159). -/
def locateBlank (s : State) (b : Bay) (a : Nat) : State :=
  if (s.stream b).state = .opening then openingEnds s b .blank
  else if (s.restore b).isSome then takeEnding s b .readFault (some a)
  else verifyEnds s b .readFault (some a)

/-- A READ that brought no block (R149, R144, R160). -/
def readFailed (s : State) (b : Bay) (block : Nat) : State :=
  if (s.restore b).isSome then restoreReadFailed s b block else verifyReadFailed s b block

/-- BLANK (R61, R68): "The state goes to IDLE, the position is unchanged". -/
def execBlank (b : Bay) (s : State) : Result :=
  match (s.drive b).order with
  | some (.locate a) => finishCredit (locateBlank (s.modDrive b fun d => d.answered .idle) b a)
  | some (.read a) => finishCredit (readFailed (s.modDrive b fun d => d.answered .idle) b a)
  | _ => .next s

/-! ### Writes (R63 to R65, R110, R114) -/

/-- Where the block of a reply stands in the in-flight write list (R55). -/
inductive WriteMatch where
  | oldest (f : Flight) (later : List Flight)
  | later
  | absent
  deriving DecidableEq, Repr

def matchWrite (fs : List Flight) (block : Nat) : WriteMatch :=
  match fs with
  | [] => .absent
  | f :: rest => if f.block = block then .oldest f rest else if rest.any fun g => g.block = block then .later else .absent

/-- The commit in the stream context: totals, highest committed record, unreported count (R110). -/
def Stream.committed (c : Stream) (num raw stored : Nat) : Stream :=
  { c.dropRec num with rawTotal := addTotal c.rawTotal raw, storedTotal := addTotal c.storedTotal (stored + 32),
                       highestCommitted := some num, unreported := c.unreported + 1 }

/-- R110, steps 1 to 4, for the record r of the block. -/
def commitRecord (s : State) (b : Bay) (f : Flight) (r : Rec) : State :=
  let stored := (r.coded.map (·.storedLen)).getD 0
  let s1 := modDriveVolume s b fun v =>
    if f.isMark then v.committedMark f.block else v.committedData f.block f.frames r.rawLen stored
  (releaseDesc s1 r.desc).modStream b fun c => c.committed r.num r.rawLen stored

/-- The commit taken, the tests and the next offer (R63, R110). -/
def commitTaken (s : State) (b : Bay) (f : Flight) (later : List Flight) : State :=
  let s1 := s.modDrive b fun d => ({ d with inFlight := later }).afterWrite
  match (s1.stream b).records.find? fun r => r.num = f.record with
  | some r => offerBlocks (testSyncs (testCommitNotice (commitRecord s1 b f r) b) b) b
  | none => s1

/-- COMMITTED (R63, R110). -/
def execCommitted (b : Bay) (block : Nat) (s : State) : Result :=
  match matchWrite (s.drive b).inFlight block with
  | .oldest f later => finishCredit (commitTaken s b f later)
  | .later => finishCredit (orderBroken s b)
  | .absent => .next s

/-- R64 in the bay: the list emptied, the position at the faulted block. -/
def Drive.writeFault (d : Drive) (block later : Nat) : Drive :=
  ({ d with inFlight := [], position := d.position.map fun (q : Position) => q.faulted block later } : Drive).afterWrite

/-- The gap asked for and admitted, or medium end at record r (R65, R114). The report below the margin carries the record sent
last (log entry 27). -/
def askGap (s : State) (b : Bay) (r last : Nat) : State :=
  if Config.gapFrames ≤ s.remaining b then earlyWarning (s.modDrive b Drive.issueGap) b last else mediumEnd s b r

/-- The faulted record and the discarded ones back to STORED, and what the stream does (R114, R115, R117, R120). -/
def faultTaken (s : State) (b : Bay) (f : Flight) (later : List Flight) : State :=
  let s1 := (s.modDrive b fun d => d.writeFault f.block (later.map (·.frames)).sum).modStream b fun c =>
    { c with records := c.records.map fun r => if r.state = .inDrive then { r with state := .stored } else r }
  let s2 := modDriveVolume s1 b fun v => v.writeFaulted f.frames
  let c := s2.stream b
  if c.discard then testSyncs (giveUpRecords s2 b fun r => r.state = .stored) b
  else if c.records.any fun r => r.num = f.record && decide (Config.maxWrites ≤ r.writes) then streamFault s2 b .writeFault
  else if c.firstUnsent.isSome then mediumEnd s2 b f.record
  else askGap s2 b f.record ((later.getLast?.getD f).record)

/-- WRITE_FAULT (R64, R114). -/
def execWriteFault (b : Bay) (block : Nat) (s : State) : Result :=
  match matchWrite (s.drive b).inFlight block with
  | .oldest f later => finishCredit (faultTaken s b f later)
  | .later => finishCredit (orderBroken s b)
  | .absent => .next s

/-- GAP-DONE taken: the 64 frames to the volume, and the resends (R65, R114). -/
def gapTaken (s : State) (b : Bay) : State :=
  let s1 := s.modDrive b fun d => ({ d with gap := false }).afterWrite
  offerBlocks (modDriveVolume s1 b Volume.gapDone) b

/-- GAP_DONE (R65). -/
def execGapDone (b : Bay) (s : State) : Result := if (s.drive b).gap then finishCredit (gapTaken s b) else .next s

/-! ### Reads (R68) -/

/-- DATA taken: the position advances, its frame UNKNOWN, and the run has the block. -/
def dataTaken (s : State) (b : Bay) (block : Nat) (h : TapeHeader) (stored : List Byte) : State :=
  let s1 := s.modDrive b fun d => { d.answered .idle with position := some ⟨some (block + 1), none⟩ }
  if (s1.restore b).isSome then restoreData s1 b h stored else verifyData s1 b h stored

/-- A read fault at a block: the position UNKNOWN, and the run told. -/
def readFaulted (s : State) (b : Bay) (block : Nat) : State :=
  readFailed (s.modDrive b fun d => { d.answered .idle with position := some unknownPosition }) b block

/-- DATA (R68, R55). -/
def execData (b : Bay) (block : Nat) (header : TapeHeader) (stored : List Byte) (s : State) : Result :=
  match (s.drive b).order with
  | some (.read a) =>
    if block ≠ a then finishCredit (orderBroken s b)
    else if dataFits header stored then finishCredit (dataTaken s b block header stored)
    else finishCredit (readFaulted s b block)
  | _ => .next s

/-- READ_FAULT (R68). -/
def execReadFault (b : Bay) (block : Nat) (s : State) : Result :=
  match (s.drive b).order with
  | some (.read _) => finishCredit (readFaulted s b block)
  | _ => .next s

/-! ### Faults and silence (R69, R70) -/

/-- FAULT (R69): "A FAULT reply matches whatever order is outstanding" (R55). -/
def execFault (b : Bay) (s : State) : Result :=
  if (s.drive b).owes && (s.drive b).state ≠ .offline then finishCredit (bayDown s b .faulted) else .next s

/-- REPLY_TIMER_EXPIRY (R70). -/
def execReplyTimerExpiry (b : Bay) (s : State) : Result :=
  if (s.drive b).timer.isRunning then finishCredit (bayDown s b .offline) else .next s

end Sys2Proof.Machine
end

