-- ==== Sys2Proof/Machine/EngineEvents.lean ====
section
/-! DEFINITION. The codec engine's own steps: taking an item (R135) and the completions of the three kinds of item (R132 to R137),
with what the stream or run that offered it does (R108, R145, R150, R162). -/

namespace Sys2Proof.Machine

/-! ### Taking an item (R135) -/

/-- "When both places hold items, it takes the one of the bay other than the last-served bay." -/
def Engine.choose (e : Engine) : Option Item :=
  match e.offer.get e.lastServed.other with
  | some i => some i
  | none => e.offer.get e.lastServed

/-- The stored or raw bytes an item works on. -/
def itemBytes (s : State) (i : Item) : List Byte := ((s.buffer.desc i.desc).map (·.data)).getD []

/-- The working store while the item is in hand (R131 to R134): raw data, and of a token stream "never more than L bytes" (R126). -/
def Engine.load (e : Engine) (i : Item) (bytes : List Byte) : Engine :=
  match i.kind with
  | .shrink on => { e with workRaw := bytes, workTokens := if on then (tokenStream bytes).take bytes.length else [] }
  | _ =>
    if i.header.form = 1 then { e with workRaw := (expandRecord i.header bytes).1, workTokens := bytes }
    else { e with workRaw := bytes, workTokens := [] }

/-- "At each taking, the offer place is emptied, the item becomes the item in hand, and the last-served bay becomes the bay of the
item taken". -/
def takeItem (s : State) (i : Item) : State :=
  s.modEngine fun e =>
    { (e.load i (itemBytes s i)).vacate i.bay with inHand := some i, lastServed := i.bay }

/-- ENGINE_TAKE_ITEM (R135): what is due an offer place that is empty is offered, an item is taken, and the place it leaves is offered
again (R148). -/
def execEngineTakeItem (s : State) : Result :=
  if s.engine.inHand.isSome then .next s
  else
    let s1 := offerDue (offerDue s .d0) .d1
    match s1.engine.choose with
    | some i => finish (offerDue (takeItem s1 i) i.bay)
    | none => .next s

/-- The engine free again. -/
def engineFree (s : State) : State := s.modEngine fun e => { e with inHand := none }

/-! ### SHRINK (R132, R108) -/

/-- The record of a descriptor in a bay's stream. -/
def recordOf (s : State) (b : Bay) (id : Nat) : Option Rec := (s.stream b).records.find? fun r => r.desc = id

/-- An abandoned item's record: released, gone from the list, counted by a discard (R115, R117, R120, R137). -/
def shrinkDiscarded (s : State) (b : Bay) (r : Rec) : State :=
  testSyncs ((releaseDesc s r.desc).modStream b fun c =>
    { c.dropRec r.num with discarded := if c.discard then c.discarded + 1 else c.discarded }) b

/-- The record STORED in its own units, the surplus released, the next offers made (R79, R108, R109). -/
def shrinkStored (s : State) (b : Bay) (r : Rec) (x : Form × List Byte) : State :=
  let s1 := trimDesc (placeBytes s r.desc x.2) r.desc (unitsFor x.2.length)
  let s2 := s1.modStream b fun c => { c with records := c.records.map fun q =>
    if q.num = r.num then { q with state := .stored, coded := some ⟨x.1, x.2.length, checkWord s.engine.workRaw⟩ } else q }
  offerBlocks (offerEngine s2 b) b

def shrinkTaken (s : State) (i : Item) (on : Bool) : State :=
  match recordOf s i.bay i.desc with
  | some r =>
    if i.abandoned then shrinkDiscarded (engineFree s) i.bay r
    else shrinkStored (engineFree s) i.bay r (shrinkRecord on s.engine.workRaw)
  | none => releaseDesc (engineFree s) i.desc

/-- SHRINK_COMPLETE (R132). -/
def execShrinkComplete (s : State) : Result :=
  match s.engine.inHand with
  | some i => match i.kind with
    | .shrink on => finishCredit (shrinkTaken s i on)
    | _ => .next s
  | none => .next s

/-! ### EXPAND-DELIVER (R133, R150) -/

def CheckResult.code : CheckResult → ReplyCode
  | .good => .done
  | .checkError => .checkError
  | .formatError => .formatError

/-- GOOD: a SHRUNK record's stored units are released and its raw list holds it; the entry READY. -/
def deliverGood (s : State) (b : Bay) (e : Staged) (i : Item) (raw : List Byte) : State :=
  let s1 := if i.header.form = 1 then
      onBuffer s fun v u => (u.modDesc i.desc fun d => { d with rawData := raw }).dropStored v i.desc
    else s
  restoreAdvance (modStaged s1 b e.block fun e => { e with stage := .ready }) b

/-- A failure: reported, the entry released, the ending taken. -/
def deliverFailed (s : State) (b : Bay) (r : RestoreRun) (e : Staged) (i : Item) (code : ReplyCode) : State :=
  let s1 := dropStaged (releaseDesc (reportFailure s r.volume e.block) i.desc) b e.block
  restoreAdvance (takeEnding s1 b code (some e.block)) b

/-- The run and the entry an item belongs to, unless it was abandoned. -/
def stagedOf (s : State) (i : Item) : Option (RestoreRun × Staged) :=
  if i.abandoned then none
  else (s.restore i.bay).bind fun r => (r.staged.find? fun e => e.desc = some i.desc).map fun e => (r, e)

/-- The result x of an EXPAND-DELIVER item, for the bay's run. -/
def deliverResult (i : Item) (x : List Byte × CheckResult) (s : State) : State :=
  match stagedOf s i with
  | some (r, e) =>
    if x.2 = .good then deliverGood (engineFree s) i.bay e i x.1
    else deliverFailed (engineFree s) i.bay r e i x.2.code
  | none => releaseDesc (engineFree s) i.desc

def deliverTaken (s : State) (i : Item) : State :=
  onRunOf s i.bay (some i.desc) (deliverResult i (expandRecord i.header (itemBytes s i)))

/-- EXPAND_DELIVER_COMPLETE (R133, R150). -/
def execExpandDeliverComplete (s : State) : Result :=
  match s.engine.inHand with
  | some i => if i.kind = .deliver then finishCredit (deliverTaken s i) else .next s
  | none => .next s

/-! ### EXPAND-CHECK (R134, R145, R162) -/

/-- The result of an EXPAND-CHECK item of a verify pass, for the bay's run. A discarded result does not count as a block checked
(log entry 69). -/
def checkResult (i : Item) (res : CheckResult) (s : State) : State :=
  match s.verifyRun i.bay with
  | some r =>
    match r.inHand with
    | some (n, id) =>
      if id ≠ i.desc then releaseDesc s i.desc
      else if i.abandoned then verifyRelease s i.bay
      else verifyResult s i.bay r n res
    | none => releaseDesc s i.desc
  | none => releaseDesc s i.desc

/-- The item of a verify run's block in hand. -/
def verifyCheckTaken (s : State) (i : Item) (res : CheckResult) : State := onVerifyOf s i.bay i.desc (checkResult i res)

/-- R145 on a GOOD result: what entry `e` of the index record gives. -/
def indexResolved (s : State) (b : Bay) (r : RestoreRun) (x : IndexRead) (entry : Option Nat) : State :=
  match entry with
  | none => takeEnding s b .badIndex (some x.block)
  | some t =>
    if t = Config.absent32 then takeEnding s b .notFound (some x.block)
    else if r.eod ≤ t then takeEnding s b .beyondData (some x.block)
    else restorePosition (s.modRestore b fun r => { r with target := t, start := some t, next := t, phase := .positioning }) b

/-- The run and the index block an item belongs to, unless it was abandoned. -/
def indexOf (s : State) (i : Item) : Option (RestoreRun × IndexRead) :=
  if i.abandoned then none
  else (s.restore i.bay).bind fun r => (r.index.filter fun x => x.desc = some i.desc).map fun x => (r, x)

def indexCheckTaken (s : State) (i : Item) (res : CheckResult) (e : Nat) : State :=
  match indexOf s i with
  | some (r, x) =>
    let s1 := releaseDesc (s.modRestore i.bay fun r => { r with index := none }) i.desc
    match res with
    | .good => indexResolved s1 i.bay r x (indexEntry s.engine.workRaw e)
    | .checkError => takeEnding (reportFailure s1 r.volume x.block) i.bay .checkError (some x.block)
    | .formatError => takeEnding (reportFailure s1 r.volume x.block) i.bay .formatError (some x.block)
  | none => releaseDesc s i.desc

/-- EXPAND_CHECK_COMPLETE (R134). -/
def execExpandCheckComplete (s : State) : Result :=
  match s.engine.inHand with
  | some i =>
    let res := (expandRecord i.header (itemBytes s i)).2
    match i.kind with
    | .checkVerify => finishCredit (verifyCheckTaken (engineFree s) i res)
    | .checkIndex e => finishCredit (indexCheckTaken (engineFree s) i res e)
    | _ => .next s
  | none => .next s

end Sys2Proof.Machine
end

