-- ==== Sys2Proof/Machine/Links.lean ====
section
/-! DEFINITION. The link events of a port (R170 to R172) and its claim hold (R177, R178). -/

namespace Sys2Proof.Machine

/-- R170: the port comes UP with its tags free and its queues empty, its claim hold over, and is told the condition and its credit. -/
def linkUp (s : State) (p : Port) : State :=
  let s1 := s.modPort p fun c => { c with up := true, claimTimer := .stopped, holding := .all false }
  let s2 := queueNotice s1 p (.condition s1.picker.condition)
  let s3 := onBuffer s2 fun v b => b.attach v p
  let h := s3.buffer.share.get p
  queueNotice s3 p (.credit h.cumUnits h.cumDescs)

/-- R171 steps 1 to 3: DOWN, tags free, everything outbound dropped. -/
def PortCtl.wentDown (c : PortCtl) : PortCtl :=
  { c with up := false, tags := List.replicate 8 none, control := [], frames := [], sending := none, dropped := 0 }

/-- A CONFIGURE of the port goes on, but its tag is dropped (R171). -/
def ConfigRequest.untag (p : Port) (q : ConfigRequest) : ConfigRequest := if q.port = p then { q with tag := none } else q

/-- A RELEASE_VOLUME of the port likewise. -/
def ReleaseWrite.untag (p : Port) (r : ReleaseWrite) : ReleaseWrite := if r.port = p then { r with tag := none } else r

/-- R171 steps 1 to 4. -/
def linkLost (s : State) (p : Port) : State :=
  let s1 := s.modPort p PortCtl.wentDown
  let s2 := { s1 with storeWrite := s1.storeWrite.map (ConfigRequest.untag p),
                      configWaiting := s1.configWaiting.map (ConfigRequest.untag p),
                      releaseWrites := s1.releaseWrites.map (ReleaseWrite.untag p) }
  let s3 := onBuffer s2 fun v b => b.detach v p
  portVerifiesLoss (portRestoresLoss (portStreamsLoss (portMovesLoss s3 p) p) p) p

def bayClaimed (s : State) (p : Port) (b : Bay) : Bool := (s.drive b).claim = some p || startedLoad s p b

/-- The port's claim of bay b, the bay not in its released-bay list: a new timer is started "only for claims outside the list" (R179). -/
def claimOutside (s : State) (p : Port) (b : Bay) : Bool := bayClaimed s p b && !(s.port p).released.contains b

/-- "when the port holds at least one drive claim or at least one LOAD or SCRATCH-LOAD of the port has been started and not
completed" (R171), of a bay outside the list (R179). -/
def holdsClaim (s : State) (p : Port) : Bool := claimOutside s p .d0 || claimOutside s p .d1

/-- Step 5 of R171: the claim-hold timer loaded, for the claims outside the list alone (R179). -/
def beginHold (s : State) (p : Port) : State :=
  s.modPort p fun c =>
    { c with claimTimer := .running (1000 * s.settings.claimHold), holding := ⟨claimOutside s p .d0, claimOutside s p .d1⟩ }

/-! ### The claim hold (R178, R179) -/

/-- The timer governs the port's claim of bay b: it was loaded for it, and the port has kept the claim. -/
def holdGoverns (s : State) (p : Port) (b : Bay) : Bool := (s.port p).holding.get b && claimOutside s p b

/-- The expiry: the bays whose claims the timer governs enter the port's released-bay list, D0 before D1 (log entry 72). -/
def holdExpired (s : State) (p : Port) : State :=
  s.modPort p fun c =>
    { c with claimTimer := .stopped, holding := .all false, released := c.released ++ [Bay.d0, .d1].filter (holdGoverns s p) }

/-- Whether a port that has bay b in its list waits for it no longer: "the bay's activity is none" and "no started move entry
of the port names the bay". A stream that drains or a run still open is an activity, and so are a stream that is OPENING there and a run
that a drive fault has ended and that has not closed, also another port's (log entry 64). -/
def bayOwedBy (s : State) (p : Port) (b : Bay) : Bool :=
  (s.port p).released.contains b && (s.drive b).activity.isNone && !startedNames s p b
    && (s.restore b).isNone && (s.verifyRun b).isNone && (s.stream b).state ≠ .opening

def markIfOwed (s : State) (p : Port) (b : Bay) : State := if bayOwedBy s p b then markOwed s b else s

/-- R178 at the expiry itself: "This happens at the expiry itself for a bay that already meets both". A bay that stood in the list
before is none of this timer's: its mark, and the UNLOAD queued again, wait for their own steps (R179). -/
def holdExpiry (s : State) (p : Port) : State :=
  let s1 := holdExpired s p
  let s2 := if holdGoverns s p .d0 then markIfOwed s1 p .d0 else s1
  if holdGoverns s p .d1 then markIfOwed s2 p .d1 else s2

/-! ### The commands -/

/-- LINK_UP (R170). "A link up reported for a port already UP is ignored." -/
def execLinkUp (p : Port) (s : State) : Result := if (s.port p).up then .next s else finish (linkUp s p)

/-- LINK_DOWN (R171). "A link down reported for a port already DOWN is ignored." With the setting at 0 the timer expires in the same
event. -/
def execLinkDown (p : Port) (s : State) : Result :=
  if !(s.port p).up then .next s
  else
    let s1 := linkLost s p
    if holdsClaim s1 p then
      let s2 := beginHold s1 p
      if s1.settings.claimHold = 0 then finishCredit (holdExpiry s2 p) else finishCredit s2
    else finishCredit s1

/-- LINK_RESET (R172): steps 1 to 4 of R171 and then R170, in one event; on a DOWN port a link up. What the
detach releases is settled among the other ports before the attach (log entry 9). -/
def execLinkReset (p : Port) (s : State) : Result :=
  if !(s.port p).up then finish (linkUp s p)
  else finishCredit (linkUp (onBuffer (linkLost s p) settle) p)

/-- CLAIM_HOLD_TIMER_EXPIRY (R178). -/
def execClaimHoldTimerExpiry (p : Port) (s : State) : Result :=
  if (s.port p).claimTimer.isRunning then finish (holdExpiry s p) else .next s

/-- UNLOAD_OWED_MARK (R178): the bay of a port's released-bay list whose activity and moves have ended. -/
def execUnloadOwedMark (b : Bay) (s : State) : Result :=
  if (bayOwedBy s .p0 b || bayOwedBy s .p1 b || bayOwedBy s .p2 b) && !s.picker.unloadOwed.get b then finish (markOwed s b)
  else .next s

/-- OWED_UNLOAD_QUEUED (R50): an internal UNLOAD for a bay marked unload-owed, when a place is free; D0 before D1. -/
def execOwedUnloadQueued (s : State) : Result := finish (queueOwedUnloads s)

end Sys2Proof.Machine
end

