-- ==== Sys2Proof/Machine/SettingsOps.lean ====
section
/-! DEFINITION. A CONFIGURE (R182, R183): its tests in order, its taking, and its values taking effect. -/

namespace Sys2Proof.Machine

/-! ### The tests of R182 -/

/-- Test 2: each present allotment meets its least, and both sums hold (R94). -/
def leastHeld (e : SettingEntry) : Bool :=
  match e.setting.toNat with
  | 0x02 => decide (leastWrite ≤ e.value.toNat)
  | 0x03 => decide (leastRead ≤ e.value.toNat)
  | 0x04 => decide (leastDescs ≤ e.value.toNat)
  | _ => true

def sumsHeld (st : Settings) : Bool :=
  decide (PerPort.total st.writeUnits + PerPort.total st.readUnits ≤ Config.totalUnits - Config.internalUnits)
    && decide (PerPort.total st.writeDescs + 3 * Config.readDescs ≤ Config.totalDescs - Config.internalDescs)

/-- "A request whose only changes are raises of W_u, D_u or W_h". -/
def onlyRaises (old new : Settings) : Bool :=
  let up := fun (a b : PerPort Nat) => decide (a.p0 ≤ b.p0) && decide (a.p1 ≤ b.p1) && decide (a.p2 ≤ b.p2)
  up old.writeUnits new.writeUnits && up old.readUnits new.readUnits && up old.writeDescs new.writeDescs
    && decide ({ new with writeUnits := old.writeUnits, readUnits := old.readUnits, writeDescs := old.writeDescs } = old)

/-- Test 3's four conditions. -/
def isQuiet (s : State) : Bool :=
  s.picker.condition = .ready && s.drives.d0.claim.isNone && s.drives.d1.claim.isNone && s.picker.queue.isEmpty
    && !s.drives.d0.carriesActivity && !s.drives.d1.carriesActivity

/-- R4: no owned volume but a MISPLACED one would stand in a slot its owner cannot see. -/
def partitionFits (s : State) (new : Settings) : Bool :=
  s.store.volumes.all fun v =>
    match v.owner, v.location with
    | some p, .element q =>
      !(isStorage q && s.installed q) || visibleUnder new p q
        || (match s.elemState q with
          | some (.full _ c) => c = .misplaced
          | _ => false)
    | _, _ => true

/-- The first refusal of R182. What is a change, for test 3, is judged on the clamped values (log entry 12). -/
def configRefusal (s : State) (es : List SettingEntry) : Option ReplyCode :=
  let new := s.settings.with es
  firstRefusal
    [ (!es.all entryListed || givenTwice es, .badRequest),
      (!es.all leastHeld || !sumsHeld new, .allotment),
      (!onlyRaises s.settings new && !isQuiet s, .configBusy),
      (new.partition ≠ s.settings.partition && !partitionFits s new, .partitionConflict),
      (!s.buffer.allotmentsFit s.creditEnv new, .allotment) ]

/-- The reply to a CONFIGURE taken: DONE, with CLAMPED when a value was brought into range, and the values as taken. -/
def configDone (s : State) (q : ConfigRequest) : State :=
  let taken := q.entries.map clampEntry
  answerHeld s q.port q.tag .configure .done (.settings taken) (taken ≠ q.entries)

/-- R4: a MISPLACED cartridge whose slot its owner now sees becomes NORMAL, and one in the picker too (log entry 53). -/
def settleMisplaced (s : State) : State :=
  { s with elements := s.elements.map fun e =>
      match e.state with
      | .full (some l) .misplaced =>
        match s.volume l with
        | some v => if s.visibleToOwner v.owner e.pea then { e with state := .full (some l) .normal } else e
        | none => e
      | _ => e }

/-- The new values in the store; a changed partition map sets the scratch pointer to 0 and settles the MISPLACED conditions (R4). -/
def applySettings (s : State) (new : Settings) : State :=
  let s1 := { s with store := { s.store with settings := new } }
  if new.partition ≠ s.settings.partition then settleMisplaced { s1 with scratchPointer := 0 } else s1

/-- "When the CONFIGURE is taken first, the move is tested against the new partition map" (R183): what a move request is tested on. -/
def State.planned (s : State) : State :=
  match s.storeWrite with
  | some q => applySettings s (s.settings.with q.entries)
  | none => s

/-- A CONFIGURE that passed R182 taken: the store is being written, the units and descriptors of its movement set aside until the write
completes (log entry 12). -/
def beginWrite (s : State) (q : ConfigRequest) (rest : List ConfigRequest) : State :=
  { s with buffer := s.buffer.setAside s.settings (s.settings.with q.entries), storeWrite := some q, configWaiting := rest }

/-- The RELEASE_VOLUME whose write the store is making, if it is making one's, and those after it: the oldest, unless it stands behind the
CONFIGURE being written. -/
def State.releaseInStore (s : State) : Option (ReleaseWrite × List ReleaseWrite) :=
  match s.releaseWrites with
  | r :: rest => if r.behind && s.storeWrite.isSome then none else some (r, rest)
  | [] => none

/-- "The settings store takes one CONFIGURE at a time": the next that waits is tested; one refused gives way to the one behind. -/
def takeConfigs (s : State) : List ConfigRequest → State
  | [] => { s with configWaiting := [] }
  | q :: rest =>
    match configRefusal s q.entries with
    | some code => takeConfigs (answerHeld s q.port q.tag .configure code) rest
    | none =>
      if q.entries.isEmpty then takeConfigs (configDone s q) rest
      else beginWrite s q rest

end Sys2Proof.Machine
end

