-- ==== Sys2Proof/Machine/MoveRequests.lean ====
section
/-! DEFINITION. The move requests (R14, R28 to R32), AUDIT (R48) and RECOVER (R43). -/

namespace Sys2Proof.Machine

/-! ### Sources and destinations (R5, R14) -/

/-- The element a named source stands for. -/
def sourcePea (s : State) (p : Port) : SourceName → Option Nat
  | .lea n => decodeLea s p n
  | .label l => (s.volume l).bind fun v =>
    match v.location with
    | .element q => some q
    | _ => none

def SourceName.isLea : SourceName → Bool
  | .lea _ => true
  | .label _ => false

/-- Decodes to an element other than the picker. -/
def namesElement (s : State) (q : Option Nat) : Bool := q.any fun x => x ≠ 0 && s.installed x

def isSlot (q : Nat) : Bool := isStorage q || isMail q

/-- FULL with condition UNREGISTERED, NO LABEL or DUPLICATE. -/
def namesNoVolume (s : State) (q : Nat) : Bool :=
  match s.elemState q with
  | some (.full _ c) => c = .unregistered || c = .noLabel || c = .duplicate
  | _ => false

/-- FULL, naming a volume of another port. -/
def ownedByOther (s : State) (p : Port) (q : Nat) : Bool :=
  (s.elemVolume q).any fun v => v.owner.isSome && v.owner ≠ some p

/-- R14 on a source and a destination, in the order of its table. `toMail`: the request is a MOVE to a mail slot. -/
def r14 (s : State) (p : Port) (src : SourceName) (dst : Option Nat) (toMail : Bool) : List (Bool × ReplyCode) :=
  let q := sourcePea s p src
  let e := q.getD 0
  [ ((src.isLea && !namesElement s q) || !namesElement s dst, .badElement),
    (!src.isLea && q.isNone, .noVolume),
    (!s.visible p e && e ≠ 0, .notVisible),
    (namesNoVolume s e && !toMail, .notRegistered),
    (ownedByOther s p e, .notOwner),
    ((peaBay e).any fun b => (s.drive b).claim ≠ some p, .driveBusy) ]

/-! ### The tests common to all (R28) -/

/-- Test 1. -/
def notReady (s : State) : Bool × ReplyCode := (s.picker.condition ≠ .ready, .notReady)

/-- Test 4 (R33). Entries of the port that a link loss left running count among its places (log entry 55). -/
def noPlace (s : State) (p : Port) : Bool × ReplyCode :=
  (decide (Config.portPlaces ≤ s.picker.portEntries) || decide (Config.placesPerPort ≤ (s.picker.entriesOf p).length), .queueFull)

/-- Test 5 on the elements an entry would claim. -/
def anyClaimed (s : State) (qs : List Nat) : Bool × ReplyCode := (qs.any s.isClaimed, .elementBusy)

def isUnknownElem (s : State) (q : Nat) : Bool :=
  match s.elemState q with
  | some (.unknown _) => true
  | _ => false

/-- Test 6: UNKNOWN, or a mail slot while the mail door is open. -/
def anyUnknown (s : State) (qs : List Nat) : Bool × ReplyCode :=
  (qs.any fun q => isUnknownElem s q || (isMail q && s.mailOpen), .elementBusy)

def isFullElem (s : State) (q : Nat) : Bool := (s.elemState q).any (·.isFull)

/-- R30's three conditions on the drive. -/
def driveLoadable (s : State) (b : Bay) : Bool :=
  s.isEmptyElem (bayPea b) && (s.drive b).state = .empty && (s.drive b).claim.isNone

/-- The label the source entry holds at acceptance. -/
def expectedAt (s : State) (q : Nat) : Option Label := (s.elemState q).bind (·.label)

/-- A move request refused, or accepted by `f`. -/
def decideMove (s : State) (p : Port) (tag : Byte) (kind : ReqKind) (tests : List (Bool × ReplyCode)) (f : State) : State :=
  match firstRefusal tests with
  | some code => refuse s p tag kind code
  | none => f

/-! ### The requests -/

/-- R29 and the tests of R28 on a MOVE. A bay named as source meets the tests of R14 before BAD ELEMENT (log entry 45). -/
def moveTests (s : State) (p : Port) (src : SourceName) (dst : Option Nat) : List (Bool × ReplyCode) :=
  let e := (sourcePea s p src).getD 0
  let d := dst.getD 0
  [notReady s] ++ r14 s p src dst (isMail d) ++
    [ (!isSlot e || !isSlot d, .badElement),
      (e = d, .badRequest),
      noPlace s p, anyClaimed s [e, d], anyUnknown s [e, d],
      (!isFullElem s e, .sourceEmpty),
      (!s.isEmptyElem d, .destOccupied) ]

/-- MOVE (R29). -/
def execMove (p : Port) (tag form srcLea dstLea : Byte) (label : Label) (s : State) : Result :=
  request s p tag .move fun s =>
    match sourceOf form srcLea label with
    | none => refuse s p tag .move .badRequest
    | some src =>
      let dst := decodeLea s.planned p dstLea.toNat
      let e := (sourcePea s.planned p src).getD 0
      decideMove s p tag .move (moveTests s.planned p src dst)
        (acceptEntry s (.port p (some tag)) .move e dst (expectedAt s e) .queued)

/-- R30 and the tests of R28 on a LOAD. A drive LEA of no bay is BAD ELEMENT at test 3 (log entry 46). -/
def loadTests (s : State) (p : Port) (src : SourceName) (dst : Option Nat) : List (Bool × ReplyCode) :=
  let e := (sourcePea s p src).getD 0
  let d := dst.getD 0
  [notReady s] ++ r14 s p src dst false ++
    [ (!isSlot e || !isBay d, .badElement),
      noPlace s p, anyClaimed s [e, d], anyUnknown s [e, d],
      (!isFullElem s e, .sourceEmpty),
      (!(peaBay d).any (driveLoadable s), .driveBusy) ]

def takeDrive (s : State) (p : Port) (b : Option Bay) : State :=
  match b with
  | some b => s.modDrive b fun d => { d with claim := some p }
  | none => s

/-- LOAD (R30). -/
def execLoad (p : Port) (tag form srcLea dstLea : Byte) (label : Label) (s : State) : Result :=
  request s p tag .load fun s =>
    match sourceOf form srcLea label with
    | none => refuse s p tag .load .badRequest
    | some src =>
      let dst := decodeLea s.planned p dstLea.toNat
      let e := (sourcePea s.planned p src).getD 0
      decideMove s p tag .load (loadTests s.planned p src dst)
        (takeDrive (acceptEntry s (.port p (some tag)) .load e dst (expectedAt s e) .queued) p (dst.bind peaBay))

/-- The tests of R28 on a LOAD-SCRATCH, but for the choice of test 8. -/
def loadScratchTests (s : State) (p : Port) (bay : Option Bay) : List (Bool × ReplyCode) :=
  let d := (bay.map bayPea).getD 0
  [ notReady s, (bay.isNone, .badElement), noPlace s p, anyClaimed s [d], anyUnknown s [d],
    (!bay.any (driveLoadable s), .driveBusy),
    ((chooseScratch s).isNone, .noScratch) ]

/-- The pointer after slot k is chosen (R20). While a write that changes the partition map goes on it stands: the choice is made on the
new map, and the write's completion sets the pointer to 0 (R4). -/
def pointerAfter (s : State) (k : Nat) : Nat :=
  if s.planned.settings.partition = s.settings.partition then scratchAfter s k else s.scratchPointer

/-- LOAD-SCRATCH (R31): the slot chosen, claimed, and the pointer advanced in the step of acceptance (R20). -/
def execLoadScratch (p : Port) (tag driveLea : Byte) (s : State) : Result :=
  request s p tag .loadScratch fun s =>
    let bay := bayOfLea driveLea
    decideMove s p tag .loadScratch (loadScratchTests s.planned p bay)
      (match chooseScratch s.planned with
        | some (k, q) =>
          let s1 := acceptEntry s (.port p (some tag)) .scratchLoad q (bay.map bayPea) (expectedAt s q) .queued
          { takeDrive s1 p bay with scratchPointer := pointerAfter s k }
        | none => s)

/-- R32 and the tests of R28 on an UNLOAD. A run that a link loss ended and whose drive has faulted since is no activity, so the UNLOAD is
taken (log entry 71). -/
def unloadTests (s : State) (p : Port) (bay : Option Bay) (named : Bool) (dst : Option Nat) : List (Bool × ReplyCode) :=
  let e := (bay.map bayPea).getD 0
  let d := dst.getD 0
  let qs := if named then [e, d] else [e]
  [ notReady s, (bay.isNone || (named && !namesElement s dst), .badElement),
    (!bay.any fun b => (s.drive b).claim = some p, .driveBusy),
    (named && !isSlot d, .badElement),
    noPlace s p, anyClaimed s qs, anyUnknown s qs,
    (!isFullElem s e, .sourceEmpty),
    (bay.any fun b => (s.drive b).carriesActivity, .driveBusy),
    (named && !s.isEmptyElem d, .destOccupied) ]

/-- UNLOAD (R32). -/
def execUnload (p : Port) (tag driveLea named dstLea : Byte) (s : State) : Result :=
  request s p tag .unload fun s =>
    unlessReleased s p tag .unload (bayOfLea driveLea) fun s =>
      match flagOf named with
      | none => refuse s p tag .unload .badRequest
      | some n =>
        let bay := bayOfLea driveLea
        let dst := if n then decodeLea s.planned p dstLea.toNat else none
        let e := (bay.map bayPea).getD 0
        decideMove s p tag .unload (unloadTests s.planned p bay n dst)
          (acceptEntry s (.port p (some tag)) .unload e dst (expectedAt s e) .queued)

/-- AUDIT (R48). -/
def execAudit (p : Port) (tag : Byte) (s : State) : Result :=
  request s p tag .audit fun s =>
    if s.picker.condition ≠ .ready then refuse s p tag .audit .notReady
    else s.modPicker fun k => { k with auditPending := true, auditWaiting := k.auditWaiting ++ [(p, tag)] }

/-- The RECOVER entry accepted: the homing motion is issued at once, and the condition stays (R43). The entry that homes alone claims the
picker's element too (log entry 73). -/
def acceptRecover (s : State) (p : Port) (tag : Byte) (dest : Option Nat) : State :=
  let s1 := acceptEntry s .internal .recover 0 dest (s.picker.recovery.bind (·.label)) (.run .homing)
  (issueMotion s1 .homing .moving).modPicker fun k => { k with recoverWaiting := k.recoverWaiting ++ [(p, tag)] }

/-- Nothing gripped: the record discarded, the picker entry EMPTY, a volume at PICKER UNKNOWN (R43). -/
def nothingGripped (s : State) : State :=
  (setElem (mapVolumes s fun v => if v.location = .picker then { v with location := .unknown } else v) 0 .empty).modPicker
    fun k => { k with recovery := none }

/-- RECOVER (R43). One that comes between the last motion of a recovery and its full audit passes the tests too, and homes before that
audit, which answers both (DESIGN CHOICE between R43 and R187, log entry 79). -/
def execRecover (p : Port) (tag : Byte) (gripped : Bool) (s : State) : Result :=
  request s p tag .recover fun s =>
    if s.picker.condition ≠ .motionFault then refuse s p tag .recover .notReady
    else if s.picker.queue.any fun e => e.kind = .recover then refuse s p tag .recover .elementBusy
    else if !gripped then acceptRecover (nothingGripped s) p tag none
    else match recoveryDest s with
      | some d => acceptRecover s p tag (some d)
      | none => refuse s p tag .recover .noSlot

end Sys2Proof.Machine
end

