-- ==== Sys2Proof/Machine/PickerEvents.lean ====
section
/-! DEFINITION. What the picker mechanics and the two door switches report (R11, R36 to R38, R42 to R47), and the picker's choice
of its next work (R34). -/

namespace Sys2Proof.Machine

/-- The command whose report may come: outstanding, and not suspended by the service door (R36, R45; log entry 32). -/
def State.runningMotion (s : State) : Option Motion := if s.picker.state = .stopped then none else s.picker.motion

/-- FETCH_COMPLETE (R37): of a FETCH, or of the put-back that a changed label calls for. -/
def execFetchComplete (gripped : Bool) (label : Option Label) (s : State) : Result :=
  match s.runningMotion, s.inHandMove with
  | some (.fetch q), some e => finish (fetchReported (motionReported s) e q gripped label)
  | some (.putBack q read), some e => finish (putBackReported (motionReported s) e q read)
  | _, _ => .next s

/-- CARRY_COMPLETE (R36): the entry passes to PLACE. -/
def execCarryComplete (s : State) : Result :=
  match s.runningMotion, s.inHandMove with
  | some .carry, some e => finish (startPlace (motionReported s) e)
  | _, _ => .next s

/-- PLACE_COMPLETE (R38). -/
def execPlaceComplete (obstructed : Bool) (s : State) : Result :=
  match s.runningMotion, s.inHandMove with
  | some (.place q), some e => finish (placeReported (motionReported s) e q obstructed)
  | _, _ => .next s

/-- Homing ended: a RECOVER goes on to its CARRY or is done (R43); at power-on and board reset the full audit starts (R47). -/
def homed (s : State) : State :=
  match s.inHandMove with
  | some e => if e.dest.isSome then startCarry s e else recoveryDone s e
  | none => startFullAudit s

/-- HOMING_COMPLETE (R43, R47). -/
def execHomingComplete (s : State) : Result :=
  match s.runningMotion with
  | some .homing => finish (homed (motionReported s))
  | _ => .next s

/-- AUDIT_SLOT_READING (R47): the result is taken "at once, before the next slot is read". -/
def execAuditSlotReading (reading : Reading) (s : State) : Result :=
  match s.runningMotion, s.picker.audit with
  | some (.reading q), some a => finish (afterAudit (auditNext (takeReading (motionReported s) a q reading)))
  | _, _ => .next s

/-- MOTION_TIMER_EXPIRY (R42, R44): the expiry of a running timer. -/
def execMotionTimerExpiry (s : State) : Result :=
  if s.picker.timer.isRunning then
    finish (if s.inHandMove.any fun e => e.kind = .recover then disablePicker s else firstFault s)
  else .next s

/-! ### The service door (R45) -/

def Phase.stop : Phase → Phase
  | .run ph => .stopped ph
  | ph => ph

def Phase.resume : Phase → Phase
  | .stopped ph => .run ph
  | ph => ph

def mapPhases (s : State) (f : Phase → Phase) : State :=
  s.modPicker fun k => { k with queue := k.queue.map fun e => { e with phase := f e.phase } }

/-- The picker stops: the timer held, the entry in hand STOPPED. The audit in progress will be replaced; a mail audit that a
move holding waits for is due again. -/
def stopPicker (s : State) : State :=
  setCondition ((mapPhases (oweImport s) Phase.stop).modPicker fun k =>
    { k with state := .stopped, timer := k.timer.hold, audit := none,
             mailAuditDue := k.mailAuditDue || (k.held.isSome && k.audit.isSome) }) .serviceDoor

/-- SERVICE_DOOR_OPEN (R45). While FAULTED or DISABLED "the door changes nothing". -/
def execServiceDoorOpen (s : State) : Result :=
  let s1 := { s with serviceOpen := true }
  match s.picker.state with
  | .idle => finish (stopPicker s1)
  | .moving => finish (stopPicker s1)
  | .auditing => finish (stopPicker s1)
  | .stopped => .next s1
  | .faulted => .next s1
  | .disabled => .next s1

/-- The suspended command runs on, the timer from its held value. A reading is no one's command any more. -/
def resumeMotion (s : State) : State :=
  (mapPhases s Phase.resume).modPicker fun k =>
    match k.motion with
    | some (.reading _) => { k with state := .moving, motion := none, timer := .stopped }
    | _ => { k with state := .moving, timer := k.timer.resume }

/-- A move holding at a mail slot takes its mail audit first (R46), a RECOVER too (log entry 22). -/
def resumeMove (s : State) : State :=
  let s1 := resumeMotion s
  if s1.picker.held.isSome && s1.picker.mailAuditDue && !s1.mailOpen then afterAudit (startMailAudit s1) else s1

/-- The closing (R45): homing not yet begun; a RECOVER (log entry 22) or the homing itself resumed; a move resumed, with the full audit
to follow it; or the full audit at once. -/
def restartPicker (s : State) : State :=
  if s.picker.needHoming then
    issueMotion (setCondition (s.modPicker fun k => { k with needHoming := false }) .auditing) .homing .moving
  else match s.inHandMove with
    | some e =>
      if e.kind = .recover then resumeMove (setCondition s .motionFault)
      else resumeMove ((setCondition s .auditing).modPicker fun k => { k with doorAudit := true })
    | none =>
      if s.picker.motion = some .homing then resumeMotion (setCondition s .auditing)
      else startFullAudit (s.modPicker fun k => { k with motion := none, timer := .stopped })

/-- SERVICE_DOOR_CLOSED (R45), for a picker that the door has stopped. In any other state, as when the door was opened while the picker
was FAULTED and closes only while the recovery or its audit runs, the closing changes the switch alone (log entry 76). -/
def execServiceDoorClosed (s : State) : Result :=
  let s1 := { s with serviceOpen := false }
  if s.picker.state = .stopped then finish (restartPicker s1) else .next s1

/-! ### The mail door (R11, R46, R49) -/

/-- A mail slot's entry UNKNOWN, its label kept as the last known there; the volumes located there UNKNOWN. -/
def mailUnknown (s : State) (pea : Nat) : State :=
  setElem (displaceFrom s pea none) pea (.unknown ((s.elemState pea).bind (·.anyLabel)))

/-- MAIL_DOOR_OPEN (R11). -/
def execMailDoorOpen (s : State) : Result :=
  finish ((mailSlots s.strap).foldl mailUnknown { s with mailOpen := true, picker := { s.picker with mailAuditDue := false } })

/-- MAIL_DOOR_CLOSED (R11, R46, R49): "the mail slots are UNKNOWN until the mail audit reads them", whatever a FETCH or PLACE carried
to its report with the door open left there; the mail audit is due, at once when a move holds at a mail slot. -/
def execMailDoorClosed (s : State) : Result :=
  let s1 := (mailSlots s.strap).foldl mailUnknown { s with mailOpen := false, picker := { s.picker with mailAuditDue := true } }
  if s1.picker.held.isSome && s1.picker.motion.isNone && s1.picker.state ≠ .stopped then finish (afterAudit (startMailAudit s1))
  else finish s1

/-! ### The next work (R34) -/

/-- PICKER_TAKE_WORK (R34, R35). -/
def execPickerTakeWork (s : State) : Result := if mayTakeWork s then finish (nextWork s) else .next s

end Sys2Proof.Machine
end

