-- ==== Sys2Proof/Machine/Formats.lean ====
section
/-! DEFINITION. The bytes of everything the 716 sends (chapter 10): codes of enumerated fields, reply and notice bodies, data
frames, and the 8-byte block header in front of each. -/

namespace Sys2Proof.Machine

/-! ### Codes: "coded 0, 1, 2 and so on in the order their values are listed" (R185) -/

/-- Table 10-10: the constructors stand in its order. -/
def ReplyCode.num (c : ReplyCode) : Nat := c.ctorIdx
/-- The CONDITION notice's codes (Table 10-4): the constructors stand in its order. -/
def LibCondition.num (c : LibCondition) : Nat := c.ctorIdx
/-- Table 10-7. -/
def PickerState.num (c : PickerState) : Nat := c.ctorIdx
def DriveState.num (c : DriveState) : Nat := c.ctorIdx
def StreamState.num (c : StreamState) : Nat := c.ctorIdx
def RestorePhase.num (c : RestorePhase) : Nat := c.ctorIdx
def VerifyPhase.num (c : VerifyPhase) : Nat := c.ctorIdx
def MoveKind.num (c : MoveKind) : Nat := c.ctorIdx
/-- Table 10-6. -/
def Condition.num (c : Condition) : Nat := c.ctorIdx

/-- "The STREAM-FAULT notice carries WRITE FAULT or DRIVE FAULT by the same values" (section 10.5). -/
def FaultCode.num (c : FaultCode) : Nat := c.reply.num

/-- The phases of a move entry as the status report codes them; homing, which Table 10-7 lacks, shows as FETCH (log entry 13). -/
def Phase.num : Phase → Nat
  | .queued => 0
  | .run .homing => 1
  | .run .fetch => 1
  | .run .carry => 2
  | .run .place => 3
  | .threadWait => 4
  | .unthreadWait => 5
  | .stopped _ => 6

def Activity.num : Activity → Nat
  | .none => 0
  | .stream _ => 1
  | .restore _ => 2
  | .verify _ => 3

/-- An absent label is 8 bytes of 00h (R185). -/
def labelBytes (l : Option Label) : List Byte :=
  match l with
  | some l => l.bytes
  | none => List.replicate 8 0

def byte1 (n : Nat) : Byte := BitVec.ofNat 8 n
def be32Opt (n : Option Nat) : List Byte := be32 (n.getD Config.absent32)
def flagByte (b : Bool) : Byte := if b then 1 else 0
/-- "the byte FFh when the figure is absent" (Table 10-9); else bits 5 to 3 e, bits 2 to 0 f, which is the code itself. -/
def figureByte (f : Option Nat) : Byte := byte1 (f.getD 255)
def ownerNum (o : Option Port) : Nat := (o.map (·.num)).getD 3

/-! ### Report entries (Tables 10-5 to 10-7) -/

def settingBytes (e : SettingEntry) : List Byte := [e.setting, e.index] ++ be32 e.value.toNat

def elementBytes (e : ElementReport) : List Byte :=
  [byte1 e.lea, byte1 e.kind, byte1 e.state, (e.condition.map fun c => byte1 c.num).getD 0xFF, flagByte e.claimed, 0, 0, 0]
    ++ labelBytes e.label

/-- Location and home slot codes with their LEA byte. -/
def whereBytes (q : Place) : List Byte :=
  match q with
  | .lea n => [0, byte1 n]
  | .notVisible => [1, 0]
  | .picker => [2, 0]
  | .unknown => [3, 0]
  | .outside _ => [4, 0]
  | .absent => [2, 0]

def volumeBytes (v : VolumeReport) : List Byte :=
  v.label.bytes ++ [byte1 (ownerNum v.owner)] ++ whereBytes v.location ++ whereBytes v.home
    ++ [byte1 (v.cls.getD 0), flagByte v.writeProtected, figureByte v.figure]
    ++ be32 (match v.location with
      | .outside n => n
      | _ => 0)
    ++ be32Opt v.eod ++ be32 v.framesUsed ++ be32 v.verifiedTo ++ be32Opt v.failure
    ++ be16 v.setCount ++ be16 v.softErrors ++ be16 v.hardErrors ++ List.replicate 6 0

def StatusField.bytes : StatusField → List Byte
  | .num n => be32 n
  | .label l => labelBytes l

/-! ### Reply bodies (Table 10-3) -/

def ReplyBody.bytes : ReplyBody → List Byte
  | .none => []
  | .move n d l => [byte1 n, byte1 (d.getD 0), 0, 0] ++ labelBytes l
  | .settings es => es.flatMap settingBytes
  | .openStream a c => be32 a ++ [byte1 (c.getD 0), 0, 0, 0]
  | .writeRefused st r => [st, flagByte r.isSome, 0, 0] ++ be32Opt r
  | .resume f n => be32 f ++ be32 n
  | .sync st h e => [byte1 st.num, 0, 0, 0] ++ be32Opt h ++ be32 e
  | .close st h e n f d => [byte1 st.num, 0, 0, 0] ++ be32Opt h ++ be32 e ++ be32 n ++ be32 f ++ be32 d
  | .read b a n e => [byte1 b.num, 0, 0, 0] ++ be32Opt a ++ be32 n ++ be32Opt e
  | .verify b f a n e v x => [byte1 b.num, byte1 f, 0, 0] ++ be32 a ++ be32 n ++ be32Opt e ++ be32 v ++ be32Opt x
  | .elements es => [byte1 es.length, 0, 0, 0] ++ es.flatMap elementBytes
  | .volumes es ms => [byte1 es.length, 0, 0, 0] ++ es.flatMap volumeBytes ++ (match ms with
      | some ms => [byte1 ms.length, 0, 0, 0] ++ ms.flatMap be32
      | Option.none => [])
  | .status fs => fs.flatMap StatusField.bytes

/-! ### Notices (Table 10-4) -/

def Notice.code : Notice → Nat
  | .commit _ _ _ _ => 1
  | .earlyWarning _ _ _ => 2
  | .mediumEnd _ _ => 3
  | .streamFault _ _ _ => 4
  | .credit _ _ => 5
  | .condition _ => 6
  | .importSlots _ => 7

/-- Bit m for mail slot M0 + m, at PEA 4 + m. -/
def slotBits (slots : List Nat) : Nat := ((List.range 4).map fun m => if slots.contains (4 + m) then 2 ^ m else 0).sum

def Notice.bytes : Notice → List Byte
  | .commit st f h e => [byte1 st.num, figureByte f, 0, 0] ++ be32 h ++ be32 e
  | .earlyWarning st r n => [byte1 st.num, 0, 0, 0] ++ be32 r ++ be32 n
  | .mediumEnd st u => [byte1 st.num, 0, 0, 0] ++ be32 u
  | .streamFault st c l => [byte1 st.num, byte1 c.num, 0, 0] ++ be32Opt l
  | .credit u d => be32 u ++ be32 d
  | .condition c => [byte1 c.num, 0, 0, 0]
  | .importSlots m => [byte1 (slotBits m), 0, 0, 0]

/-! ### Frames (Table 10-1, section 10.2) -/

def withHeader (type kind tag outcome flags : Byte) (body : List Byte) : List Byte :=
  [type, kind, tag, outcome, flags, 0] ++ be16 body.length ++ body

def Frame.bytes : Frame → List Byte
  | .control (.reply r) => withHeader 2 r.kind r.tag (byte1 r.code.num) (flagByte r.clamped) r.body.bytes
  | .control (.notice n) => withHeader 3 (byte1 n.code) 0xFF 0 0 n.bytes
  | .data d =>
    if d.isMark then withHeader 5 0 0xFF 0 0 ([byte1 d.bay.num, 0, 0, 0] ++ be32 d.block)
    else withHeader 4 0 0xFF 0 0 ([byte1 d.bay.num, d.kind, 0, 0] ++ be32 d.block ++ be32 d.raw.length ++ d.raw)

end Sys2Proof.Machine
end

