-- ==== Sys2Proof/Machine/Reports.lean ====
section
/-! DEFINITION. RELEASE-VOLUME (R16), the reports (R17, R18, R180, R181), CONFIGURE and the store's completion (R182, R183). -/

namespace Sys2Proof.Machine

/-! ### RELEASE-VOLUME (R16) -/

def isPickerOrBay (v : Volume) : Bool :=
  match v.location with
  | .element q => isBay q
  | .picker => true
  | _ => false

def claimedAt (s : State) (v : Volume) : Bool :=
  match v.location with
  | .element q => s.isClaimed q
  | _ => false

/-- "If the volume's element has condition MISPLACED, the condition becomes NORMAL." -/
def settleReleased (s : State) (v : Volume) : State :=
  match v.location with
  | .element q => modElement s q fun e =>
      match e.state with
      | .full l .misplaced => { e with state := .full l .normal }
      | _ => e
  | _ => s

def releaseRefusal (s : State) (p : Port) (l : Label) : Option ReplyCode :=
  match s.volume l with
  | none => some .noVolume
  | some v => firstRefusal
      [ (v.owner.isSome && v.owner ≠ some p, .notOwner), (isPickerOrBay v || claimedAt s v, .driveBusy) ]

/-- The record blanked, and its store write begun or waiting its turn; the reply comes when the write has completed. -/
def beginRelease (s : State) (p : Port) (tag : Byte) (v : Volume) : State :=
  let s1 := settleReleased (modVolume s v.label Volume.released) v
  { s1 with releaseWrites := s1.releaseWrites ++ [⟨p, some tag, s1.storeWrite.isSome, v⟩] }

/-- RELEASE_VOLUME (R16): the tests and the change of the record in the step of the request, the reply at the end of the store write
(log entry 44). -/
def execReleaseVolume (p : Port) (tag : Byte) (label : Label) (s : State) : Result :=
  request s p tag .releaseVolume fun s =>
    if !label.valid then refuse s p tag .releaseVolume .badRequest
    else match releaseRefusal s p label, s.volume label with
      | some code, _ => refuse s p tag .releaseVolume code
      | none, some v => beginRelease s p tag v
      | none, none => refuse s p tag .releaseVolume .noVolume

/-! ### REPORT-ELEMENTS (R17) -/

def elementKind (s : State) (q : Nat) : Nat :=
  if q = 0 then 0 else if isBay q then 1 else if isMail q then 2
  else if s.settings.assignment q = .shared then 4 else 3

/-- One element as port p sees it. A DUPLICATE names no volume, so its label is shown whoever owns the record that carries it
(log entry 54). -/
def elementReport (s : State) (p : Port) (lea : Nat) (e : Element) : ElementReport :=
  let other := (s.elemVolume e.pea).any fun v => v.owner.isSome && v.owner ≠ some p
  match e.state with
  | .unknown _ => ⟨lea, elementKind s e.pea, 0, none, e.claim.isSome, none⟩
  | .empty => ⟨lea, elementKind s e.pea, 1, none, e.claim.isSome, none⟩
  | .full l c => ⟨lea, elementKind s e.pea, if other then 3 else 2, some c, e.claim.isSome, if other then none else l⟩

/-- One entry for each LEA of the range that decodes to an element, ascending. -/
def elementReports (s : State) (p : Port) (first count : Nat) : List ElementReport :=
  (List.range count).filterMap fun k =>
    ((decodeLea s p (first + k)).bind s.element).map (elementReport s p (first + k))

/-- REPORT_ELEMENTS (R17). -/
def execReportElements (p : Port) (tag firstLea : Byte) (count : Half) (s : State) : Result :=
  request s p tag .reportElements fun s =>
    if count = 0 then refuse s p tag .reportElements .badRequest
    else answer s p tag .reportElements .done (.elements (elementReports s p firstLea.toNat (min count.toNat 64)))
      (64 < count.toNat)

/-! ### REPORT-VOLUMES (R18) -/

def locationPlace (s : State) (p : Port) (v : Volume) : Place :=
  match v.location with
  | .element q => shownPea s p q
  | .picker => .picker
  | .unknown => .unknown
  | .outside n => .outside n

def volumeReport (s : State) (p : Port) (v : Volume) : VolumeReport where
  label := v.label
  owner := v.owner
  location := locationPlace s p v
  home := match v.home with
    | some h => shownPea s p h
    | none => .absent
  cls := v.cls
  writeProtected := v.writeProtected
  figure := ratioFigure v.rawTotal v.storedTotal
  eod := v.eod
  framesUsed := v.framesUsed
  verifiedTo := v.verifiedTo
  failure := v.failure
  setCount := v.marks.length + 1
  softErrors := v.softErrors
  hardErrors := v.hardErrors

def ownOrScratch (p : Port) (v : Volume) : Bool := v.owner.isNone || v.owner = some p

/-- REPORT_VOLUMES (R18): ALL, or ONE with its mark list. -/
def execReportVolumes (p : Port) (tag form : Byte) (label : Label) (s : State) : Result :=
  request s p tag .reportVolumes fun s =>
    if form = 0 then
      answer s p tag .reportVolumes .done
        (.volumes ((s.store.volumes.filter (ownOrScratch p)).map (volumeReport s p)) none)
    else if form ≠ 1 || !label.valid then refuse s p tag .reportVolumes .badRequest
    else match s.volume label with
      | none => refuse s p tag .reportVolumes .noVolume
      | some v =>
        if ownOrScratch p v then answer s p tag .reportVolumes .done (.volumes [volumeReport s p v] (some v.marks))
        else refuse s p tag .reportVolumes .notOwner

/-! ### REPORT-STATUS (R180, Table 10-7) -/

def numOpt (n : Option Nat) : StatusField := .num (n.getD Config.absent32)
def flagNum (b : Bool) : StatusField := .num b.toNat

def Activity.port : Activity → Option Port
  | .none => Option.none
  | .stream p => some p
  | .restore p => some p
  | .verify p => some p

/-- "the volume label when the claim is p's or the volume's owner is p or NONE, and otherwise the label withheld". -/
def labelShown (s : State) (p : Port) (b : Bay) : Bool :=
  (s.drive b).claim = some p || (s.driveVolume b).any (ownOrScratch p)

/-- 0 absent, 1 UNKNOWN, 2 known (Table 10-7). -/
def knownCode (q : Option Position) (f : Position → Option Nat) : Nat :=
  match q with
  | none => 0
  | some x => if (f x).isSome then 2 else 1

/-- Bay offsets +36 to +127, for the port that holds the claim. Of the runs it shows the bay's present one, not one set aside (log entry
31). -/
def bayDetail (s : State) (b : Bay) : List StatusField :=
  let d := s.drive b
  let c := s.stream b
  let r := s.restore b
  let v := s.verifyRun b
  [ .num (knownCode d.position (·.block)), numOpt d.posBlock, .num (knownCode d.position (·.frame)), numOpt d.posFrame,
    numOpt d.continuation,
    .num c.state.num, .num c.nextRecord, .num c.nextBlock, numOpt c.highestCommitted, numOpt c.highestReported,
    numOpt c.firstUnsent, numOpt (c.fault.map (·.num)), .num c.refused,
    numOpt (r.map (·.phase.num)), numOpt (r.bind (·.start)), numOpt (r.map (·.blocksRead)), numOpt (r.map (·.delivered)),
    numOpt (v.map (·.form.code)), numOpt (v.map (·.phase.num)), numOpt (v.map (·.start)), numOpt (v.map (·.limit)),
    numOpt (v.map (·.next)), numOpt (v.map (·.checked)) ]

def bayStatus (s : State) (p : Port) (b : Bay) : List StatusField :=
  let d := s.drive b
  [ .num d.state.num, .num (ownerNum d.claim), .num d.activity.num, numOpt (d.activity.port.map (·.num)),
    flagNum (s.picker.unloadOwed.get b), flagNum ((s.port p).released.contains b),
    .num (match d.volume with
      | none => 1
      | some _ => if labelShown s p b then 0 else 2),
    .label (if labelShown s p b then d.volume else none) ]
  ++ (if d.claim = some p then bayDetail s b else List.replicate 23 (numOpt none))

/-- The credit figures of R96. -/
def creditStatus (s : State) (p : Port) : List StatusField :=
  let u := s.shownBuffer
  let h := u.share.get p
  [ .num h.unitWindow, .num h.descWindow, .num h.cumUnits, .num h.cumDescs,
    .num h.writeFree, .num (u.heldUnits (.writeHome p)), .num h.descWriteFree, .num (u.heldDescs (.writeHome p)),
    .num h.readFree, .num (u.heldUnits (.readHome p)), .num h.descReadFree, .num (u.heldDescs (.readHome p)),
    .num u.poolFree, .num u.descPoolFree, flagNum (congested s.creditEnv s.buffer) ]

/-- The figures of R131. -/
def engineStatus (s : State) : List StatusField :=
  [ .num ((s.engine.inHand.map fun i => i.bay.num + 1).getD 0),
    flagNum s.engine.offer.d0.isSome, flagNum s.engine.offer.d1.isSome, .num s.engine.lastServed.num ]

def Timer.left : Timer → Nat
  | .running ms => ms
  | _ => 0

def portStatus (c : PortCtl) : List StatusField := [flagNum c.up, flagNum c.claimTimer.isRunning, .num c.claimTimer.left]

/-- The tag that REPORT-STATUS shows: none of an internal entry, and none of one whose tag went with its port's link (log entry 74). -/
def MoveEntry.tag (e : MoveEntry) : Option Nat :=
  match e.requester with
  | .port _ t => t.map (·.toNat)
  | .internal => none

def entryStatus (e : MoveEntry) : List StatusField := [.num e.number, numOpt e.tag, .num e.kind.num, .num e.phase.num]

def statusFields (s : State) (p : Port) : List StatusField :=
  let k := s.picker
  [ .num k.condition.num, .num k.state.num, flagNum k.auditPending, flagNum k.recovery.isSome, .num k.portEntries,
    .num k.internalEntries, .num (k.entriesOf p).length ]
  ++ bayStatus s p .d0 ++ bayStatus s p .d1 ++ creditStatus s p ++ engineStatus s
  ++ portStatus s.ports.p0 ++ portStatus s.ports.p1 ++ portStatus s.ports.p2 ++ [.num (s.port p).dropped]
  ++ (k.entriesOf p).flatMap entryStatus

/-- REPORT_STATUS (R180). -/
def execReportStatus (p : Port) (tag : Byte) (s : State) : Result :=
  request s p tag .reportStatus fun s => answer s p tag .reportStatus .done (.status (statusFields s p))

/-! ### REPORT-SETTINGS (R181) -/

def settingEntry (code index value : Nat) : SettingEntry := ⟨BitVec.ofNat 8 code, BitVec.ofNat 8 index, BitVec.ofNat 32 value⟩

def Assignment.num : Assignment → Nat
  | .owned p => p.num
  | .shared => 3

def perPort (code : Nat) (t : PerPort Nat) : List SettingEntry :=
  [settingEntry code 0 t.p0, settingEntry code 1 t.p1, settingEntry code 2 t.p2]

/-- "Every setting as a Table 10-5 entry, in setting order and then index order; a last entry of setting 0Ch". -/
def settingsReport (st : Settings) (strap : Nat) : List SettingEntry :=
  ((List.range 8).map fun k => settingEntry 0x01 k ((st.partition.getD k .shared).num))
  ++ perPort 0x02 st.writeUnits ++ perPort 0x03 st.readUnits ++ perPort 0x04 st.writeDescs ++ perPort 0x05 st.weight
  ++ [ settingEntry 0x06 0 st.threshold, settingEntry 0x07 0 (st.commitCount.getD 0), settingEntry 0x08 0 st.commitLatency,
       settingEntry 0x09 0 st.motionLimit, settingEntry 0x0A 0 st.claimHold, settingEntry 0x0B 0 st.margin,
       settingEntry 0x0C 0 strap ]

/-- REPORT_SETTINGS (R181). -/
def execReportSettings (p : Port) (tag : Byte) (s : State) : Result :=
  request s p tag .reportSettings fun s =>
    answer s p tag .reportSettings .done (.settings (settingsReport s.settings s.strap))

/-! ### CONFIGURE (R182, R183) -/

/-- CONFIGURE (R182): refused, or given to the settings store, or made to wait for it. -/
def execConfigure (p : Port) (tag : Byte) (entries : List SettingEntry) (s : State) : Result :=
  request s p tag .configure fun s =>
    if s.storeWrite.isSome then { s with configWaiting := s.configWaiting ++ [⟨p, some tag, entries⟩] }
    else takeConfigs s (s.configWaiting ++ [⟨p, some tag, entries⟩])

/-- The write of a CONFIGURE complete (R183): the units and descriptors move and every new value takes effect, the reply is queued, a refill
pass runs under the new values, and the next CONFIGURE that waits is taken. The releases that stood behind it are next in the store. -/
def configWritten (s : State) (q : ConfigRequest) : State :=
  let new := s.settings.with q.entries
  let s1 := onBuffer s fun v b => b.landMoved v new
  let s2 := { applySettings s1 new with storeWrite := none, releaseWrites := s1.releaseWrites.map fun r => { r with behind := false } }
  let s3 := onBuffer (configDone s2 q) settle
  takeConfigs s3 s3.configWaiting

/-- The write of a RELEASE_VOLUME complete: its reply (R16). -/
def releaseWritten (s : State) (r : ReleaseWrite) (rest : List ReleaseWrite) : State :=
  answerHeld { s with releaseWrites := rest } r.port r.tag .releaseVolume .done

/-- SETTINGS_STORE_WRITE_COMPLETE (R16, R183): the write in progress is complete. The store makes one write after another, in the order
in which releases come and CONFIGUREs are taken (log entry 44). -/
def execSettingsStoreWriteComplete (s : State) : Result :=
  match s.storeWrite, s.releaseInStore with
  | _, some (r, rest) => finish (releaseWritten s r rest)
  | some q, none => finish (configWritten s q)
  | none, none => .next s

end Sys2Proof.Machine
end

