-- ==== Sys2Proof/Machine/Resets.lean ====
section
/-! DEFINITION. The two resets of the whole part (R52, R53, R74, R97, R131, R141, R156, R169, R184). -/

namespace Sys2Proof.Machine

/-- The strap value, 2 × LAYOUT1 + LAYOUT0 (R1). -/
def strapOf (layout1 layout0 : Bool) : Nat := 2 * layout1.toNat + layout0.toNat

/-- "every record whose location is an element or PICKER has its location set to UNKNOWN" (R12). -/
def Volume.afterReset (v : Volume) : Volume :=
  match v.location with
  | .element _ => { v with location := .unknown }
  | .picker => { v with location := .unknown }
  | _ => v

/-- A released record as it was before, if its release has not reached the store; a record that has changed since had its later change
written, and so the release (log entry 44). -/
def unreleased (rs : List ReleaseWrite) (v : Volume) : Volume :=
  rs.foldr (fun r w => if w.label = r.was.label && w = w.released then
    { w with owner := r.was.owner, eod := r.was.eod, marks := r.was.marks, verifiedTo := r.was.verifiedTo, failure := r.was.failure,
             rawTotal := r.was.rawTotal, storedTotal := r.was.storedTotal, framesUsed := r.was.framesUsed } else w) v

/-- Whether a store write is in progress. -/
def State.storeBusy (s : State) : Bool := s.storeWrite.isSome || !s.releaseWrites.isEmpty

/-- The settings and the releases that have not landed when a reset cuts the store's write short: the write in progress has landed whole
or not at all, which the spec leaves open (R183), and the free value says which (log entry 10); those waiting behind it are lost. -/
def cutShort (s : State) : Settings × List ReleaseWrite :=
  let lands := Config.interruptedWriteLands s.freeReads
  match s.storeWrite, s.releaseInStore with
  | _, some (r, rest) => (s.settings, if lands then rest else r :: rest)
  | some q, none => (if lands then s.settings.with q.entries else s.settings, s.releaseWrites)
  | none, none => (s.settings, s.releaseWrites)

/-- The store as a reset finds it. -/
def storeAtReset (s : State) : Store :=
  { s.store with settings := (cutShort s).1, volumes := s.store.volumes.map fun v => (unreleased (cutShort s).2 v).afterReset }

/-- Everything both resets do; the commands that wait stay outside the part. -/
def resetPart (s : State) (layout1 layout0 serviceOpen mailOpen : Bool) : State :=
  .poweredOn (strapOf layout1 layout0) serviceOpen mailOpen (storeAtReset s)
    (if s.storeBusy then s.freeReads + 1 else s.freeReads) s.pending

/-- POWER_ON (R184). -/
def execPowerOn (layout1 layout0 serviceOpen mailOpen : Bool) (s : State) : Result :=
  .next (resetPart s layout1 layout0 serviceOpen mailOpen)

/-- The scratch pointer a board reset keeps, "except that it becomes 0 when a changed layout leaves it not below n" (R19, R2). A write of the
partition map that the reset interrupts, and that lands, leaves it by the same test (log entry 10). -/
def keptPointer (old new : State) : Nat :=
  if old.scratchPointer < (sharedSlots new).length then old.scratchPointer else 0

/-- A picker that a board reset finds DISABLED stays so: no homing, no audit (R44, R52). -/
def Picker.disabledReset (k : Picker) : Picker :=
  { k with state := .disabled, condition := .pickerDisabled, timer := .stopped, motion := none, needHoming := false }

/-- BOARD_RESET (R52). -/
def execBoardReset (layout1 layout0 serviceOpen mailOpen : Bool) (s : State) : Result :=
  let t := resetPart s layout1 layout0 serviceOpen mailOpen
  let t1 := { t with scratchPointer := keptPointer s t }
  .next (if s.picker.state = .disabled then t1.modPicker Picker.disabledReset else t1)

end Sys2Proof.Machine
end

