-- ==== Sys2Proof/Machine/RunRequests.lean ====
section
/-! DEFINITION. READ-RECORDS (R142, R143), VERIFY (R157, R158), ABORT (R122, R154, R166), the close of a run (R153, R165), and
blocks the 716 does not know (R173). -/

namespace Sys2Proof.Machine

/-! ### Tests shared by READ-RECORDS and VERIFY: a volume named, of the port's, with data -/

def readableTests (s : State) (p : Port) (b : Bay) : List (Bool × ReplyCode) :=
  let v := s.driveVolume b
  [ (v.isNone, .noVolume),
    (v.any fun w => w.owner.isNone, .blank),
    (v.any fun w => w.owner ≠ some p, .notOwner),
    (v.any fun w => w.eod.isNone, .blank) ]

/-! ### READ-RECORDS -/

/-- start(s): "0 for s = 0. For s of 1 or more, it is mark list entry s − 1 plus 1" (R143). -/
def setStart (marks : List Nat) (n : Nat) : Nat := if n = 0 then 0 else marks.getD (n - 1) 0 + 1

/-- A block that must be below end-of-data. -/
def below (eod a : Nat) : ReplyCode ⊕ Nat := if a < eod then .inr a else .inl .beyondData

/-- A set address: NOT FOUND or BEYOND DATA, or its block. -/
def setAddress (marks : List Nat) (eod n k : Nat) : ReplyCode ⊕ Nat :=
  if marks.length + 1 ≤ n then .inl .notFound else below eod (setStart marks n + k)

/-- The first block of the run, or the refusal (R143). -/
def resolve (v : Volume) (continuation : Option Nat) (a : Address) : ReplyCode ⊕ Nat :=
  let eod := v.eod.getD 0
  match a with
  | .block n => below eod n
  | .set n k => setAddress v.marks eod n k
  | .indirectBlock i _ => below eod i
  | .indirectSet n k _ => setAddress v.marks eod n k
  | .next => match continuation with
    | some c => below eod c
    | none => .inl .noContinuation

/-- A READ-RECORDS accepted: the run context filled, the activity RESTORE, the bay asked to position (R142, R146). -/
def acceptRead (s : State) (p : Port) (tag : Byte) (b : Bay) (v : Volume) (a : Address) (stop : Bool) (count target : Nat) : State :=
  let r : RestoreRun :=
    { phase := .positioning, port := p, tag := some tag, volume := v.label, address := a, count := min count Config.maxCount,
      clamped := decide (Config.maxCount < count), stopAtMark := stop, eod := v.eod.getD 0, target := target,
      start := if a.indirect.isSome then none else some target, next := target, blocksRead := 0, delivered := 0,
      markRead := false, staged := [], index := none, ending := none, aborts := [] }
  restorePosition (((setAside s b).setRestore b (some r)).modDrive b fun d => { d with activity := .restore p }) b

/-- The request's own tests after R72 (R142, R143). -/
def decideRead (s : State) (p : Port) (tag : Byte) (b : Bay) (form stop : Byte) (count : Nat) (first k e : Word) : State :=
  match addressOf form first k e, flagOf stop with
  | some a, some sm =>
    match firstRefusal ((decide (count < 1), .badRequest) :: readableTests s p b), s.driveVolume b with
    | some code, _ => refuse s p tag .readRecords code
    | none, some v =>
      match resolve v (s.drive b).continuation a with
      | .inl code => refuse s p tag .readRecords code
      | .inr t => acceptRead s p tag b v a sm count t
    | none, none => refuse s p tag .readRecords .noVolume
  | _, _ => refuse s p tag .readRecords .badRequest

/-- READ_RECORDS (R142). -/
def execReadRecords (p : Port) (tag bay form stop : Byte) (count : Half) (first k e : Word) (s : State) : Result :=
  request s p tag .readRecords fun s =>
    unlessReleased s p tag .readRecords (bayOf bay) fun s =>
      match bayOf bay with
      | none => refuse s p tag .readRecords .badRequest
      | some b =>
        match bayRefusal s p b with
        | some code => refuse s p tag .readRecords code
        | none => decideRead s p tag b form stop count.toNat first k e

/-! ### VERIFY -/

/-- R157's tests after those of R72, for a form that is one of the three. -/
def verifyTests (s : State) (p : Port) (b : Bay) (f : VerifyForm) : List (Bool × ReplyCode) :=
  [((match f with
    | .range _ n => decide (n = 0)
    | _ => false), .badRequest)]
  ++ readableTests s p b
  ++ [((match f with
    | .range a _ => (s.driveVolume b).any fun v => decide (v.eod.getD 0 ≤ a)
    | _ => false), .beyondData)]

/-- Start and limit block (R158). -/
def verifyRange (v : Volume) : VerifyForm → Nat × Nat
  | .full => (0, v.eod.getD 0)
  | .resume => (v.verifiedTo, v.eod.getD 0)
  | .range a n => (a, min (a + n) (v.eod.getD 0))

/-- A VERIFY accepted: the activity VERIFY, the continuation block absent, the run filled (R157, R158). -/
def acceptVerify (s : State) (p : Port) (tag : Byte) (b : Bay) (v : Volume) (f : VerifyForm) : State :=
  let x := verifyRange v f
  let r : VerifyRun :=
    { phase := .positioning, port := p, tag := some tag, volume := v.label, form := f, start := x.1, limit := x.2,
      eod := v.eod.getD 0, next := x.1, checked := 0, inHand := none, driveFailed := false, ending := none, aborts := [] }
  let s1 := ((setAside s b).setVerify b (some r)).modDrive b fun d => { d with activity := .verify p, continuation := none }
  if x.1 = x.2 then verifyEnds s1 b .done (some x.1) else verifyPosition s1 b

def decideVerify (s : State) (p : Port) (tag : Byte) (b : Bay) (form : Byte) (a n : Word) : State :=
  match verifyFormOf form a n with
  | none => refuse s p tag .verify .badRequest
  | some f =>
    match firstRefusal (verifyTests s p b f), s.driveVolume b with
    | some code, _ => refuse s p tag .verify code
    | none, some v => acceptVerify s p tag b v f
    | none, none => refuse s p tag .verify .noVolume

/-- VERIFY (R157). -/
def execVerify (p : Port) (tag bay form : Byte) (a n : Word) (s : State) : Result :=
  request s p tag .verify fun s =>
    unlessReleased s p tag .verify (bayOf bay) fun s =>
      match bayOf bay with
      | none => refuse s p tag .verify .badRequest
      | some b =>
        match bayRefusal s p b with
        | some code => refuse s p tag .verify code
        | none => decideVerify s p tag b form a n

/-! ### ABORT -/

/-- R122's table, for a bay without a run. -/
def abortStream (s : State) (p : Port) (tag : Byte) (b : Bay) : State :=
  let q : Closing := ⟨p, true, .discard, some tag⟩
  match (s.stream b).state with
  | .opening => s.modStream b fun c => { c with abandoned := true, closing := c.closing ++ [q] }
  | .faulted => answer (closeStream s b) p tag .abort .done
  | .closed => answer s p tag .abort .done
  | _ => discardStream s b q

/-- A run of the port that a link loss ended and that has not closed: "A request naming such a bay is refused DRIVE BUSY until the run
leaves the bay" (R179, R155, R167). Its request's tag is gone. It stays so when the drive faults meanwhile (log entry 71). -/
def State.runLost (s : State) (p : Port) (b : Bay) : Bool :=
  ((s.restore b).any fun r => r.port = p && r.tag.isNone) || ((s.verifyRun b).any fun r => r.port = p && r.tag.isNone)

def Activity.isRestore : Activity → Bool
  | .restore _ => true
  | _ => false

def Activity.isVerify : Activity → Bool
  | .verify _ => true
  | _ => false

/-- The restore run that an ABORT from port p ends: the bay's activity, whosever it is (R122, R154), or a run of p's own that a drive fault
ended and that has not closed. Another port's run of that kind is no part of the bay's work any more (log entry 34). -/
def State.abortsRestore (s : State) (p : Port) (b : Bay) : Bool :=
  (s.restore b).any fun r => (s.drive b).activity.isRestore || r.port = p

/-- The verify run that an ABORT from port p ends, likewise (R122, R166). -/
def State.abortsVerify (s : State) (p : Port) (b : Bay) : Bool :=
  (s.verifyRun b).any fun r => (s.drive b).activity.isVerify || r.port = p

/-- The bay's run ended (R154, R166), or its stream (R122). The ABORT waits in the run context with the port that sent it. -/
def abortBay (s : State) (p : Port) (tag : Byte) (b : Bay) : State :=
  if s.abortsRestore p b then restoreAbort (s.modRestore b fun r => { r with aborts := r.aborts ++ [⟨p, tag⟩] }) b
  else if s.abortsVerify p b then verifyAbort (s.modVerify b fun r => { r with aborts := r.aborts ++ [⟨p, tag⟩] }) b
  else abortStream s p tag b

/-- ABORT (R122): "Its tests of the claim and the bay are those of R72, tests 1 and 2"; and the one of R179. -/
def execAbort (p : Port) (tag bay : Byte) (s : State) : Result :=
  match admission s p tag .abort with
  | .stopped t => finish t
  | .taken t =>
    finishCredit (match bayOf bay with
      | none => refuse t p tag .abort .badRequest
      | some b =>
        if (t.drive b).claim ≠ some p || t.runLost p b then refuse t p tag .abort .driveBusy
        else abortBay t p tag b)

/-! ### Closes -/

/-- A run left behind closes: it goes, and is answered. -/
def closeLeftRestore (s : State) (b : Bay) : State :=
  match (s.restores.get b).left.find? fun r => leftRestoreCloses s b r with
  | some r =>
    answerRestore (s.setRestoreRuns b ⟨s.restore b, (s.restores.get b).left.eraseP fun r => leftRestoreCloses s b r⟩) b r
  | none => s

def closeLeftVerify (s : State) (b : Bay) : State :=
  match (s.verifies.get b).left.find? leftVerifyCloses with
  | some r =>
    answerVerify (s.setVerifyRuns b ⟨s.verifyRun b, (s.verifies.get b).left.eraseP leftVerifyCloses⟩) b r
  | none => s

/-- RESTORE_RUN_CLOSE (R153): the bay's run, or else the oldest left behind that may close. -/
def execRestoreRunClose (b : Bay) (s : State) : Result :=
  match s.restore b with
  | some r => if restoreCloses s b r then finish (closeRestore s b r) else finish (closeLeftRestore s b)
  | none => finish (closeLeftRestore s b)

/-- VERIFY_RUN_CLOSE (R165): likewise. -/
def execVerifyRunClose (b : Bay) (s : State) : Result :=
  match s.verifyRun b with
  | some r => if verifyCloses s b r then finish (closeVerify s b r) else finish (closeLeftVerify s b)
  | none => finish (closeLeftVerify s b)

/-! ### Blocks refused at step 2 of R173 -/

/-- UNKNOWN_REQUEST (R173, R185): a kind the 716 does not know, or a known kind whose body length does not match. -/
def execUnknownRequest (p : Port) (type kind tag : Byte) (body : List Byte) (s : State) : Result :=
  if !(s.port p).up || blockKnown type kind body then .next s
  else match blockKind type kind with
    | some k =>
      if k.tagged then request s p tag k fun s => refuse s p tag k .badRequest
      else finish (queueWriteRefused s p k (body.headD 0xFF) .badRequest none)
    | none => finish (queueLooseBadRequest s p kind tag)

end Sys2Proof.Machine
end

