-- ==== Sys2Proof/Machine/StreamRequests.lean ====
section
/-! DEFINITION. The stream requests (R99, R102 to R106, R113, R119), the commit latency timer (R112), and the stream's own steps
STREAM_CLOSE (R121) and SYNC_ANSWERED (R113). -/

namespace Sys2Proof.Machine

/-! ### OPEN-STREAM (R99) -/

/-- R99's tests after those of R72. -/
def openTests (s : State) (p : Port) (b : Bay) (mode shrink : Byte) (n : Nat) : List (Bool × ReplyCode) :=
  let v := s.driveVolume b
  [ ((flagOf mode).isNone || (flagOf shrink).isNone, .badRequest),
    (v.isNone, .noVolume),
    (v.any fun w => w.owner.isSome && w.owner ≠ some p, .notOwner),
    (v.any (·.writeProtected), .writeProtected),
    (mode = 1 && v.any fun w => decide (w.eod.getD 0 < n), .beyondData) ]

/-- The stream context as an accepted OPEN-STREAM sets it (R99). -/
def openedStream (p : Port) (tag : Byte) (v : Volume) (mode shrink : Byte) (n : Nat) : Stream :=
  let a := if mode = 1 then n else v.eod.getD 0
  { Stream.reset with state := .opening, port := some p, volume := some v.label, shrink := shrink = 1, start := a, nextBlock := a,
                      openTag := some tag, openFrom := if mode = 1 then some n else none }

/-- "The frame count is needed when the mode is FROM n with n below end-of-data". -/
def openNeedsFrame (v : Volume) (mode : Byte) (n : Nat) : Bool := mode = 1 && decide (n < v.eod.getD 0)

/-- An OPEN-STREAM accepted: the drive asked to stand at the start block (R61). -/
def acceptOpen (s : State) (p : Port) (tag : Byte) (b : Bay) (v : Volume) (mode shrink : Byte) (n : Nat) : State :=
  let c := openedStream p tag v mode shrink n
  let s1 := ((setAside s b).modStream b fun _ => c).modDrive b fun d => { d with continuation := none }
  if (s1.drive b).standsAt c.start (openNeedsFrame v mode n) then openingDone s1 b ((s1.drive b).posFrame.getD 0)
  else issueLocate s1 b c.start

/-- OPEN_STREAM (R99). -/
def execOpenStream (p : Port) (tag bay mode shrink : Byte) (n : Word) (s : State) : Result :=
  request s p tag .openStream fun s =>
    unlessReleased s p tag .openStream (bayOf bay) fun s =>
      match bayOf bay with
      | none => refuse s p tag .openStream .badRequest
      | some b =>
        match bayRefusal s p b, firstRefusal (openTests s p b mode shrink n.toNat), s.driveVolume b with
        | some code, _, _ => refuse s p tag .openStream code
        | none, some code, _ => refuse s p tag .openStream code
        | none, none, some v => acceptOpen s p tag b v mode shrink n.toNat
        | none, none, none => refuse s p tag .openStream .noVolume

/-! ### Writes (R102 to R105) -/

/-- A write of the sender's stream refused at test 4 or 5, or by R103: the stream halts (R104). -/
def haltWrite (s : State) (p : Port) (b : Bay) (kind : ReqKind) (stream : Byte) (code : ReplyCode) : State :=
  (queueWriteRefused s p kind stream code (some (s.stream b).nextRecord)).modStream b fun c =>
    { c with state := .writeHalted, refused := 0 }

/-- R105: a write on a stream of the sender's that is not OPEN. -/
def notOpenWrite (s : State) (p : Port) (b : Bay) (kind : ReqKind) (stream : Byte) : State :=
  let c := s.stream b
  match c.state with
  | .writeHalted => s.modStream b fun c => { c with refused := c.refused + 1 }
  | .mediumEnd => queueWriteRefused s p kind stream .endOfMedium (some c.nextRecord)
  | .draining => queueWriteRefused s p kind stream .noStream (some c.nextRecord)
  | .faulted => queueWriteRefused s p kind stream ((c.fault.map (·.reply)).getD .writeFault) (some c.nextRecord)
  | _ => s

/-- A record joins the list with the descriptor that holds it. -/
def joinRecord (s : State) (b : Bay) (kind : RecKind) (len : Nat) (st : RecState) (id : Nat) : State :=
  s.modStream b fun c =>
    { c with records := c.records ++ [⟨c.nextRecord, kind, len, st, none, none, 0, id, none⟩], nextRecord := c.nextRecord + 1 }

/-- An accepted WRITE-RECORD: credit consumed, the record RAW, offered for shrinking, a refill pass (R78, R102, R108). -/
def acceptRecord (s : State) (p : Port) (b : Bay) (kind : RecKind) (raw : List Byte) : State :=
  let id := s.buffer.freshId
  let s1 := onBuffer s fun _ u => u.consume p (unitsFor raw.length) raw
  onBuffer (offerEngine (joinRecord s1 b kind raw.length .raw id) b) settle

/-- The stream a write names, when tests 1 and 2 of R102 pass. -/
def writeStream (s : State) (p : Port) (stream : Byte) : Option Bay := (bayOf stream).filter fun b => (s.stream b).namedBy p

/-- WRITE_RECORD (R102). A DOWN port receives no request (R169). -/
def execWriteRecord (p : Port) (stream kind : Byte) (raw : List Byte) (s : State) : Result :=
  if !(s.port p).up then .next s
  else if (bayOf stream).isNone || (flagOf kind).isNone then
    finish (queueWriteRefused s p .writeRecord stream .badRequest none)
  else match writeStream s p stream with
    | none => finish (queueWriteRefused s p .writeRecord stream .noStream none)
    | some b =>
      if (s.stream b).state ≠ .open then finish (notOpenWrite s p b .writeRecord stream)
      else if raw.isEmpty || Config.maxRecord < raw.length || (kind = 1 && raw.length % 4 ≠ 0) then
        finish (haltWrite s p b .writeRecord stream .badLength)
      else if !windowsHold s.buffer p (unitsFor raw.length) then finish (haltWrite s p b .writeRecord stream .creditOverrun)
      else finish (acceptRecord s p b (if kind = 1 then .index else .data) raw)

/-- The marks a mark must find room beside (R103). -/
def markCount (s : State) (b : Bay) : Nat :=
  (((s.driveVolume b).map (·.marks)).getD []).length + ((s.stream b).records.filter fun r => r.kind = .mark).length

/-- An accepted mark: STORED at once, offered to the bay (R103, R109). -/
def acceptMark (s : State) (p : Port) (b : Bay) : State :=
  let id := s.buffer.freshId
  let s1 := onBuffer s fun _ u => u.consume p 0 []
  onBuffer (offerBlocks (joinRecord s1 b .mark 0 .stored id) b) settle

/-- WRITE_MARK (R103). -/
def execWriteMark (p : Port) (stream : Byte) (s : State) : Result :=
  if !(s.port p).up then .next s
  else if (bayOf stream).isNone then finish (queueWriteRefused s p .writeMark stream .badRequest none)
  else match writeStream s p stream with
    | none => finish (queueWriteRefused s p .writeMark stream .noStream none)
    | some b =>
      if (s.stream b).state ≠ .open then finish (notOpenWrite s p b .writeMark stream)
      else if Config.maxMarks ≤ markCount s b then finish (haltWrite s p b .writeMark stream .setLimit)
      else if !windowsHold s.buffer p 0 then finish (haltWrite s p b .writeMark stream .creditOverrun)
      else finish (acceptMark s p b)

/-! ### Tagged requests on a stream -/

/-- The tests shared by RESUME-STREAM, SYNC and CLOSE-STREAM: BAD REQUEST, then NO STREAM. -/
def onStream (s : State) (p : Port) (tag : Byte) (kind : ReqKind) (stream : Byte) (bad : Bool) (f : State → Bay → State) : State :=
  match bayOf stream with
  | none => refuse s p tag kind .badRequest
  | some b =>
    if bad then refuse s p tag kind .badRequest
    else if (s.stream b).namedBy p then f s b
    else refuse s p tag kind .noStream

/-- The RESUME-STREAM reply's outcome in each state (R106). -/
def resumeCode (c : Stream) : ReplyCode :=
  match c.state with
  | .mediumEnd => .endOfMedium
  | .draining => .noStream
  | .faulted => (c.fault.map (·.reply)).getD .writeFault
  | _ => .done

/-- RESUME_STREAM (R106). -/
def execResumeStream (p : Port) (tag stream : Byte) (s : State) : Result :=
  request s p tag .resumeStream fun s =>
    onStream s p tag .resumeStream stream false fun s b =>
      let c := s.stream b
      let s1 := answer s p tag .resumeStream (resumeCode c) (.resume c.refused c.nextRecord)
      let s2 := s1.modStream b fun c =>
        { c with refused := 0, state := if c.state = .writeHalted then .open else c.state }
      if c.state = .writeHalted then offerEngine s2 b else s2

/-- SYNC (R113). -/
def execSync (p : Port) (tag stream : Byte) (s : State) : Result :=
  request s p tag .sync fun s =>
    onStream s p tag .sync stream false fun s b =>
      let c := s.stream b
      match c.syncOutcome c.nextRecord with
      | some code => answerSync s b tag code
      | none => s.modStream b fun c => { c with syncs := c.syncs ++ [⟨tag, c.nextRecord⟩] }

/-- DRAIN (R119): the stream drains, the request waits. -/
def drainStream (s : State) (b : Bay) (q : Closing) : State :=
  s.modStream b fun c => { c with state := .draining, closing := c.closing ++ [q] }

/-- CLOSE_STREAM (R119, R120). -/
def execCloseStream (p : Port) (tag stream mode : Byte) (s : State) : Result :=
  match admission s p tag .closeStream with
  | .stopped t => finish t
  | .taken t =>
    finishCredit (onStream t p tag .closeStream stream (flagOf mode).isNone fun s b =>
      let q : Closing := ⟨p, false, if mode = 1 then .discard else .drain, some tag⟩
      if (s.stream b).state = .faulted then closeStream (s.modStream b fun c => { c with closing := c.closing ++ [q] }) b
      else if mode = 1 then discardStream s b q
      else drainStream s b q)

/-! ### Timers and the stream's own steps -/

/-- COMMIT_LATENCY_TIMER_EXPIRY (R112): a COMMIT notice, or, the port DOWN, the timer stops with the count kept. -/
def execCommitLatencyTimerExpiry (b : Bay) (s : State) : Result :=
  if !(s.stream b).timer.isRunning then .next s
  else if s.streamUp b then finish (commitNotice s b)
  else finish (s.modStream b fun c => { c with timer := .stopped })

/-- "its record list becomes empty while it is DRAINING"; a gap in flight is awaited (R120, R121). -/
def streamDrained (s : State) (b : Bay) : Bool :=
  (s.stream b).state = .draining && (s.stream b).records.isEmpty && !(s.drive b).gap && (s.drive b).inFlight.isEmpty

/-- STREAM_CLOSE (R121). -/
def execStreamClose (b : Bay) (s : State) : Result := if streamDrained s b then finish (closeStream s b) else .next s

/-- SYNC_ANSWERED (R113): the pending SYNC list tested. -/
def execSyncAnswered (b : Bay) (s : State) : Result := finish (testSyncs s b)

end Sys2Proof.Machine
end

