-- ==== Sys2Proof/Machine/Dispatch.lean ====
section
/-! DEFINITION. The dispatch: one arm for each command of Instr, each one direct call of its meaning. -/

namespace Sys2Proof.Machine

def exec (i : Instr) (s : State) : Host.Outcome State Fault Refusal :=
  match i with
  | .powerOn layout1 layout0 serviceOpen mailOpen => Sys2Proof.Machine.execPowerOn layout1 layout0 serviceOpen mailOpen s
  | .boardReset layout1 layout0 serviceOpen mailOpen => Sys2Proof.Machine.execBoardReset layout1 layout0 serviceOpen mailOpen s
  | .linkUp p => Sys2Proof.Machine.execLinkUp p s
  | .linkDown p => Sys2Proof.Machine.execLinkDown p s
  | .linkReset p => Sys2Proof.Machine.execLinkReset p s
  | .move p tag form srcLea dstLea label => Sys2Proof.Machine.execMove p tag form srcLea dstLea label s
  | .load p tag form srcLea dstLea label => Sys2Proof.Machine.execLoad p tag form srcLea dstLea label s
  | .loadScratch p tag driveLea => Sys2Proof.Machine.execLoadScratch p tag driveLea s
  | .unload p tag driveLea named dstLea => Sys2Proof.Machine.execUnload p tag driveLea named dstLea s
  | .audit p tag => Sys2Proof.Machine.execAudit p tag s
  | .recover p tag gripped => Sys2Proof.Machine.execRecover p tag gripped s
  | .releaseVolume p tag label => Sys2Proof.Machine.execReleaseVolume p tag label s
  | .reportElements p tag firstLea count => Sys2Proof.Machine.execReportElements p tag firstLea count s
  | .reportVolumes p tag form label => Sys2Proof.Machine.execReportVolumes p tag form label s
  | .reportStatus p tag => Sys2Proof.Machine.execReportStatus p tag s
  | .reportSettings p tag => Sys2Proof.Machine.execReportSettings p tag s
  | .configure p tag entries => Sys2Proof.Machine.execConfigure p tag entries s
  | .settingsStoreWriteComplete => Sys2Proof.Machine.execSettingsStoreWriteComplete s
  | .openStream p tag bay mode shrink n => Sys2Proof.Machine.execOpenStream p tag bay mode shrink n s
  | .writeRecord p stream kind data => Sys2Proof.Machine.execWriteRecord p stream kind data s
  | .writeMark p stream => Sys2Proof.Machine.execWriteMark p stream s
  | .resumeStream p tag stream => Sys2Proof.Machine.execResumeStream p tag stream s
  | .sync p tag stream => Sys2Proof.Machine.execSync p tag stream s
  | .closeStream p tag stream mode => Sys2Proof.Machine.execCloseStream p tag stream mode s
  | .readRecords p tag bay form stop count first k e => Sys2Proof.Machine.execReadRecords p tag bay form stop count first k e s
  | .verify p tag bay form a n => Sys2Proof.Machine.execVerify p tag bay form a n s
  | .abort p tag bay => Sys2Proof.Machine.execAbort p tag bay s
  | .unknownRequest p type kind tag body => Sys2Proof.Machine.execUnknownRequest p type kind tag body s
  | .fetchComplete gripped label => Sys2Proof.Machine.execFetchComplete gripped label s
  | .carryComplete => Sys2Proof.Machine.execCarryComplete s
  | .placeComplete obstructed => Sys2Proof.Machine.execPlaceComplete obstructed s
  | .homingComplete => Sys2Proof.Machine.execHomingComplete s
  | .auditSlotReading reading => Sys2Proof.Machine.execAuditSlotReading reading s
  | .motionTimerExpiry => Sys2Proof.Machine.execMotionTimerExpiry s
  | .serviceDoorOpen => Sys2Proof.Machine.execServiceDoorOpen s
  | .serviceDoorClosed => Sys2Proof.Machine.execServiceDoorClosed s
  | .mailDoorOpen => Sys2Proof.Machine.execMailDoorOpen s
  | .mailDoorClosed => Sys2Proof.Machine.execMailDoorClosed s
  | .pickerTakeWork => Sys2Proof.Machine.execPickerTakeWork s
  | .owedUnloadQueued => Sys2Proof.Machine.execOwedUnloadQueued s
  | .threaded bay cls writeProtected => Sys2Proof.Machine.execThreaded bay cls writeProtected s
  | .threadFault bay => Sys2Proof.Machine.execThreadFault bay s
  | .ejected bay => Sys2Proof.Machine.execEjected bay s
  | .status bay present label threaded cls writeProtected => Sys2Proof.Machine.execStatus bay present label threaded cls writeProtected s
  | .located bay block frame => Sys2Proof.Machine.execLocated bay block frame s
  | .blank bay => Sys2Proof.Machine.execBlank bay s
  | .committed bay block => Sys2Proof.Machine.execCommitted bay block s
  | .writeFault bay block => Sys2Proof.Machine.execWriteFault bay block s
  | .gapDone bay => Sys2Proof.Machine.execGapDone bay s
  | .data bay block header stored => Sys2Proof.Machine.execData bay block header stored s
  | .readFault bay block => Sys2Proof.Machine.execReadFault bay block s
  | .fault bay => Sys2Proof.Machine.execFault bay s
  | .replyTimerExpiry bay => Sys2Proof.Machine.execReplyTimerExpiry bay s
  | .shrinkComplete => Sys2Proof.Machine.execShrinkComplete s
  | .expandDeliverComplete => Sys2Proof.Machine.execExpandDeliverComplete s
  | .expandCheckComplete => Sys2Proof.Machine.execExpandCheckComplete s
  | .engineTakeItem => Sys2Proof.Machine.execEngineTakeItem s
  | .readAllocationComplete bay => Sys2Proof.Machine.execReadAllocationComplete bay s
  | .expandAllocationComplete bay => Sys2Proof.Machine.execExpandAllocationComplete bay s
  | .verifyReservationMet => Sys2Proof.Machine.execVerifyReservationMet s
  | .frameSent p => Sys2Proof.Machine.execFrameSent p s
  | .commitLatencyTimerExpiry bay => Sys2Proof.Machine.execCommitLatencyTimerExpiry bay s
  | .claimHoldTimerExpiry p => Sys2Proof.Machine.execClaimHoldTimerExpiry p s
  | .unloadOwedMark bay => Sys2Proof.Machine.execUnloadOwedMark bay s
  | .streamClose bay => Sys2Proof.Machine.execStreamClose bay s
  | .syncAnswered bay => Sys2Proof.Machine.execSyncAnswered bay s
  | .restoreRunClose bay => Sys2Proof.Machine.execRestoreRunClose bay s
  | .verifyRunClose bay => Sys2Proof.Machine.execVerifyRunClose bay s

end Sys2Proof.Machine
end

