-- ==== Sys2Proof/Safety.lean ====
section
/-! DEFINITION. What the spec says of every state of the part, in the terms the statements use: the tables (R7, R12), the law of
the segment buffer (R76), and a port's traffic. -/

namespace Sys2Proof.Machine

/-! ### The element and volume tables (R1, R7, R12) -/

/-- Labels strictly ascending: so "no two records carry the same label" (R12), and R18 lists them in order. -/
def labelsAscend : List Volume → Prop
  | [] => True
  | v :: rest => (∀ w ∈ rest, v.label.code.toNat < w.label.code.toNat) ∧ labelsAscend rest

/-- One entry for each element installed at the strap value, in order (R7), and at most 64 volume records, no two alike (R12). -/
def State.tablesHold (s : State) : Prop :=
  s.elements.map (·.pea) = installedPeas s.strap ∧ labelsAscend s.store.volumes ∧ s.store.volumes.length ≤ Config.maxVolumes

/-! ### The law of the segment buffer (R76) -/

/-- The units of an origin: FREE, GRANTED and HELD together. -/
def Buffer.unitsIn (b : Buffer) (o : Origin) : Nat :=
  match o with
  | .writeHome p => (b.share.get p).writeFree + (b.share.get p).writeGranted + b.heldUnits o
  | .readHome p => (b.share.get p).readFree + b.heldUnits o
  | .pool => b.poolFree + (b.share.p0.poolGranted + b.share.p1.poolGranted + b.share.p2.poolGranted) + b.heldUnits o
  | .internal => b.internalFree + b.heldUnits o

/-- The descriptors of an origin: FREE, GRANTED and HELD together. -/
def Buffer.descsIn (b : Buffer) (o : Origin) : Nat :=
  match o with
  | .writeHome p => (b.share.get p).descWriteFree + (b.share.get p).descWriteGranted + b.heldDescs o
  | .readHome p => (b.share.get p).descReadFree + b.heldDescs o
  | .pool =>
    b.descPoolFree + (b.share.p0.descPoolGranted + b.share.p1.descPoolGranted + b.share.p2.descPoolGranted) + b.heldDescs o
  | .internal => b.descInternalFree + b.heldDescs o

/-- R76: "for every origin ... the units of that origin that are FREE, GRANTED and HELD together equal the origin's allotment";
"the descriptors of each origin likewise". -/
def Buffer.lawful (b : Buffer) (st : Settings) : Prop :=
  ∀ o, b.unitsIn o = st.unitAllotment o ∧ b.descsIn o = st.descAllotment o

/-- The law but for `du o` units and `dd o` descriptors of each origin, which are in none of the three states the buffer holds. -/
def Buffer.owes (b : Buffer) (st : Settings) (du dd : Origin → Nat) : Prop :=
  ∀ o, b.unitsIn o + du o = st.unitAllotment o ∧ b.descsIn o + dd o = st.descAllotment o

/-- What a settings write in progress has set aside of an origin (log entry 12). -/
def State.asideUnits (s : State) (o : Origin) : Nat :=
  match s.storeWrite with
  | some q => movedUnits s.settings (s.settings.with q.entries) o
  | none => 0
def State.asideDescs (s : State) (o : Origin) : Nat :=
  match s.storeWrite with
  | some q => movedDescs s.settings (s.settings.with q.entries) o
  | none => 0

/-- The law of the allotments in the store, with what a write in progress has set aside counted in, and allotments that fit the buffer
(R94), those being written among them. -/
def State.creditHolds (s : State) : Prop :=
  sumsHeld s.settings = true ∧ s.buffer.owes s.settings s.asideUnits s.asideDescs
    ∧ ∀ q, s.storeWrite = some q → sumsHeld (s.settings.with q.entries) = true

/-! ### A port's traffic -/

/-- A tagged request will be taken: its port is UP and its tag is one of the 8 and free (R169, R173). -/
def State.takes (s : State) (p : Port) (tag : Byte) : Prop :=
  (s.port p).up = true ∧ tag.toNat ≤ 7 ∧ (s.port p).tagKind tag = none

/-! ### Ranges: what every port, the move queue and the pointer stay within -/

/-- The 8 tags of a port (R173); and on a DOWN port no tag open, no reply or notice waiting, no data frame waiting, nothing being
sent (R170). -/
def PortCtl.inRange (c : PortCtl) : Prop :=
  c.tags.length = 8 ∧ (c.up = false → (∀ x : Byte, c.tagKind x = none) ∧ c.control = [] ∧ c.frames = [] ∧ c.sending = none)

/-- The places of the move queue (R33), and the next move number. -/
def Picker.inRange (k : Picker) : Prop :=
  k.nextMove < 256 ∧ k.portEntries ≤ Config.portPlaces ∧ k.internalEntries ≤ Config.internalPlaces
    ∧ (k.queue.filter fun e => e.kind = .recover).length ≤ 1

/-- Every port and the queue within their ranges, and the scratch pointer "0 to n − 1" over the n shared slots, 0 when there is none
(R19). -/
def State.inRange (s : State) : Prop :=
  (∀ p, (s.port p).inRange) ∧ s.picker.inRange
    ∧ (0 < (sharedSlots s).length → s.scratchPointer < (sharedSlots s).length)
    ∧ ((sharedSlots s).length = 0 → s.scratchPointer = 0)

/-! ### Requests and replies, as the statements name them -/

/-- The port, tag and kind of a request that carries a tag (R173). -/
def tagOf (c : Instr) : Option (Port × Byte × ReqKind) :=
  match c with
  | .move p tag _ _ _ _ => some (p, tag, .move)
  | .load p tag _ _ _ _ => some (p, tag, .load)
  | .loadScratch p tag _ => some (p, tag, .loadScratch)
  | .unload p tag _ _ _ => some (p, tag, .unload)
  | .audit p tag => some (p, tag, .audit)
  | .recover p tag _ => some (p, tag, .recover)
  | .releaseVolume p tag _ => some (p, tag, .releaseVolume)
  | .reportElements p tag _ _ => some (p, tag, .reportElements)
  | .reportVolumes p tag _ _ => some (p, tag, .reportVolumes)
  | .reportStatus p tag => some (p, tag, .reportStatus)
  | .reportSettings p tag => some (p, tag, .reportSettings)
  | .configure p tag _ => some (p, tag, .configure)
  | .openStream p tag _ _ _ _ => some (p, tag, .openStream)
  | .resumeStream p tag _ => some (p, tag, .resumeStream)
  | .sync p tag _ => some (p, tag, .sync)
  | .closeStream p tag _ _ => some (p, tag, .closeStream)
  | .readRecords p tag _ _ _ _ _ _ _ => some (p, tag, .readRecords)
  | .verify p tag _ _ _ _ => some (p, tag, .verify)
  | .abort p tag _ => some (p, tag, .abort)
  | _ => none

/-- The one reply to a tagged request on its newly opened tag, and nothing else but the links going on (R173, R176). -/
def State.replied (s : State) (p : Port) (tag : Byte) (kind : ReqKind) (code : ReplyCode) (body : ReplyBody := .none)
    (clamped : Bool := false) : State :=
  pump (answer (openTag s p tag kind) p tag kind code body clamped)

/-- The reply is on its way at port p: being sent, or waiting in the reply queue (R174, R176). -/
def State.sends (s : State) (p : Port) (r : Reply) : Prop :=
  (s.port p).sending = some (.control (.reply r)) ∨ .reply r ∈ (s.port p).control

/-- The reply that completes the move of an entry with an outcome other than DONE (R41, Table 10-4). -/
def moveFailure (e : MoveEntry) (tag : Byte) (code : ReplyCode) : Reply :=
  ⟨e.kind.request.code, tag, code, false, .move e.number none (if e.kind = .scratchLoad then e.expected else none), true⟩

/-- The entry's place is free: only an internal entry queued since may bear its number. -/
def entryGone (t : State) (e : MoveEntry) : Prop := ∀ x ∈ t.picker.queue, x.number = e.number → x.requester = .internal

/-! ### The mail door -/

/-- Every mail slot UNKNOWN, its label the one last known, and every record located at one UNKNOWN; nothing else of either table
changed (R11, R46). -/
def mailSlotsUnknown (s t : State) : Prop :=
  (∀ q ∈ mailSlots s.strap, ∀ x, s.elemState q = some x → t.elemState q = some (.unknown x.anyLabel))
    ∧ (∀ q, q ∉ mailSlots s.strap → t.element q = s.element q)
    ∧ t.store = { s.store with volumes := s.store.volumes.map fun v =>
        match v.location with
        | .element q => if q ∈ mailSlots s.strap then { v with location := .unknown } else v
        | _ => v }

/-! ### Forms the statements share -/

/-- The state but for the port controllers. -/
def State.exceptPorts (s t : State) : State := { s with ports := t.ports }

/-! ### What each command leaves alone -/

/-- t with the blocks of the state that command c may change put back as they stand in s: where this is s, c changed nothing else. -/
def putBack (c : Instr) (s t : State) : State :=
  match c with
  | .powerOn .. | .boardReset .. =>
    { s with pending := t.pending }
  | .linkUp .. =>
    { t with buffer := s.buffer, ports := s.ports }
  | .linkDown .. | .linkReset .. =>
    { t with storeWrite := s.storeWrite, configWaiting := s.configWaiting, releaseWrites := s.releaseWrites, elements := s.elements, picker := s.picker,
             drives := s.drives, buffer := s.buffer, streams := s.streams, engine := s.engine, restores := s.restores,
             verifies := s.verifies, ports := s.ports }
  | .move .. | .unload .. | .owedUnloadQueued | .claimHoldTimerExpiry .. | .unloadOwedMark .. =>
    { t with elements := s.elements, picker := s.picker, ports := s.ports }
  | .load .. | .motionTimerExpiry =>
    { t with elements := s.elements, picker := s.picker, drives := s.drives, ports := s.ports }
  | .loadScratch .. =>
    { t with elements := s.elements, scratchPointer := s.scratchPointer, picker := s.picker, drives := s.drives,
             ports := s.ports }
  | .audit .. | .carryComplete =>
    { t with picker := s.picker, ports := s.ports }
  | .recover .. =>
    { t with store := s.store, elements := s.elements, picker := s.picker, ports := s.ports }
  | .releaseVolume .. =>
    { t with store := s.store, releaseWrites := s.releaseWrites, elements := s.elements, ports := s.ports }
  | .reportElements .. | .reportVolumes .. | .reportStatus .. | .reportSettings .. | .unknownRequest .. =>
    { t with ports := s.ports }
  | .configure .. =>
    { t with storeWrite := s.storeWrite, configWaiting := s.configWaiting, buffer := s.buffer, ports := s.ports }
  | .settingsStoreWriteComplete =>
    { t with store := s.store, storeWrite := s.storeWrite, configWaiting := s.configWaiting, releaseWrites := s.releaseWrites,
             elements := s.elements,
             scratchPointer := s.scratchPointer, buffer := s.buffer, ports := s.ports }
  | .openStream .. =>
    { t with store := s.store, drives := s.drives, streams := s.streams, restores := s.restores, verifies := s.verifies,
             ports := s.ports }
  | .writeRecord .. =>
    { t with buffer := s.buffer, streams := s.streams, engine := s.engine, ports := s.ports }
  | .writeMark .. | .closeStream .. | .shrinkComplete =>
    { t with drives := s.drives, buffer := s.buffer, streams := s.streams, engine := s.engine, ports := s.ports }
  | .resumeStream .. =>
    { t with streams := s.streams, engine := s.engine, ports := s.ports }
  | .sync .. | .commitLatencyTimerExpiry .. | .syncAnswered .. =>
    { t with streams := s.streams, ports := s.ports }
  | .readRecords .. =>
    { t with drives := s.drives, buffer := s.buffer, engine := s.engine, restores := s.restores, verifies := s.verifies,
             ports := s.ports }
  | .verify .. =>
    { t with drives := s.drives, buffer := s.buffer, restores := s.restores, verifies := s.verifies, ports := s.ports }
  | .verifyReservationMet =>
    { t with drives := s.drives, buffer := s.buffer, verifies := s.verifies, ports := s.ports }
  | .abort .. | .blank .. =>
    { t with drives := s.drives, buffer := s.buffer, streams := s.streams, engine := s.engine, restores := s.restores,
             verifies := s.verifies, ports := s.ports }
  | .fetchComplete .. | .placeComplete .. | .homingComplete | .auditSlotReading .. | .pickerTakeWork | .threaded ..
  | .ejected .. | .status .. =>
    { t with store := s.store, elements := s.elements, picker := s.picker, drives := s.drives, ports := s.ports }
  | .serviceDoorOpen =>
    { t with serviceOpen := s.serviceOpen, picker := s.picker, ports := s.ports }
  | .serviceDoorClosed =>
    { t with serviceOpen := s.serviceOpen, store := s.store, elements := s.elements, picker := s.picker, drives := s.drives,
             ports := s.ports }
  | .mailDoorOpen =>
    { t with mailOpen := s.mailOpen, store := s.store, elements := s.elements, picker := s.picker, ports := s.ports }
  | .mailDoorClosed =>
    { t with mailOpen := s.mailOpen, store := s.store, elements := s.elements, picker := s.picker, drives := s.drives,
             ports := s.ports }
  | .threadFault .. =>
    { t with store := s.store, picker := s.picker, drives := s.drives, ports := s.ports }
  | .located .. | .committed .. | .writeFault .. | .data .. | .fault .. | .replyTimerExpiry .. =>
    { t with store := s.store, elements := s.elements, picker := s.picker, drives := s.drives, buffer := s.buffer,
             streams := s.streams, engine := s.engine, restores := s.restores, verifies := s.verifies, ports := s.ports }
  | .gapDone .. =>
    { t with store := s.store, drives := s.drives, buffer := s.buffer, streams := s.streams, engine := s.engine,
             ports := s.ports }
  | .readFault .. =>
    { t with drives := s.drives, buffer := s.buffer, engine := s.engine, restores := s.restores, verifies := s.verifies,
             ports := s.ports }
  | .expandDeliverComplete =>
    { t with store := s.store, buffer := s.buffer, engine := s.engine, restores := s.restores, ports := s.ports }
  | .expandCheckComplete =>
    { t with store := s.store, drives := s.drives, buffer := s.buffer, engine := s.engine, restores := s.restores,
             verifies := s.verifies, ports := s.ports }
  | .engineTakeItem =>
    { t with engine := s.engine, restores := s.restores, ports := s.ports }
  | .readAllocationComplete .. =>
    { t with drives := s.drives, buffer := s.buffer, restores := s.restores, ports := s.ports }
  | .expandAllocationComplete .. =>
    { t with buffer := s.buffer, engine := s.engine, restores := s.restores, ports := s.ports }
  | .frameSent .. =>
    { t with drives := s.drives, buffer := s.buffer, streams := s.streams, engine := s.engine, restores := s.restores,
             ports := s.ports }
  | .streamClose .. =>
    { t with drives := s.drives, streams := s.streams, ports := s.ports }
  | .restoreRunClose .. =>
    { t with drives := s.drives, restores := s.restores, ports := s.ports }
  | .verifyRunClose .. =>
    { t with drives := s.drives, verifies := s.verifies, ports := s.ports }

/-- The bay a command is for: the bay that reports, or the bay or stream a request names. -/
def bayNamed (c : Instr) : Option Bay :=
  match c with
  | .threaded b .. | .threadFault b | .ejected b | .status b .. | .located b .. | .blank b | .committed b _ | .writeFault b _
  | .gapDone b | .data b .. | .readFault b _ | .fault b | .replyTimerExpiry b | .readAllocationComplete b
  | .expandAllocationComplete b | .commitLatencyTimerExpiry b | .unloadOwedMark b | .streamClose b | .syncAnswered b
  | .restoreRunClose b | .verifyRunClose b => some b
  | .openStream _ _ x .. | .readRecords _ _ x .. | .verify _ _ x .. | .abort _ _ x | .writeRecord _ x .. | .writeMark _ x
  | .resumeStream _ _ x | .sync _ _ x | .closeStream _ _ x _ => bayOf x
  | _ => none

end Sys2Proof.Machine
end

