-- ==== Sys2Proof/Certificates/Slice0/Obligations.lean ====
section
/-! DEFINITION. The statements for the provers. -/

open Sys2Proof Sys2Proof.Machine

/-! ### The machine -/

/-- The command at the front of the queue is the one carried out, with the queue's rest. -/
def Obligations.StepRunsFrontCommand : Prop :=
  ∀ (c : Instr) (rest : List Instr) (s : State), s.pending = c :: rest → step s = exec c { s with pending := rest }

/-- The model's choice (log entry 2): on an empty queue one millisecond passes. Each of the eight timers, those of the picker, the two
drives, the two streams and the three ports, ticks: a running one loses one millisecond, and stays at 0 once there; a stopped or held
one stands. Nothing else changes. -/
def Obligations.EmptyQueuePassesOneMillisecond : Prop :=
  ∀ s : State, s.pending = [] → ∃ t, step s = .next t
    ∧ t.picker.timer = s.picker.timer.tick ∧ (∀ b, (t.drive b).timer = (s.drive b).timer.tick)
    ∧ (∀ b, (t.stream b).timer = (s.stream b).timer.tick) ∧ (∀ p, (t.port p).claimTimer = (s.port p).claimTimer.tick)
    ∧ (∀ n, Timer.tick (.running (n + 1)) = .running n) ∧ Timer.tick (.running 0) = .running 0
    ∧ (∀ n, Timer.tick (.held n) = .held n) ∧ Timer.tick .stopped = .stopped
    ∧ { t with picker := s.picker, drives := s.drives, streams := s.streams, ports := s.ports } = s
    ∧ { t.picker with timer := s.picker.timer } = s.picker
    ∧ (∀ b, { t.drive b with timer := (s.drive b).timer } = s.drive b)
    ∧ (∀ b, { t.stream b with timer := (s.stream b).timer } = s.stream b)
    ∧ (∀ p, { t.port p with claimTimer := (s.port p).claimTimer } = s.port p)

/-- No command faults or is refused, in any state, and none touches the commands that wait. That a command whose condition does not
stand completes is log entry 4, and that POWER_ON and BOARD_RESET leave the waiting commands alone is log entry 38. -/
def Obligations.EveryCommandCompletes : Prop :=
  ∀ (c : Instr) (s : State), ∃ t, exec c s = .next t ∧ t.pending = s.pending

/-- What each command leaves alone, block by block of the state: with the blocks it may change put back, the state is as it was. No
command but a reset and the completion of a settings write changes a setting. For the two resets it says only that the commands that
wait are kept, which is the model's choice (log entry 38). -/
def Obligations.EachCommandKeepsToItsBlocks : Prop :=
  ∀ (c : Instr) (s t : State), exec c s = .next t → putBack c s t = s
    ∧ ((∀ a b d e, c ≠ .powerOn a b d e ∧ c ≠ .boardReset a b d e) → c ≠ .settingsStoreWriteComplete → t.settings = s.settings)

/-- A command for one bay leaves the other bay's stream, its runs and its items on offer to the engine as they were. -/
def Obligations.OtherBayUntouched : Prop :=
  ∀ (c : Instr) (b : Bay) (s t : State), bayNamed c = some b → exec c s = .next t →
    t.stream b.other = s.stream b.other ∧ t.restores.get b.other = s.restores.get b.other
      ∧ t.verifies.get b.other = s.verifies.get b.other ∧ t.offered b.other = s.offered b.other
      ∧ t.engine.behind.get b.other = s.engine.behind.get b.other

/-- Every step keeps the element table at one entry for each installed element, in order (R7), and the volume table in label
order, with no label twice and at most 64 records (R12). -/
def Obligations.TablesKept : Prop := ∀ s t : State, s.tablesHold → step s = .next t → t.tablesHold

/-- Every step keeps the law of the segment buffer: for every origin FREE, GRANTED and HELD together are its allotment, of units and
of descriptors (R76), and the allotments fit the buffer (R94). While a settings write goes on, what its movement will take from an origin
is set aside, and counts with that origin (log entry 12). -/
def Obligations.BufferLawKept : Prop := ∀ s t : State, s.creditHolds → step s = .next t → t.creditHolds

/-- Every step keeps each port's 8 tags (R173), a DOWN port with no tag open, no data frame and nothing else to send (R170), the move
queue within its places with its next number a byte (R33), and the scratch pointer below the count of the shared slots, or 0 when
there is none (R19, R20). -/
def Obligations.RangesKept : Prop := ∀ s t : State, s.inRange → step s = .next t → t.inRange

/-- All three hold at reset, the model's State.reset: power-on with strap value 0, closed doors and a store never written (log
entry 5). -/
def Obligations.InvariantsAtReset : Prop := State.reset.tablesHold ∧ State.reset.creditHolds ∧ State.reset.inRange

/-- What reset leaves, from the spec: every entry UNKNOWN, every bay EMPTY, every stream CLOSED with its counts 0, the engine free with
D1 last served, no run, every port DOWN, an empty table and every default setting of Table 9-2, the homing under way, and the buffer
laid out from the settings with nothing granted or held. The strap value 0 and the closed doors of State.reset are the model's choice
(log entry 5), as the cumulative counts 0 of the buffer are (log entry 8). -/
def Obligations.ResetValues : Prop :=
  State.reset.strap = 0 ∧ State.reset.serviceOpen = false ∧ State.reset.mailOpen = false
  ∧ State.reset.elements = (installedPeas 0).map (fun q => ⟨q, .unknown none, none⟩)
  ∧ State.reset.store.volumes = [] ∧ State.reset.store.exportCounter = 0
  ∧ State.reset.settings = { partition := List.replicate 8 .shared, writeUnits := ⟨192, 192, 192⟩, readUnits := ⟨128, 128, 128⟩,
                             writeDescs := ⟨20, 20, 20⟩, weight := ⟨1, 1, 1⟩, threshold := 75, commitCount := some 16,
                             commitLatency := 200, motionLimit := 20, claimHold := 60, margin := 1000000 }
  ∧ State.reset.scratchPointer = 0 ∧ State.reset.picker.condition = .auditing ∧ State.reset.picker.motion = some .homing
  ∧ State.reset.picker.queue = [] ∧ State.reset.storeWrite = none ∧ State.reset.configWaiting = [] ∧ State.reset.releaseWrites = []
  ∧ (∀ b, State.reset.drive b = ⟨.empty, none, none, .none, none, none, [], false, none, .stopped⟩)
  ∧ (∀ b, (State.reset.stream b).state = .closed ∧ (State.reset.stream b).records = [] ∧ (State.reset.stream b).timer = .stopped
      ∧ (State.reset.stream b).nextRecord = 0 ∧ (State.reset.stream b).unreported = 0 ∧ (State.reset.stream b).refused = 0
      ∧ (State.reset.stream b).discarded = 0 ∧ (State.reset.stream b).closing = [] ∧ (State.reset.stream b).syncs = [])
  ∧ (∀ b, State.reset.restore b = none ∧ State.reset.verifyRun b = none)
  ∧ State.reset.engine.inHand = none ∧ State.reset.engine.offer = .all none ∧ State.reset.engine.behind = .all []
  ∧ State.reset.engine.lastServed = .d1
  ∧ (∀ p, State.reset.port p = ⟨false, List.replicate 8 none, [], [], none, .stopped, PerBay.all false, [], 0⟩)
  ∧ State.reset.buffer.turnPort = .p0 ∧ State.reset.buffer.turnCount = 0 ∧ State.reset.buffer.descTurn = .p0
  ∧ State.reset.buffer.descs = [] ∧ State.reset.buffer.allocs = [] ∧ State.reset.buffer.verifyWaiting = []
  ∧ (∀ p, State.reset.buffer.share.get p = { writeFree := 192, writeGranted := 0, poolGranted := 0, readFree := 128,
                                             descWriteFree := 20, descWriteGranted := 0, descPoolGranted := 0, descReadFree := 4,
                                             cumUnits := 0, cumDescs := 0 })
  ∧ State.reset.buffer.poolFree = 1024 ∧ State.reset.buffer.internalFree = 64 ∧ State.reset.buffer.descPoolFree = 168
  ∧ State.reset.buffer.descInternalFree = 16

/-- POWER_ON and BOARD_RESET: the straps sampled and the tables rebuilt, every block at its reset, the store kept but for the
locations that R12 sets to UNKNOWN; the pointer 0, or kept by a board reset that leaves it below the count of shared slots, also where
a settings write is cut short (log entry 10, which says too which settings the store then holds; log entry 44 says it of a release). The reset values of the streams and
of the buffer's counts are those of log entry 8, and that the waiting commands stay is log entry 38. -/
def Obligations.ResetsRebuild : Prop :=
  ∀ (l1 l0 serviceOpen mailOpen : Bool) (s : State), ∃ t u,
    exec (.powerOn l1 l0 serviceOpen mailOpen) s = .next t ∧ exec (.boardReset l1 l0 serviceOpen mailOpen) s = .next u
    ∧ t.strap = 2 * l1.toNat + l0.toNat ∧ t.serviceOpen = serviceOpen ∧ t.mailOpen = mailOpen
    ∧ t.elements = (installedPeas t.strap).map (fun q => ⟨q, .unknown none, none⟩) ∧ t.scratchPointer = 0
    ∧ t.store.exportCounter = s.store.exportCounter
    ∧ ((s.storeWrite = none ∨ ∃ r rest, s.releaseWrites = r :: rest ∧ r.behind = false) → t.store.settings = s.store.settings)
    ∧ (∀ q, s.storeWrite = some q → t.store.settings = s.store.settings ∨ t.store.settings = s.settings.with q.entries)
    ∧ (s.releaseWrites = [] → t.store.volumes = s.store.volumes.map (fun v => { v with location :=
        match v.location with
        | .outside n => .outside n
        | _ => .unknown }))
    ∧ ((t.store.volumes.map fun v => (v.label, v.home, v.cls, v.writeProtected, v.softErrors, v.hardErrors))
        = s.store.volumes.map fun v => (v.label, v.home, v.cls, v.writeProtected, v.softErrors, v.hardErrors))
    ∧ t.buffer = .layout t.store.settings ∧ t.drives = State.reset.drives ∧ t.streams = State.reset.streams ∧ t.engine = .reset
    ∧ t.restores = .all ⟨none, []⟩ ∧ t.verifies = .all ⟨none, []⟩ ∧ t.ports = State.reset.ports ∧ t.storeWrite = none ∧ t.configWaiting = []
    ∧ t.releaseWrites = [] ∧ t.picker.queue = [] ∧ t.picker.condition = (if serviceOpen then .serviceDoor else .auditing)
    ∧ t.picker.motion = (if serviceOpen then none else some .homing) ∧ t.pending = s.pending
    ∧ (s.picker.state ≠ .disabled → { u with scratchPointer := 0 } = t)
    ∧ (s.scratchPointer < (sharedSlots t).length → u.scratchPointer = s.scratchPointer)
    ∧ ((sharedSlots t).length ≤ s.scratchPointer → u.scratchPointer = 0)
    ∧ (s.picker.state = .disabled → u.picker.state = .disabled ∧ u.picker.condition = .pickerDisabled ∧ u.picker.motion = none
        ∧ { u with scratchPointer := 0, picker := t.picker } = t)

/-- Commands whose condition does not stand change nothing: link reports that say nothing new, replies that match no order, reports of
no motion, and the expiry of a timer that does not run. For FRAME_SENT, the engine's own commands and SETTINGS_STORE_WRITE_COMPLETE
this is log entry 4 (which writes the store makes is log entry 44), and for the expiries log entry 3. -/
def Obligations.UnfoundedReportsIgnored : Prop :=
  ∀ (s : State) (p : Port) (b : Bay),
    ((s.port p).up = true → exec (.linkUp p) s = .next s) ∧ ((s.port p).up = false → exec (.linkDown p) s = .next s)
    ∧ ((s.port p).sending = none → exec (.frameSent p) s = .next s)
    ∧ ((s.port p).claimTimer.isRunning = false → exec (.claimHoldTimerExpiry p) s = .next s)
    ∧ ((s.drive b).order ≠ some .thread → (∀ c w, exec (.threaded b c w) s = .next s) ∧ exec (.threadFault b) s = .next s)
    ∧ ((∀ x, (s.drive b).order ≠ some (.unthread x)) → exec (.ejected b) s = .next s)
    ∧ ((s.drive b).order ≠ some .query → ∀ pr l th c w, exec (.status b pr l th c w) s = .next s)
    ∧ ((s.drive b).order = none → (∀ n f, exec (.located b n f) s = .next s) ∧ exec (.blank b) s = .next s
        ∧ (∀ n h x, exec (.data b n h x) s = .next s) ∧ ∀ n, exec (.readFault b n) s = .next s)
    ∧ (∀ n, ((s.drive b).inFlight.all fun f => f.block ≠ n) = true →
        exec (.committed b n) s = .next s ∧ exec (.writeFault b n) s = .next s)
    ∧ ((s.drive b).gap = false → exec (.gapDone b) s = .next s)
    ∧ ((s.drive b).owes = false → exec (.fault b) s = .next s)
    ∧ ((s.drive b).timer.isRunning = false → exec (.replyTimerExpiry b) s = .next s)
    ∧ ((s.stream b).timer.isRunning = false → exec (.commitLatencyTimerExpiry b) s = .next s)
    ∧ (s.picker.timer.isRunning = false → exec .motionTimerExpiry s = .next s)
    ∧ (s.picker.motion = none → (∀ g l, exec (.fetchComplete g l) s = .next s) ∧ exec .carryComplete s = .next s
        ∧ (∀ o, exec (.placeComplete o) s = .next s) ∧ exec .homingComplete s = .next s
        ∧ ∀ r, exec (.auditSlotReading r) s = .next s)
    ∧ (s.engine.inHand = none → exec .shrinkComplete s = .next s ∧ exec .expandDeliverComplete s = .next s
        ∧ exec .expandCheckComplete s = .next s)
    ∧ (s.engine.inHand.isSome = true → exec .engineTakeItem s = .next s)
    ∧ (s.storeWrite = none → s.releaseWrites = [] → exec .settingsStoreWriteComplete s = .next s)

/-! ### Addresses, the scratch choice and readings -/

/-- R5 and R6 are inverse. The element an LEA decodes to is installed and visible, and translates back to that LEA; an element visible to
the port has an LEA that decodes to it, and one that is not has none. -/
def Obligations.ElementAddressesInvert : Prop :=
  ∀ (s : State) (p : Port), s.elements.map (·.pea) = installedPeas s.strap →
    (∀ lea q, decodeLea s p lea = some q → s.installed q = true ∧ s.visible p q = true ∧ encodeLea s p q = some lea)
    ∧ ∀ q, (s.visible p q = true → ∃ lea, encodeLea s p q = some lea ∧ decodeLea s p lea = some q)
      ∧ (s.visible p q = false → encodeLea s p q = none)

/-- The scratch choice: the first slot from the pointer on, in the cyclic order of the shared slots, that meets the four conditions;
none when no slot does; and the pointer after the choice stands at a shared slot. -/
def Obligations.ScratchChoiceIsFirstReady : Prop :=
  ∀ s : State, s.scratchPointer ≤ (sharedSlots s).length →
    (chooseScratch s = none → ∀ q ∈ sharedSlots s, scratchReady s q = false)
    ∧ ∀ k q, chooseScratch s = some (k, q) →
      (sharedSlots s)[k]? = some q ∧ scratchReady s q = true ∧ scratchAfter s k < (sharedSlots s).length
      ∧ ∀ j r, (sharedSlots s)[j]? = some r → scratchReady s r = true →
        (if s.scratchPointer ≤ k then k - s.scratchPointer else k + (sharedSlots s).length - s.scratchPointer)
          ≤ (if s.scratchPointer ≤ j then j - s.scratchPointer else j + (sharedSlots s).length - s.scratchPointer)

/-- Whatever label is read at an element, no record of another label is left located there (R12, R22): every such record loses its
place at every kind of reading (log entry 19). -/
def Obligations.ReadingLeavesOneRecord : Prop :=
  ∀ (s : State) (pea : Nat) (read : Option Label) (readDone : List Nat),
    ∀ v ∈ (reconcile s pea read readDone).store.volumes, v.location = .element pea → some v.label = read

/-! ### The codec and the ratio figure -/

/-- What is shrunk comes back: the stored form is no longer than the record, its header passes R128, and expanding it by that
header gives the raw bytes and GOOD. -/
def Obligations.ShrunkRecordsExpandBack : Prop :=
  ∀ (on : Bool) (x : List Byte) (h : TapeHeader), 1 ≤ x.length → x.length ≤ 32768 →
    h.form = (shrinkRecord on x).1.code → h.rawLen.toNat = x.length → h.storedLen.toNat = (shrinkRecord on x).2.length →
    h.check = checkWord x →
    (shrinkRecord on x).2.length ≤ x.length ∧ expandRecord h (shrinkRecord on x).2 = (x, .good)
    ∧ (h.kind = 0 ∨ (h.kind = 1 ∧ x.length % 4 = 0) → headerPasses h = true)

/-- R139: absent for S = 0; else the greatest code c = 8e + f with (8 + f) × 2^e × S no greater than 16 × R, or 0 when no code meets
the test; so code 63 from 120 on. -/
def Obligations.RatioFigureIsGreatest : Prop :=
  ∀ r s : Nat,
    ratioFigure r 0 = none
    ∧ (0 < s → ∃ c, ratioFigure r s = some c ∧ c ≤ 63
      ∧ (∀ e f, e ≤ 7 → f ≤ 7 → (8 + f) * 2 ^ e * s ≤ 16 * r → 8 * e + f ≤ c)
      ∧ ((8 + c % 8) * 2 ^ (c / 8) * s ≤ 16 * r ∨ (c = 0 ∧ ∀ e f, e ≤ 7 → f ≤ 7 → ¬ (8 + f) * 2 ^ e * s ≤ 16 * r))
      ∧ (120 * s ≤ r → c = 63))

/-! ### The port controllers -/

/-- What a plain reply changes, and how a free link takes its next frame: the earliest reply or notice, else the earliest data frame
(R176). Only the port controllers change; the tag is open; and on an UP port whose link is free with nothing waiting, the reply is what
is being sent at the end of its own step (log entry 9). -/
def Obligations.RepliesAndFrames : Prop :=
  (∀ (s : State) (p : Port) (tag : Byte) (kind : ReqKind) (code : ReplyCode) (body : ReplyBody) (clamped : Bool),
    s.takes p tag → (s.port p).tags.length = 8 → (s.port p).control = [] → (s.port p).sending = none →
    (s.replied p tag kind code body clamped).exceptPorts s = s
    ∧ (∀ q, q ≠ p → (s.replied p tag kind code body clamped).port q = (s.port q).pump)
    ∧ ((s.replied p tag kind code body clamped).port p).sending
        = some (.control (.reply ⟨kind.code, tag, code, clamped, body, true⟩))
    ∧ ((s.replied p tag kind code body clamped).port p).tagKind tag = some kind
    ∧ (∀ x : Byte, x ≠ tag → ((s.replied p tag kind code body clamped).port p).tagKind x = (s.port p).tagKind x))
  ∧ (∀ s : State, (pump s).exceptPorts s = s) ∧ ∀ (s : State) (p : Port),
    (((s.port p).up = false ∨ (s.port p).sending.isSome = true) → (pump s).port p = s.port p)
    ∧ ((s.port p).up = true → (s.port p).sending = none →
        (∀ x rest, (s.port p).control = x :: rest →
          (pump s).port p = { s.port p with control := rest, sending := some (.control x) })
        ∧ (∀ d rest, (s.port p).control = [] → (s.port p).frames = d :: rest →
          (pump s).port p = { s.port p with frames := rest, sending := some (.data d) })
        ∧ ((s.port p).control = [] → (s.port p).frames = [] → (pump s).port p = s.port p))

/-- FRAME_SENT. A reply's end frees the tag its request opened, a notice's end frees nothing, and with more waiting nothing else
happens but the next frame's beginning. A data frame's end delivers the record whose block and descriptor it carries (log entry 31):
one more delivered, and the continuation block is the block after it. -/
def Obligations.FrameSentFreesAndDelivers : Prop :=
  (∀ (s : State) (p : Port) (r : Reply), (s.port p).sending = some (.control (.reply r)) → (s.port p).control ≠ [] →
    exec (.frameSent p) s = .next (pump (s.modPort p fun c =>
      { c with sending := none, tags := if r.frees then c.tags.set r.tag.toNat none else c.tags })))
  ∧ (∀ (s : State) (p : Port) (n : Notice), (s.port p).sending = some (.control (.notice n)) → (s.port p).control ≠ [] →
    exec (.frameSent p) s = .next (pump (s.modPort p fun c => { c with sending := none })))
  ∧ ∀ (s : State) (p : Port) (d : DataFrame) (r : RestoreRun) (e : Staged),
    (s.port p).sending = some (.data d) → s.restore d.bay = some r →
    r.staged.find? (fun x => x.block = d.block && x.desc = d.desc && x.stage = .sending) = some e →
    ∃ t u, exec (.frameSent p) s = .next t ∧ t.restore d.bay = some u ∧ u.delivered = r.delivered + 1
      ∧ (t.drive d.bay).continuation = some (d.block + 1) ∧ t.store = s.store ∧ t.elements = s.elements ∧ t.picker = s.picker

/-- How a tagged request of any kind is admitted: a DOWN port receives none; a tag byte above 7 and an open tag are refused, and
nothing else in the block is examined. -/
def Obligations.TaggedRequestsAdmitted : Prop :=
  ∀ (c : Instr) (s : State) (p : Port) (tag : Byte) (kind : ReqKind), tagOf c = some (p, tag, kind) →
    ((s.port p).up = false → exec c s = .next (pump s))
    ∧ ((s.port p).up = true → 7 < tag.toNat → exec c s = .next (pump (queueLooseBadRequest s p kind.code tag)))
    ∧ ((s.port p).up = true → tag.toNat ≤ 7 → (s.port p).tagKind tag ≠ none →
        exec c s = .next (pump (queueTagInUse s p kind tag)))

/-- Blocks the 716 does not know, and known kinds of the wrong length: BAD REQUEST with the tag byte as sent, BAD REQUEST on the tag,
or WRITE-REFUSED. -/
def Obligations.UnknownBlocksRefused : Prop :=
  ∀ (s : State) (p : Port) (type kind tag : Byte) (body : List Byte), (s.port p).up = true → blockKnown type kind body = false →
    (blockKind type kind = none → exec (.unknownRequest p type kind tag body) s = .next (pump (queueLooseBadRequest s p kind tag)))
    ∧ (∀ k, blockKind type kind = some k → k.tagged = true → s.takes p tag →
        exec (.unknownRequest p type kind tag body) s = .next (s.replied p tag k .badRequest))
    ∧ (∀ k, blockKind type kind = some k → k.tagged = false →
        exec (.unknownRequest p type kind tag body) s
          = .next (pump (queueWriteRefused s p k (body.headD 0xFF) .badRequest none)))

/-- R170. LINK_UP on a DOWN port, whose queues are empty: UP, its claim-hold timer stopped and governing nothing, the CONDITION notice
ahead of the CREDIT notice with the counts that the attach leaves; the other blocks keep their contexts. On an UP port it is ignored. That the CONDITION
notice is being sent at the end of the same step is log entry 9. -/
def Obligations.LinkUpAttaches : Prop :=
  ∀ (s : State) (p : Port), ((s.port p).up = true → exec (.linkUp p) s = .next s)
    ∧ ((s.port p).up = false → (s.port p).control = [] → (s.port p).sending = none →
      ∃ t, exec (.linkUp p) s = .next t
        ∧ t.buffer = s.buffer.attach { s.creditEnv with up := s.creditEnv.up.set p true } p
        ∧ t.port p = { s.port p with
                       up := true, claimTimer := .stopped, holding := PerBay.all false,
                       sending := some (.control (.notice (.condition s.picker.condition))),
                       control := [.notice (.credit (t.buffer.share.get p).cumUnits (t.buffer.share.get p).cumDescs)] }
        ∧ { t with ports := s.ports, buffer := s.buffer } = s)

/-- LINK_DOWN: DOWN, every tag free, nothing outbound; nothing granted, the write home's units and descriptors FREE again and every
origin whole; the claim hold: with a bay claimed outside the released-bay list the timer loaded for the claims outside it alone, taken down
as it is loaded (log entry 77), or, with the setting 0, every claimed bay in the list; with none the timer as it was. LINK_RESET: the same and then UP, with the notices of a link up and no claim hold
begun. That the CONDITION notice is being sent at the end of the step, and when the refill passes run, is log entry 9;
that the port's releases go on in the store, their tags dropped, is log entry 44. -/
def Obligations.LinkDownAndReset : Prop :=
  ∀ (s : State) (p : Port), (s.port p).up = true → ∃ t u, exec (.linkDown p) s = .next t ∧ exec (.linkReset p) s = .next u
    ∧ (t.port p).up = false ∧ (t.port p).tags = List.replicate 8 none ∧ (t.port p).control = [] ∧ (t.port p).frames = []
    ∧ (t.port p).sending = none ∧ (t.port p).dropped = 0
    ∧ (∀ q, s.storeWrite = some q → q.port = p → t.storeWrite = some { q with tag := none })
    ∧ t.releaseWrites = s.releaseWrites.map (fun r => if r.port = p then { r with tag := none } else r)
    ∧ (t.buffer.share.get p).writeGranted = 0 ∧ (t.buffer.share.get p).poolGranted = 0
    ∧ (t.buffer.share.get p).descWriteGranted = 0 ∧ (t.buffer.share.get p).descPoolGranted = 0
    ∧ (s.buffer.share.get p).writeFree + (s.buffer.share.get p).writeGranted ≤ (t.buffer.share.get p).writeFree
    ∧ (s.buffer.share.get p).descWriteFree + (s.buffer.share.get p).descWriteGranted ≤ (t.buffer.share.get p).descWriteFree
    ∧ (∀ o, t.buffer.unitsIn o = s.buffer.unitsIn o ∧ t.buffer.descsIn o = s.buffer.descsIn o)
    ∧ (∀ b, bayClaimed t p b = true → b ∉ (s.port p).released →
        (s.settings.claimHold ≠ 0 → (t.port p).claimTimer = .running (1000 * s.settings.claimHold)
          ∧ ∀ a, (t.port p).holding.get a = true ↔ bayClaimed t p a = true ∧ a ∉ (s.port p).released)
        ∧ (s.settings.claimHold = 0 → (t.port p).claimTimer = .stopped ∧ b ∈ (t.port p).released))
    ∧ ((∀ b, bayClaimed t p b = true → b ∈ (s.port p).released) →
        (t.port p).claimTimer = (s.port p).claimTimer ∧ (t.port p).holding = (s.port p).holding
        ∧ (t.port p).released = (s.port p).released)
    ∧ (u.port p).up = true ∧ (u.port p).tags = List.replicate 8 none ∧ (u.port p).frames = [] ∧ (u.port p).claimTimer = .stopped
    ∧ (u.port p).holding = PerBay.all false
    ∧ (u.port p).sending = some (.control (.notice (.condition s.picker.condition)))
    ∧ (u.port p).control = [.notice (.credit (u.buffer.share.get p).cumUnits (u.buffer.share.get p).cumDescs)]
    ∧ t.store = s.store ∧ u.store = s.store ∧ t.picker.condition = s.picker.condition ∧ t.picker.motion = s.picker.motion
    ∧ t.elements.map (fun e => (e.pea, e.state)) = s.elements.map (fun e => (e.pea, e.state))
    ∧ u.elements.map (fun e => (e.pea, e.state)) = s.elements.map (fun e => (e.pea, e.state))

/-- The claim hold: its expiry, whatever time remains (log entry 3), puts into the port's released-bay list each bay that the port still
claims and that the timer governs, and no other bay, the claims governed being those taken down when the timer was loaded (the model's
choice, DEDUCED: log entry 77); it marks unload-owed each bay so listed whose work has ended, and no bay listed
before; and where it marks none, nothing changes at the picker, no UNLOAD being queued again. A bay of such a list whose work has ended is
marked unload-owed; and a marked bay's UNLOAD is queued when a place is free and no entry claims the bay, with the label last known there
(log entry 17). -/
def Obligations.ClaimHoldEnds : Prop :=
  (∀ (s : State) (p : Port), (s.port p).claimTimer.isRunning = true →
    ∃ t, exec (.claimHoldTimerExpiry p) s = .next t ∧ (t.port p).claimTimer = .stopped
      ∧ (∀ b, b ∈ (t.port p).released ↔
          b ∈ (s.port p).released ∨ (s.port p).holding.get b = true ∧ bayClaimed s p b = true)
      ∧ (∀ b, b ∈ (t.port p).released → b ∉ (s.port p).released → bayOwedBy t p b = true → t.picker.unloadOwed.get b = true)
      ∧ (∀ b, b ∈ (s.port p).released ∨ b ∉ (t.port p).released → t.picker.unloadOwed.get b = s.picker.unloadOwed.get b)
      ∧ (t.picker.unloadOwed = s.picker.unloadOwed → t.picker = s.picker ∧ t.elements = s.elements)
      ∧ t.drives = s.drives ∧ t.store = s.store ∧ t.buffer = s.buffer)
  ∧ (∀ (s : State) (p : Port) (b : Bay), bayOwedBy s p b = true → s.picker.unloadOwed.get b = false →
    ∃ t, exec (.unloadOwedMark b) s = .next t ∧ t.picker.unloadOwed = s.picker.unloadOwed.set b true
      ∧ t.drives = s.drives ∧ t.store = s.store ∧ t.buffer = s.buffer)
  ∧ ∀ (s : State) (b : Bay), s.picker.unloadOwed = (PerBay.all false).set b true → s.picker.internalEntries < 2 →
    s.isClaimed (bayPea b) = false → exec .owedUnloadQueued s
      = .next (pump (acceptEntry s .internal .unload (bayPea b) none ((s.elemState (bayPea b)).bind (·.anyLabel)) .queued))

/-! ### Moves -/

/-- An entry taken into the move queue: the last in it, under a number of 0 to 255 that no entry holds, its source and destination
claimed with that number, and nothing else changed. -/
def Obligations.EntriesTakeFreeNumbers : Prop :=
  ∀ (s : State) (q : Requester) (kind : MoveKind) (src : Nat) (dst : Option Nat) (l : Option Label) (ph : Phase),
    s.picker.queue.length < 256 → s.picker.nextMove < 256 →
    ∃ n, n < 256 ∧ (∀ e ∈ s.picker.queue, e.number ≠ n)
      ∧ (acceptEntry s q kind src dst l ph).picker.queue
          = s.picker.queue ++ [⟨n, q, kind, src, dst, l, ph, .outward, false⟩]
      ∧ (acceptEntry s q kind src dst l ph).elements = s.elements.map (fun e =>
          if e.pea = src ∨ some e.pea = dst then { e with claim := some n } else e)
      ∧ { acceptEntry s q kind src dst l ph with picker := s.picker, elements := s.elements } = s
      ∧ { (acceptEntry s q kind src dst l ph).picker with queue := s.picker.queue, nextMove := s.picker.nextMove } = s.picker

/-- Every request for a move, and AUDIT, outside READY: NOT READY, and nothing else. -/
def Obligations.MovesRefusedNotReady : Prop :=
  ∀ (s : State) (p : Port) (tag : Byte), s.takes p tag → s.picker.condition ≠ .ready →
    exec (.audit p tag) s = .next (s.replied p tag .audit .notReady)
    ∧ (∀ lea, exec (.loadScratch p tag lea) s = .next (s.replied p tag .loadScratch .notReady))
    ∧ (∀ form src dst label, (sourceOf form src label).isSome = true →
        exec (.move p tag form src dst label) s = .next (s.replied p tag .move .notReady)
        ∧ exec (.load p tag form src dst label) s = .next (s.replied p tag .load .notReady))
    ∧ (∀ lea named dst, (flagOf named).isSome = true → (bayOfLea lea).all (fun b => !(s.port p).released.contains b) = true →
        exec (.unload p tag lea named dst) s = .next (s.replied p tag .unload .notReady))

/-- A MOVE that passes every test: its entry queued with the label its source holds, and its tag open. An UNLOAD that passes every test:
the same, with its destination left to the eject (form 0) or named (form 1); whatever the label, condition and owner of the cartridge in
the bay (log entry 14). While a settings write goes on, addresses and visibility are those of the new partition map (log entry 12). -/
def Obligations.MovesAccepted : Prop :=
  (∀ (s : State) (p : Port) (tag form srcLea dstLea : Byte) (label : Label) (name : SourceName) (e d : Nat) (l : Option Label)
    (c : Condition), s.takes p tag → s.picker.condition = .ready → sourceOf form srcLea label = some name →
    sourcePea s.planned p name = some e → decodeLea s.planned p dstLea.toNat = some d → isSlot e = true → isSlot d = true →
    e ≠ d → s.element e = some ⟨e, .full l c, none⟩ → s.element d = some ⟨d, .empty, none⟩ → s.planned.visible p e = true →
    (c = .normal ∨ c = .misplaced ∨ isMail d = true) → (s.elemVolume e).all (fun v => v.owner.isNone || v.owner = some p) = true →
    (s.mailOpen = true → isMail e = false ∧ isMail d = false) → s.picker.portEntries < 8 → (s.picker.entriesOf p).length < 3 →
    exec (.move p tag form srcLea dstLea label) s
      = .next (pump (acceptEntry (openTag s p tag .move) (.port p (some tag)) .move e (some d) l .queued)))
  ∧ ∀ (s : State) (p : Port) (tag driveLea dstLea : Byte) (b : Bay) (l : Option Label) (c : Condition), s.takes p tag →
    driveLea.toNat = bayPea b → b ∉ (s.port p).released → s.picker.condition = .ready → (s.drive b).claim = some p →
    (s.drive b).carriesActivity = false → s.element (bayPea b) = some ⟨bayPea b, .full l c, none⟩ →
    s.picker.portEntries < 8 → (s.picker.entriesOf p).length < 3 →
    exec (.unload p tag driveLea 0 dstLea) s
      = .next (pump (acceptEntry (openTag s p tag .unload) (.port p (some tag)) .unload (bayPea b) none l .queued))
    ∧ ∀ d, decodeLea s.planned p dstLea.toNat = some d → isSlot d = true → s.element d = some ⟨d, .empty, none⟩ →
      (s.mailOpen = true → isMail d = false) → exec (.unload p tag driveLea 1 dstLea) s
        = .next (pump (acceptEntry (openTag s p tag .unload) (.port p (some tag)) .unload (bayPea b) (some d) l .queued))

/-- A LOAD that passes every test: its entry queued with the label its source holds, and the drive claimed for the port. A LOAD-SCRATCH
that passes every test: the chosen slot's entry queued, the drive claimed, the pointer moved past the choice; with no slot to choose,
NO SCRATCH. While a settings write goes on, addresses, visibility and the choice are those of the new partition map, and the pointer
stands if that map is a changed one (log entry 12). -/
def Obligations.LoadsAccepted : Prop :=
  (∀ (s : State) (p : Port) (tag form srcLea dstLea : Byte) (label : Label) (name : SourceName) (e : Nat) (b : Bay)
    (l : Option Label) (c : Condition), s.takes p tag → s.picker.condition = .ready → sourceOf form srcLea label = some name →
    sourcePea s.planned p name = some e → dstLea.toNat = bayPea b → isSlot e = true → s.element e = some ⟨e, .full l c, none⟩ →
    s.element (bayPea b) = some ⟨bayPea b, .empty, none⟩ → s.planned.visible p e = true → (c = .normal ∨ c = .misplaced) →
    (s.elemVolume e).all (fun v => v.owner.isNone || v.owner = some p) = true → (s.mailOpen = true → isMail e = false) →
    s.picker.portEntries < 8 → (s.picker.entriesOf p).length < 3 → (s.drive b).state = .empty → (s.drive b).claim = none →
    s.installed (bayPea b) = true →
    exec (.load p tag form srcLea dstLea label) s
      = .next (pump ((acceptEntry (openTag s p tag .load) (.port p (some tag)) .load e (some (bayPea b)) l .queued).modDrive b
          fun d => { d with claim := some p })))
  ∧ ∀ (s : State) (p : Port) (tag driveLea : Byte) (b : Bay), s.takes p tag → s.picker.condition = .ready →
    driveLea.toNat = bayPea b → s.element (bayPea b) = some ⟨bayPea b, .empty, none⟩ → (s.drive b).state = .empty →
    (s.drive b).claim = none → s.picker.portEntries < 8 → (s.picker.entriesOf p).length < 3 →
    (∀ k q, chooseScratch s.planned = some (k, q) → exec (.loadScratch p tag driveLea) s =
      .next (pump { (acceptEntry (openTag s p tag .loadScratch) (.port p (some tag)) .scratchLoad q (some (bayPea b))
          ((s.elemState q).bind (·.label)) .queued).modDrive b (fun d => { d with claim := some p })
        with scratchPointer := if s.planned.settings.partition = s.settings.partition then scratchAfter s k
                               else s.scratchPointer }))
    ∧ (chooseScratch s.planned = none → exec (.loadScratch p tag driveLea) s = .next (s.replied p tag .loadScratch .noScratch))

/-- AUDIT in READY: the mark set and the request kept waiting. RECOVER in MOTION FAULT: the homing issued, whatever the service door
(log entry 32) and also while an earlier RECOVER waits for its full audit (the model's choice: log entry 79), the request kept waiting,
the condition unchanged, the entry's source the picker's element, which for the entry that homes alone with nothing gripped is the
model's choice (log entry 73); with nothing gripped the recovery record is discarded and the picker's entry EMPTY. -/
def Obligations.AuditAndRecoverAccepted : Prop :=
  (∀ (s : State) (p : Port) (tag : Byte), s.takes p tag → s.picker.condition = .ready →
    exec (.audit p tag) s = .next (pump ((openTag s p tag .audit).modPicker fun k =>
      { k with auditPending := true, auditWaiting := k.auditWaiting ++ [(p, tag)] })))
  ∧ ∀ (s : State) (p : Port) (tag : Byte) (gripped : Bool), s.takes p tag → s.picker.condition = .motionFault →
    (s.picker.queue.all fun e => decide (e.kind ≠ .recover)) = true → (gripped = true → (recoveryDest s).isSome = true) →
    ∃ t, exec (.recover p tag gripped) s = .next t ∧ t.picker.motion = some .homing ∧ t.picker.state = .moving
      ∧ t.picker.timer = .running (1000 * s.settings.motionLimit) ∧ t.picker.condition = .motionFault
      ∧ t.picker.recoverWaiting = s.picker.recoverWaiting ++ [(p, tag)]
      ∧ (∃ e, t.picker.queue = s.picker.queue ++ [e] ∧ e.kind = .recover ∧ e.source = 0 ∧ e.phase = .run .homing
          ∧ e.dest = (if gripped then recoveryDest s else none))
      ∧ (gripped = false → t.picker.recovery = none ∧ (s.installed 0 = true → t.elemState 0 = some .empty))
      ∧ t.drives = s.drives ∧ t.buffer = s.buffer ∧ t.settings = s.settings

/-- FETCH_COMPLETE with the label expected: the slot EMPTY, the picker holding what it held, the CARRY issued; with another label the
put-back issued; with nothing gripped the slot EMPTY, each record located there or last known there UNKNOWN, a full audit marked, and
the move ended SOURCE EMPTY. CARRY_COMPLETE: the PLACE issued, or held at a mail slot behind the open door. -/
def Obligations.FetchAndCarryReported : Prop :=
  (∀ (s : State) (q : Nat) (e : MoveEntry) (l : Option Label) (c : Condition), s.picker.state ≠ .stopped →
    s.picker.motion = some (.fetch q) → s.inHandMove = some e → isBay q = false → q ≠ 0 → s.elemState q = some (.full l c) →
    s.installed 0 = true → e.expected = l →
    ∃ t, exec (.fetchComplete true l) s = .next t ∧ t.elemState q = some .empty ∧ t.elemState 0 = some (.full l c)
      ∧ t.picker.motion = some .carry ∧ t.picker.timer = .running (1000 * s.settings.motionLimit)
      ∧ (∀ r, r ≠ 0 → r ≠ q → t.element r = s.element r)
      ∧ (∀ v, s.elemVolume q = some v → (t.volume v.label).map (·.location) = some .picker)
      ∧ t.drives = s.drives ∧ t.buffer = s.buffer ∧ t.streams = s.streams)
  ∧ (∀ (s : State) (q : Nat) (e : MoveEntry) (l : Option Label), s.picker.state ≠ .stopped → s.mailOpen = false →
    s.picker.motion = some (.fetch q) → s.inHandMove = some e → isBay q = false → e.expected ≠ l →
    exec (.fetchComplete true l) s = .next (pump (s.modPicker fun k =>
      { k with motion := some (.putBack q l), state := .moving, timer := .running (1000 * s.settings.motionLimit) })))
  ∧ (∀ (s : State) (q : Nat) (e : MoveEntry) (l : Option Label), s.picker.state ≠ .stopped → s.picker.motion = some (.fetch q) →
    s.inHandMove = some e → q ≠ 0 → s.installed q = true → s.picker.doorAudit = false →
    ∃ t, exec (.fetchComplete false l) s = .next t ∧ t.elemState q = some .empty ∧ t.picker.auditPending = true
      ∧ t.picker.state = .idle ∧ t.picker.motion = none ∧ t.picker.timer = .stopped ∧ entryGone t e
      ∧ (∀ v ∈ s.store.volumes, v.location = .element q
            ∨ (v.location = .unknown ∧ (s.elemState q).bind (·.anyLabel) = some v.label) →
          (t.volume v.label).map (·.location) = some .unknown)
      ∧ (∀ p tag, e.requester = .port p (some tag) → (s.port p).up = true → t.sends p (moveFailure e tag .sourceEmpty))
      ∧ (s.installed 0 = true → t.elemState 0 = some .empty) ∧ t.buffer = s.buffer ∧ t.streams = s.streams)
  ∧ ∀ (s : State) (e : MoveEntry), s.picker.state ≠ .stopped → s.picker.motion = some .carry → s.inHandMove = some e →
    exec .carryComplete s = .next (pump (s.modPicker fun k =>
      if s.mailOpen && isMail e.placeAt then
        { k with queue := k.queue.map (fun x => if x.number = e.number then { x with phase := .run .place } else x),
                 motion := none, held := some (.place e.placeAt), state := .moving, timer := .stopped }
      else
        { k with queue := k.queue.map (fun x => if x.number = e.number then { x with phase := .run .place } else x),
                 motion := some (.place e.placeAt), state := .moving, timer := .running (1000 * s.settings.motionLimit) }))

/-- PLACE_COMPLETE, clear: what the picker held stands in the element, the picker's entry is EMPTY; a MOVE's entry is gone and the
picker IDLE; a LOAD's THREAD is issued, and its entry waits for the drive. A MISPLACED cartridge is NORMAL where its owner sees the
slot. Obstructed: the element FULL with NO LABEL, no record located there (log entry 19), the cartridge still held, a full audit marked,
and the CARRY back issued. In recovery: clear, the record is discarded and the picker IDLE with a full audit marked; obstructed, the
next slot of the same search takes it, or the picker is DISABLED. -/
def Obligations.PlaceReported : Prop :=
  (∀ (s : State) (q : Nat) (e : MoveEntry) (l : Option Label), s.picker.state ≠ .stopped → s.picker.motion = some (.place q) →
    s.inHandMove = some e → e.leg = .outward → e.kind ≠ .recover → q ≠ 0 → s.installed q = true →
    s.elemState 0 = some (.full l .normal) → s.picker.doorAudit = false →
    ∃ t, exec (.placeComplete false) s = .next t ∧ t.elemState q = some (.full l .normal) ∧ t.elemState 0 = some .empty
      ∧ t.picker.state = .idle ∧ t.picker.motion = none ∧ t.picker.timer = .stopped
      ∧ (∀ v, s.elemVolume 0 = some v → (t.volume v.label).map (·.location) = some (.element q))
      ∧ (e.kind.isLoad = false → t.drives = s.drives ∨ e.kind = .unload)
      ∧ (∀ b, e.kind.isLoad = true → q = bayPea b →
          (t.drive b).order = some .thread ∧ (t.drive b).state = .threading ∧ (t.drive b).volume = l
          ∧ ∃ x ∈ t.picker.queue, x.number = e.number ∧ x.phase = .threadWait)
      ∧ (peaBay q = none → ∀ x ∈ t.picker.queue, x.number = e.number → x.requester = .internal)
      ∧ t.buffer = s.buffer ∧ t.streams = s.streams ∧ t.settings = s.settings)
  ∧ (∀ (s : State) (q : Nat) (e : MoveEntry) (l : Label) (v : Volume), s.picker.state ≠ .stopped →
    s.picker.motion = some (.place q) → s.inHandMove = some e → e.leg = .outward → e.kind ≠ .recover → q ≠ 0 →
    s.installed q = true → s.elemState 0 = some (.full (some l) .misplaced) → s.volume l = some v → s.picker.doorAudit = false →
    ∃ t, exec (.placeComplete false) s = .next t
      ∧ t.elemState q = some (.full (some l) (if s.visibleToOwner v.owner q then .normal else .misplaced))
      ∧ t.elemState 0 = some .empty ∧ (t.volume l).map (·.location) = some (.element q))
  ∧ (∀ (s : State) (q : Nat) (e : MoveEntry), s.picker.state ≠ .stopped → s.picker.motion = some (.place q) →
    s.inHandMove = some e → e.leg = .outward → e.kind ≠ .recover → q ≠ 0 → s.installed q = true →
    ∃ t, exec (.placeComplete true) s = .next t ∧ t.elemState q = some (.full none .noLabel) ∧ t.elemState 0 = s.elemState 0
      ∧ t.picker.auditPending = true ∧ t.picker.motion = some .carry
      ∧ t.picker.timer = .running (1000 * s.settings.motionLimit)
      ∧ (∃ x ∈ t.picker.queue, x.number = e.number ∧ x.leg = .obstructed ∧ x.phase = .run .carry)
      ∧ (∀ v ∈ t.store.volumes, v.location ≠ .element q) ∧ t.drives = s.drives ∧ t.buffer = s.buffer)
  ∧ ∀ (s : State) (q : Nat) (e : MoveEntry), s.picker.state ≠ .stopped → s.picker.motion = some (.place q) →
    s.inHandMove = some e → e.kind = .recover → q ≠ 0 → s.installed q = true →
    (∀ l c, s.installed 0 = true → s.elemState 0 = some (.full l c) → ∃ t, exec (.placeComplete false) s = .next t
      ∧ ((t.elemState q).any fun x => x.isFull && decide (x.label = l)) = true ∧ t.elemState 0 = some .empty
      ∧ t.picker.recovery = none ∧ t.picker.state = .idle ∧ t.picker.auditPending = true
      ∧ (∀ x ∈ t.picker.queue, x.number ≠ e.number)
      ∧ (∀ v, s.elemVolume 0 = some v → (t.volume v.label).map (·.location) = some (.element q))
      ∧ t.drives = s.drives ∧ t.buffer = s.buffer)
    ∧ ∃ t, exec (.placeComplete true) s = .next t ∧ t.elemState q = some (.full none .noLabel)
      ∧ (∀ d, recoveryDest (placeObstructed (clearClaims s e.number) q) = some d → t.picker.motion = some .carry
          ∧ ∃ x ∈ t.picker.queue, x.number = e.number ∧ x.dest = some d ∧ x.phase = .run .carry)
      ∧ (recoveryDest (placeObstructed (clearClaims s e.number) q) = none →
          t.picker.state = .disabled ∧ t.picker.condition = .pickerDisabled ∧ t.picker.queue = [])

/-- HOMING_COMPLETE with no move in hand: the full audit begins at the first storage slot. AUDIT_SLOT_READING, with a slot left: the next
slot is read. An empty slot: its entry EMPTY, each record located there or last known there UNKNOWN, or OUTSIDE for a mail slot. No label:
FULL with NO LABEL, no record located there (log entry 19). A label: FULL with it; a record is made where none carries it, else the record
of that label stands there, NORMAL where its owner sees the slot and MISPLACED elsewhere. That the label which an entry found empty last
knew counts as the one it named, a DUPLICATE's and an UNREGISTERED's among them, so that its record of location UNKNOWN becomes OUTSIDE at
a mail slot, is log entry 61. With no slot left, a full audit queries D0, and a mail audit is complete; a mail audit has none left also
when the mail door has opened again, which is log entry 66. -/
def Obligations.AuditsRead : Prop :=
  (∀ s : State, s.picker.state ≠ .stopped → s.picker.motion = some .homing → s.inHandMove = none →
    ∃ t, exec .homingComplete s = .next t ∧ t.picker.state = .auditing ∧ t.picker.condition = .auditing
      ∧ t.picker.motion = some (.reading 16) ∧ t.picker.timer = .running (1000 * s.settings.motionLimit)
      ∧ t.picker.auditPending = false ∧ t.elements = s.elements ∧ t.store = s.store ∧ t.drives = s.drives ∧ t.buffer = s.buffer)
  ∧ (∀ (s : State) (q r : Nat) (a : AuditRun) (rest : List Nat), s.picker.state ≠ .stopped →
    s.picker.motion = some (.reading q) → s.picker.audit = some a → slotsLeft s a = r :: rest → s.installed q = true →
    (∃ t, exec (.auditSlotReading .empty) s = .next t ∧ t.elemState q = some .empty ∧ t.picker.motion = some (.reading r)
      ∧ t.picker.timer = .running (1000 * s.settings.motionLimit) ∧ (∀ x, x ≠ q → t.element x = s.element x)
      ∧ (∀ v ∈ t.store.volumes, v.location ≠ .element q)
      ∧ (∀ v ∈ s.store.volumes, v.location = .element q
            ∨ (v.location = .unknown ∧ (s.elemState q).bind (·.anyLabel) = some v.label) →
          (isMail q = false → (t.volume v.label).map (·.location) = some .unknown)
          ∧ (isMail q = true → ∃ n, (t.volume v.label).map (·.location) = some (.outside n)))
      ∧ t.drives = s.drives ∧ t.buffer = s.buffer ∧ t.settings = s.settings)
    ∧ (∃ t, exec (.auditSlotReading .noLabel) s = .next t ∧ t.elemState q = some (.full none .noLabel)
      ∧ t.picker.motion = some (.reading r) ∧ (∀ x, x ≠ q → t.element x = s.element x)
      ∧ (∀ v ∈ t.store.volumes, v.location ≠ .element q) ∧ t.drives = s.drives ∧ t.buffer = s.buffer)
    ∧ (∀ l, s.volume l = none → s.store.volumes.length < 64 →
      ∃ t, exec (.auditSlotReading (.label l)) s = .next t ∧ t.elemState q = some (.full (some l) .normal)
        ∧ t.picker.motion = some (.reading r) ∧ (∀ x, x ≠ q → t.element x = s.element x)
        ∧ t.volume l = some { label := l, owner := none, location := .element q, home := if isStorage q then some q else none,
                              cls := none, writeProtected := false, eod := none, framesUsed := 0, marks := [], verifiedTo := 0,
                              failure := none, rawTotal := 0, storedTotal := 0, softErrors := 0, hardErrors := 0 }
        ∧ t.drives = s.drives ∧ t.buffer = s.buffer)
    ∧ ∀ l v, s.volume l = some v → v.location = .unknown ∨ v.location = .element q →
      ∃ t, exec (.auditSlotReading (.label l)) s = .next t
        ∧ t.elemState q
          = some (.full (some l) (if v.owner.isNone || s.visibleToOwner v.owner q then .normal else .misplaced))
        ∧ (t.volume l).map (·.location) = some (.element q) ∧ t.picker.motion = some (.reading r)
        ∧ t.drives = s.drives ∧ t.buffer = s.buffer)
  ∧ ∀ (s : State) (q : Nat) (a : AuditRun), s.picker.state ≠ .stopped → s.picker.motion = some (.reading q) →
    s.picker.audit = some a → slotsLeft s a = [] → s.installed q = true →
    (a.full = true → a.bays = [.d0, .d1] → bayWaits s .d0 = false → (s.drive .d0).owes = false → (s.drive .d0).state = .empty →
      ∃ t, exec (.auditSlotReading .noLabel) s = .next t ∧ t.elemState q = some (.full none .noLabel)
        ∧ t.picker.state = .auditing ∧ t.picker.motion = none ∧ t.picker.timer = .stopped
        ∧ (t.drive .d0).order = some .query ∧ (t.drive .d0).timer = .running 600000 ∧ (t.drive .d0).state = .empty
        ∧ t.drive .d1 = s.drive .d1 ∧ t.buffer = s.buffer)
    ∧ (a.full = false → s.picker.held = none →
      ∃ t, exec (.auditSlotReading .noLabel) s = .next t ∧ t.elemState q = some (.full none .noLabel)
        ∧ t.picker.state = .idle ∧ t.picker.audit = none ∧ t.picker.motion = none ∧ t.picker.timer = .stopped
        ∧ t.picker.condition = s.picker.condition ∧ t.drives = s.drives ∧ t.buffer = s.buffer)

/-- MOTION_TIMER_EXPIRY, whatever time remains (log entry 3). Outside recovery the picker FAULTED, the condition MOTION FAULT, and the
move in hand ended: its entry gone, its claims freed, its reply MOTION FAULT, and a recovery record for the cartridge gripped; of a
put-back it carries the label read, and an entry of the picker that is not FULL leaves none (log entry 20). Within recovery the picker
DISABLED, with no move left. -/
def Obligations.MotionLimitExpires : Prop :=
  ∀ s : State, s.picker.timer.isRunning = true → ∃ t, exec .motionTimerExpiry s = .next t
    ∧ t.picker.motion = none ∧ t.picker.timer = .stopped ∧ t.picker.audit = none ∧ t.buffer = s.buffer ∧ t.store = s.store
    ∧ ((s.inHandMove.any fun e => decide (e.kind = .recover)) = false →
        t.picker.state = .faulted ∧ t.picker.condition = .motionFault)
    ∧ (∀ e, s.inHandMove = some e → e.kind ≠ .recover → entryGone t e
        ∧ (∀ q, isBay q = false ∨ s.picker.unloadOwed = .all false →
            (s.element q).bind (·.claim) = some e.number → (t.element q).bind (·.claim) = none)
        ∧ (∀ p tag, e.requester = .port p (some tag) → (s.port p).up = true → t.sends p (moveFailure e tag .motionFault))
        ∧ (∀ q l, s.picker.motion = some (.putBack q l) →
            t.picker.recovery = some ⟨q, l, (l.bind s.volume).bind (·.owner)⟩)
        ∧ ((∀ q l, s.picker.motion ≠ some (.putBack q l)) →
          (∀ l c, s.elemState 0 = some (.full l c) →
            t.picker.recovery = some ⟨e.fetchedFrom, l, (l.bind s.volume).bind (·.owner)⟩)
          ∧ ((s.elemState 0).any (·.isFull) = false → t.picker.recovery = none)))
    ∧ ((s.inHandMove.any fun e => decide (e.kind = .recover)) = true →
        t.picker.state = .disabled ∧ t.picker.condition = .pickerDisabled ∧ t.picker.queue = [] ∧ t.picker.unloadOwed = .all false)

/-- The doors. Service door open: the picker STOPPED, its timer held. Closed with nothing in hand: the full audit, an audit or a reading
that the door cut short being taken up in it (log entry 23). Mail door open: every mail slot UNKNOWN with its label the last known,
every record located at one UNKNOWN. Closed with no motion held: the same once more, and a mail audit is due (log entry 22). -/
def Obligations.DoorsReported : Prop :=
  (∀ s : State, s.picker.state = .idle ∨ s.picker.state = .moving ∨ s.picker.state = .auditing →
    ∃ t, exec .serviceDoorOpen s = .next t ∧ t.serviceOpen = true ∧ t.picker.state = .stopped
      ∧ t.picker.condition = .serviceDoor ∧ t.picker.timer = s.picker.timer.hold ∧ t.picker.motion = s.picker.motion
      ∧ t.elements = s.elements ∧ t.store = s.store ∧ t.drives = s.drives ∧ t.buffer = s.buffer)
  ∧ (∀ s : State, s.picker.state = .stopped → s.inHandMove = none → s.picker.needHoming = false → s.picker.motion ≠ some .homing →
    ∃ t, exec .serviceDoorClosed s = .next t ∧ t.serviceOpen = false ∧ t.picker.state = .auditing
      ∧ t.picker.condition = .auditing ∧ t.picker.motion = some (.reading 16)
      ∧ t.picker.timer = .running (1000 * s.settings.motionLimit) ∧ t.elements = s.elements ∧ t.store = s.store
      ∧ t.drives = s.drives)
  ∧ (∀ s : State, ∃ t, exec .mailDoorOpen s = .next t ∧ t.mailOpen = true ∧ t.picker.mailAuditDue = false
      ∧ mailSlotsUnknown s t
      ∧ t.drives = s.drives ∧ t.buffer = s.buffer ∧ t.settings = s.settings)
  ∧ ∀ s : State, s.picker.held = none → ∃ t, exec .mailDoorClosed s = .next t ∧ t.mailOpen = false
      ∧ t.picker = { s.picker with mailAuditDue := true } ∧ mailSlotsUnknown s t
      ∧ { t with mailOpen := s.mailOpen, picker := s.picker, store := s.store, elements := s.elements, ports := s.ports } = s

/-- PICKER_TAKE_WORK: an audit marked pending begins; in READY with no audit due and no drive's reply waiting, the oldest queued entry
of a port that still passes its recheck has its FETCH issued. -/
def Obligations.PickerTakesWork : Prop :=
  (∀ s : State, s.picker.state = .idle → s.picker.condition = .ready → (s.picker.queue.all fun e => !e.replied) = true →
    s.picker.mailAuditDue = false → s.picker.auditPending = true →
    ∃ t, exec .pickerTakeWork s = .next t ∧ t.picker.state = .auditing ∧ t.picker.condition = .auditing
      ∧ t.picker.motion = some (.reading 16) ∧ t.picker.auditPending = false ∧ t.elements = s.elements ∧ t.store = s.store)
  ∧ ∀ (s : State) (e : MoveEntry) (rest : List MoveEntry), s.picker.state = .idle → s.picker.condition = .ready →
    s.picker.mailAuditDue = false → s.picker.auditPending = false → s.mailOpen = false → s.picker.queue = e :: rest →
    ((e :: rest).all fun x => !x.replied && !x.requester.isInternal) = true → e.phase = .queued → recheck s e = none →
    isBay e.source = false →
    exec .pickerTakeWork s = .next (pump (s.modPicker fun k =>
      { k with queue := k.queue.map (fun x => if x.number = e.number then { x with phase := .run .fetch } else x),
               motion := some (.fetch e.source), state := .moving, timer := .running (1000 * s.settings.motionLimit) }))

/-! ### Volumes, reports and settings -/

/-- R16, for a label of the 36 characters. RELEASE_VOLUME in every library condition: NO VOLUME with no record, NOT OWNER for another
port's volume, DRIVE BUSY for one in a bay, in the picker or in a claimed element; otherwise the record made scratch and blank in one
store write, everything else of it kept, a MISPLACED cartridge's condition NORMAL, the pointer as it was, and the tag open until the write
is complete. SETTINGS_STORE_WRITE_COMPLETE of a release's write: the reply DONE, and nothing else. That the record shows the change while
it is being written, and which write comes first, is log entry 44. -/
def Obligations.VolumeReleased : Prop :=
  (∀ (s : State) (p : Port) (tag : Byte) (label : Label), s.takes p tag → label.valid = true →
    (s.volume label = none → exec (.releaseVolume p tag label) s = .next (s.replied p tag .releaseVolume .noVolume))
    ∧ ∀ v, s.volume label = some v →
      ((∃ q, q ≠ p ∧ v.owner = some q) →
        exec (.releaseVolume p tag label) s = .next (s.replied p tag .releaseVolume .notOwner))
      ∧ ((v.owner = none ∨ v.owner = some p) →
          (v.location = .picker ∨ (∃ b, v.location = .element (bayPea b)) ∨ ∃ q, v.location = .element q ∧ s.isClaimed q = true) →
        exec (.releaseVolume p tag label) s = .next (s.replied p tag .releaseVolume .driveBusy))
      ∧ ((v.owner = none ∨ v.owner = some p) → v.location ≠ .picker →
          (∀ q, v.location = .element q → isBay q = false ∧ s.isClaimed q = false) →
        ∃ t, exec (.releaseVolume p tag label) s = .next t
          ∧ t.store = { s.store with volumes := s.store.volumes.map (fun w => if w.label = label then
              { w with owner := none, eod := none, marks := [], verifiedTo := 0, failure := none, rawTotal := 0, storedTotal := 0,
                       framesUsed := 0 } else w) }
          ∧ t.ports = (pump (openTag s p tag .releaseVolume)).ports
          ∧ t.releaseWrites = s.releaseWrites ++ [⟨p, some tag, s.storeWrite.isSome, v⟩]
          ∧ t.elements = s.elements.map (fun e =>
              match v.location, e.state with
              | .element q, .full l .misplaced => if e.pea = q then { e with state := .full l .normal } else e
              | _, _ => e)
          ∧ { t with store := s.store, releaseWrites := s.releaseWrites, ports := s.ports, elements := s.elements } = s))
  ∧ ∀ (s : State) (r : ReleaseWrite) (rest : List ReleaseWrite), s.releaseWrites = r :: rest →
    (r.behind = false ∨ s.storeWrite = none) →
    ∃ t, exec .settingsStoreWriteComplete s = .next t ∧ t.releaseWrites = rest
      ∧ (∀ tag, r.tag = some tag → (s.port r.port).up = true →
          t.sends r.port ⟨ReqKind.releaseVolume.code, tag, .done, false, .none, true⟩)
      ∧ { t with releaseWrites := s.releaseWrites, ports := s.ports } = s

/-- The reports are answered at once, in every library condition, and change nothing but the port's tag and traffic. -/
def Obligations.ReportsAnswered : Prop :=
  ∀ (s : State) (p : Port) (tag : Byte), s.takes p tag →
    (∀ (first : Byte) (count : Half), count ≠ 0 → exec (.reportElements p tag first count) s
      = .next (s.replied p tag .reportElements .done (.elements (elementReports s p first.toNat (min count.toNat 64)))
          (64 < count.toNat)))
    ∧ (∀ label, exec (.reportVolumes p tag 0 label) s = .next (s.replied p tag .reportVolumes .done
        (.volumes ((s.store.volumes.filter fun v => v.owner.isNone || v.owner = some p).map (volumeReport s p)) none)))
    ∧ (∀ label v, label.valid = true → s.volume label = some v → (v.owner.isNone || v.owner = some p) = true →
        exec (.reportVolumes p tag 1 label) s
          = .next (s.replied p tag .reportVolumes .done (.volumes [volumeReport s p v] (some v.marks))))
    ∧ exec (.reportStatus p tag) s = .next (s.replied p tag .reportStatus .done (.status (statusFields s p)))

/-- R181: taken in every condition, answered at once with every setting as the store holds it, the assignments of all eight magazine
positions and the values of all three ports among them, and the strap value as sampled. -/
def Obligations.ReportSettings : Prop :=
  ∀ (s : State) (p : Port) (tag : Byte), s.takes p tag →
    exec (.reportSettings p tag) s = .next (s.replied p tag .reportSettings .done (.settings (
      ((List.range 8).map fun k => settingEntry 0x01 k ((s.store.settings.partition.getD k .shared).num))
      ++ [ settingEntry 0x02 0 s.store.settings.writeUnits.p0, settingEntry 0x02 1 s.store.settings.writeUnits.p1,
           settingEntry 0x02 2 s.store.settings.writeUnits.p2, settingEntry 0x03 0 s.store.settings.readUnits.p0,
           settingEntry 0x03 1 s.store.settings.readUnits.p1, settingEntry 0x03 2 s.store.settings.readUnits.p2,
           settingEntry 0x04 0 s.store.settings.writeDescs.p0, settingEntry 0x04 1 s.store.settings.writeDescs.p1,
           settingEntry 0x04 2 s.store.settings.writeDescs.p2, settingEntry 0x05 0 s.store.settings.weight.p0,
           settingEntry 0x05 1 s.store.settings.weight.p1, settingEntry 0x05 2 s.store.settings.weight.p2,
           settingEntry 0x06 0 s.store.settings.threshold, settingEntry 0x07 0 (s.store.settings.commitCount.getD 0),
           settingEntry 0x08 0 s.store.settings.commitLatency, settingEntry 0x09 0 s.store.settings.motionLimit,
           settingEntry 0x0A 0 s.store.settings.claimHold, settingEntry 0x0B 0 s.store.settings.margin,
           settingEntry 0x0C 0 s.strap ])))

/-- CONFIGURE that no test refuses goes to the store, the units and descriptors it will move set aside; it waits, untested, while another
is being written; one that a test refuses is answered with that refusal. When its write completes, no release's write being before it (log
entry 44), with no further test, the units and
descriptors move, the values stand, clamped, a refill pass runs under them, the reply is DONE with the values as taken, and the law of the
buffer is kept. The setting aside, that a waiting request is untested and that the completion tests nothing again are log entry 12; how
the moved units are handed is log entry 30. -/
def Obligations.SettingsTaken : Prop :=
  (∀ (s : State) (p : Port) (tag : Byte) (es : List SettingEntry), s.takes p tag → (s.port p).tags.length = 8 →
    s.configWaiting = [] →
    (s.storeWrite = none → es ≠ [] → configRefusal s es = none →
      ∃ t, exec (.configure p tag es) s = .next t ∧ t.buffer = s.buffer.setAside s.settings (s.settings.with es)
        ∧ t.storeWrite = some ⟨p, some tag, es⟩ ∧ (t.port p).tagKind tag = some .configure ∧ (s.creditHolds → t.creditHolds)
        ∧ { t with storeWrite := none, buffer := s.buffer, ports := s.ports } = s)
    ∧ (s.storeWrite = none → es = [] → configRefusal s es = none →
        exec (.configure p tag es) s = .next (s.replied p tag .configure .done (.settings [])))
    ∧ (s.storeWrite = none → ∀ code, configRefusal s es = some code →
        exec (.configure p tag es) s = .next (s.replied p tag .configure code))
    ∧ (s.storeWrite.isSome = true → exec (.configure p tag es) s
      = .next (pump { openTag s p tag .configure with configWaiting := [⟨p, some tag, es⟩] })))
  ∧ ∀ (s : State) (q : ConfigRequest), s.storeWrite = some q → s.configWaiting = [] →
    (s.releaseWrites.head?.all fun r => r.behind) = true →
    ∃ t, exec .settingsStoreWriteComplete s = .next t ∧ t.settings = s.settings.with q.entries ∧ t.storeWrite = none
      ∧ t.buffer = settle (.of (s.settings.with q.entries) s.creditEnv.up) (s.buffer.landMoved s.creditEnv (s.settings.with q.entries))
      ∧ t.configWaiting = [] ∧ t.releaseWrites = s.releaseWrites.map (fun r => { r with behind := false })
      ∧ t.store.volumes = s.store.volumes ∧ t.store.exportCounter = s.store.exportCounter
      ∧ (t.settings.partition ≠ s.settings.partition → t.scratchPointer = 0)
      ∧ (t.settings.partition = s.settings.partition → t.scratchPointer = s.scratchPointer ∧ t.elements = s.elements)
      ∧ (∀ tag, q.tag = some tag → (s.port q.port).up = true → t.sends q.port ⟨ReqKind.configure.code, tag, .done,
          decide (q.entries.map clampEntry ≠ q.entries), .settings (q.entries.map clampEntry), true⟩)
      ∧ (s.creditHolds → t.creditHolds) ∧ t.picker = s.picker ∧ t.drives = s.drives ∧ t.streams = s.streams

/-! ### Streams -/

/-- OPEN_STREAM that passes every test: the context set afresh; the LOCATE issued when the drive stands elsewhere, else the opening done
at once with the frame the drive stands at. A bay that R72 refuses, or whose stream is OPENING (R99), is answered so. A run that a drive
fault ended and that is not yet closed goes on beside the new work (log entry 31). -/
def Obligations.OpenStreamAccepted : Prop :=
  ∀ (s : State) (p : Port) (tag bay mode shrink : Byte) (n : Word) (b : Bay), s.takes p tag → bayOf bay = some b →
    b ∉ (s.port p).released →
    (∀ code, bayRefusal s p b = some code →
      exec (.openStream p tag bay mode shrink n) s = .next (s.replied p tag .openStream code))
    ∧ ∀ v, bayRefusal s p b = none → s.driveVolume b = some v → firstRefusal (openTests s p b mode shrink n.toNat) = none →
      ((s.drive b).standsAt (if mode = 1 then n.toNat else v.eod.getD 0) (openNeedsFrame v mode n.toNat) = false →
        exec (.openStream p tag bay mode shrink n) s
          = .next (pump (((setAside (openTag s p tag .openStream) b).modStream b fun _ => openedStream p tag v mode shrink n.toNat).modDrive b
              fun d => { d with continuation := none, order := some (.locate (if mode = 1 then n.toNat else v.eod.getD 0)),
                                state := .positioning, timer := d.timerAtIssue })))
      ∧ ((s.drive b).standsAt (if mode = 1 then n.toNat else v.eod.getD 0) (openNeedsFrame v mode n.toNat) = true →
        ∃ t, exec (.openStream p tag bay mode shrink n) s = .next t ∧ (t.stream b).state = .open
          ∧ (t.stream b).start = (if mode = 1 then n.toNat else v.eod.getD 0) ∧ (t.stream b).nextRecord = 0
          ∧ (t.drive b).activity = .stream p ∧ (t.driveVolume b).map (·.owner) = some (some p)
          ∧ ((mode = 1 ∧ n.toNat < v.eod.getD 0) ∨ (t.driveVolume b).map (·.eod) = some v.eod)
          ∧ t.buffer = s.buffer ∧ t.elements = s.elements ∧ t.picker = s.picker)

/-- R26. Where an opening is reported at its start block with a frame count: an APPEND, and a FROM n with n at end-of-data, change nothing
of the record but its owner; a FROM n below end-of-data is the overwrite, in one store write with the owner. No other record changes. The
report is a LOCATED, or the drive already standing there. -/
def Obligations.OverwriteAtOpening : Prop :=
  ∀ (s t : State) (b : Bay) (p : Port) (v : Volume) (openFrom : Option Nat) (frame : Nat), s.driveVolume b = some v →
    ((∃ a, (s.drive b).order = some (.locate a) ∧ (s.stream b).state = .opening ∧ (s.stream b).abandoned = false
        ∧ (s.stream b).port = some p ∧ (s.stream b).openFrom = openFrom ∧ exec (.located b a frame) s = .next t)
      ∨ ∃ (tag bay mode shrink : Byte) (n : Word), s.takes p tag ∧ bayOf bay = some b ∧ b ∉ (s.port p).released
        ∧ bayRefusal s p b = none ∧ firstRefusal (openTests s p b mode shrink n.toNat) = none
        ∧ (s.drive b).position = some ⟨some (if mode = 1 then n.toNat else v.eod.getD 0), some frame⟩
        ∧ openFrom = (if mode = 1 then some n.toNat else none)
        ∧ exec (.openStream p tag bay mode shrink n) s = .next t) →
    (openFrom.all (fun n => decide (v.eod.getD 0 ≤ n)) = true → t.driveVolume b = some { v with owner := some p })
    ∧ (∀ n, openFrom = some n → n < v.eod.getD 0 → t.driveVolume b = some
        { v with owner := some p, eod := if n = 0 then none else some n, framesUsed := frame,
                 marks := v.marks.filter (fun m => decide (m < n)), verifiedTo := min v.verifiedTo n,
                 failure := v.failure.filter (fun x => decide (x < n)), rawTotal := 0, storedTotal := 0 })
    ∧ ∀ l, l ≠ v.label → t.volume l = s.volume l

/-- WRITE_RECORD and WRITE_MARK accepted: a record appended under the next record number, its data standing in a HELD descriptor, the
next record number raised by 1. A mark is STORED at once, and stays so while an earlier record is not yet stored. The number of the
descriptor taken is the lowest unused one (log entry 7). -/
def Obligations.WritesAppendRecords : Prop :=
  (∀ (s : State) (p : Port) (stream kind : Byte) (raw : List Byte) (b : Bay), (s.port p).up = true → bayOf stream = some b →
    (kind = 0 ∨ (kind = 1 ∧ raw.length % 4 = 0)) → (s.stream b).port = some p → (s.stream b).state = .open →
    1 ≤ raw.length → raw.length ≤ 32768 → windowsHold s.buffer p (unitsFor raw.length) = true →
    ∃ t r d, exec (.writeRecord p stream kind raw) s = .next t ∧ (t.stream b).nextRecord = (s.stream b).nextRecord + 1
      ∧ (t.stream b).records.map (·.num) = (s.stream b).records.map (·.num) ++ [(s.stream b).nextRecord]
      ∧ (t.stream b).records.getLast? = some r ∧ r.kind = (if kind = 1 then .index else .data) ∧ r.rawLen = raw.length
      ∧ t.buffer.desc r.desc = some d ∧ d.data = raw ∧ d.units.length = unitsFor raw.length
      ∧ t.stream b.other = s.stream b.other
      ∧ { t with buffer := s.buffer, streams := s.streams, engine := s.engine, ports := s.ports } = s)
  ∧ ∀ (s : State) (p : Port) (stream : Byte) (b : Bay), (s.port p).up = true → bayOf stream = some b →
    (s.stream b).port = some p → (s.stream b).state = .open → markCount s b < 63 → windowsHold s.buffer p 0 = true →
    ∃ t, exec (.writeMark p stream) s = .next t ∧ (t.stream b).nextRecord = (s.stream b).nextRecord + 1
      ∧ (((s.stream b).records.find? fun r => decide (r.state ≠ .inDrive)).any (fun r => decide (r.state ≠ .stored)) = true →
          (t.stream b).records
            = (s.stream b).records ++ [⟨(s.stream b).nextRecord, .mark, 0, .stored, none, none, 0, s.buffer.freshId, none⟩]
          ∧ t.drives = s.drives)
      ∧ t.stream b.other = s.stream b.other
      ∧ { t with buffer := s.buffer, streams := s.streams, engine := s.engine, drives := s.drives, ports := s.ports } = s

/-- Writes refused: an OPEN stream halts with its refused count at 0; a halted one counts and sends nothing; a stream past OPEN answers
and stands as it was; nothing is consumed. -/
def Obligations.WritesRefused : Prop :=
  ∀ (s : State) (p : Port) (stream kind : Byte) (raw : List Byte) (b : Bay), (s.port p).up = true → bayOf stream = some b →
    (flagOf kind).isSome = true → (s.stream b).port = some p →
    ((s.stream b).state = .open → (raw = [] ∨ 32768 < raw.length ∨ (kind = 1 ∧ raw.length % 4 ≠ 0)) →
      exec (.writeRecord p stream kind raw) s = .next (pump ((queueWriteRefused s p .writeRecord stream .badLength
        (some (s.stream b).nextRecord)).modStream b fun c => { c with state := .writeHalted, refused := 0 })))
    ∧ ((s.stream b).state = .open → 1 ≤ raw.length → raw.length ≤ 32768 → (kind = 1 → raw.length % 4 = 0) →
      windowsHold s.buffer p (unitsFor raw.length) = false →
      exec (.writeRecord p stream kind raw) s = .next (pump ((queueWriteRefused s p .writeRecord stream .creditOverrun
        (some (s.stream b).nextRecord)).modStream b fun c => { c with state := .writeHalted, refused := 0 })))
    ∧ ((s.stream b).state = .open → 63 ≤ markCount s b →
      exec (.writeMark p stream) s = .next (pump ((queueWriteRefused s p .writeMark stream .setLimit
        (some (s.stream b).nextRecord)).modStream b fun c => { c with state := .writeHalted, refused := 0 })))
    ∧ ((s.stream b).state = .writeHalted →
      exec (.writeRecord p stream kind raw) s = .next (pump (s.modStream b fun c => { c with refused := c.refused + 1 }))
      ∧ exec (.writeMark p stream) s = .next (pump (s.modStream b fun c => { c with refused := c.refused + 1 })))
    ∧ ((s.stream b).state = .mediumEnd →
      exec (.writeRecord p stream kind raw) s
        = .next (pump (queueWriteRefused s p .writeRecord stream .endOfMedium (some (s.stream b).nextRecord)))
      ∧ exec (.writeMark p stream) s
        = .next (pump (queueWriteRefused s p .writeMark stream .endOfMedium (some (s.stream b).nextRecord))))
    ∧ ((s.stream b).state = .draining →
      exec (.writeRecord p stream kind raw) s
        = .next (pump (queueWriteRefused s p .writeRecord stream .noStream (some (s.stream b).nextRecord)))
      ∧ exec (.writeMark p stream) s
        = .next (pump (queueWriteRefused s p .writeMark stream .noStream (some (s.stream b).nextRecord))))
    ∧ ((s.stream b).state = .faulted → ∀ code, (s.stream b).fault = some code →
      exec (.writeRecord p stream kind raw) s
        = .next (pump (queueWriteRefused s p .writeRecord stream code.reply (some (s.stream b).nextRecord)))
      ∧ exec (.writeMark p stream) s
        = .next (pump (queueWriteRefused s p .writeMark stream code.reply (some (s.stream b).nextRecord))))

/-- RESUME_STREAM of a halted stream opens it again; of an open one it answers only. SYNC is answered at once when its target is
reached, by a commit or by a loss (of two losses, END OF MEDIUM goes first: log entry 51), and waits otherwise; SYNC_ANSWERED answers one
whose target is committed. -/
def Obligations.ResumeAndSync : Prop :=
  ∀ (s : State) (p : Port) (tag stream : Byte) (b : Bay), s.takes p tag → bayOf stream = some b → (s.stream b).port = some p →
    ((s.stream b).state = .open → exec (.resumeStream p tag stream) s
      = .next (pump ((answer (openTag s p tag .resumeStream) p tag .resumeStream .done
          (.resume (s.stream b).refused (s.stream b).nextRecord)).modStream b fun c => { c with refused := 0 })))
    ∧ ((s.stream b).state = .writeHalted → ∃ t, exec (.resumeStream p tag stream) s = .next t ∧ (t.stream b).state = .open
        ∧ (t.stream b).refused = 0 ∧ (t.stream b).nextRecord = (s.stream b).nextRecord
        ∧ t.ports = (s.replied p tag .resumeStream .done (.resume (s.stream b).refused (s.stream b).nextRecord)).ports
        ∧ t.store = s.store ∧ t.elements = s.elements ∧ t.picker = s.picker ∧ t.drives = s.drives ∧ t.buffer = s.buffer)
    ∧ ((s.stream b).state ≠ .closed → (s.stream b).state ≠ .opening →
      (∀ code, (s.stream b).syncOutcome (s.stream b).nextRecord = some code → exec (.sync p tag stream) s
        = .next (pump ((answer (openTag s p tag .sync) p tag .sync code
            (.sync b (s.stream b).highestCommitted ((s.stream b).start + (s.stream b).committedCount))).modStream b fun c =>
              { c with unreported := 0, timer := .stopped, highestReported := c.highestCommitted })))
      ∧ ((s.stream b).syncOutcome (s.stream b).nextRecord = none → exec (.sync p tag stream) s
        = .next (pump ((openTag s p tag .sync).modStream b fun c => { c with syncs := c.syncs ++ [⟨tag, c.nextRecord⟩] }))))
    ∧ (∀ y, (s.stream b).syncs = [y] → y.upTo ≤ (s.stream b).committedCount → exec (.syncAnswered b) s
      = .next (pump ((answer s p y.tag .sync .done
          (.sync b (s.stream b).highestCommitted ((s.stream b).start + (s.stream b).committedCount))).modStream b fun c =>
            { c with syncs := [], unreported := 0, timer := .stopped, highestReported := c.highestCommitted })))

/-- CLOSE_STREAM with DRAIN sets the stream draining with the request waiting; with DISCARD it sets the discard mark too; on a FAULTED
stream it closes it at once. The settling at the end of the DRAIN's step, which releases nothing, is log entry 9. STREAM_CLOSE closes a
drained stream: CLOSED, nothing waiting, the bay free of it, and each ABORT that waited answered DONE to the port that sent it. -/
def Obligations.StreamsClose : Prop :=
  (∀ (s : State) (p : Port) (tag stream : Byte) (b : Bay), s.takes p tag → bayOf stream = some b → (s.stream b).port = some p →
    ((s.stream b).state = .open ∨ (s.stream b).state = .writeHalted ∨ (s.stream b).state = .mediumEnd
      ∨ (s.stream b).state = .draining →
      exec (.closeStream p tag stream 0) s = .next (pump (onBuffer ((openTag s p tag .closeStream).modStream b fun c =>
        { c with state := .draining, closing := c.closing ++ [⟨p, false, .drain, some tag⟩] }) settle))
      ∧ ∃ t, exec (.closeStream p tag stream 1) s = .next t ∧ (t.stream b).state = .draining ∧ (t.stream b).discard = true
        ∧ (t.stream b).closing = (s.stream b).closing ++ [⟨p, false, .discard, some tag⟩] ∧ t.store = s.store ∧ t.drives = s.drives
        ∧ t.elements = s.elements ∧ t.picker = s.picker)
    ∧ ((s.stream b).state = .faulted → ∀ mode, (flagOf mode).isSome = true →
      ∃ t, exec (.closeStream p tag stream mode) s = .next t ∧ (t.stream b).state = .closed ∧ (t.stream b).closing = []
        ∧ (t.stream b).fault = none ∧ t.store = s.store ∧ t.elements = s.elements ∧ t.picker = s.picker))
  ∧ ∀ (s : State) (b : Bay), streamDrained s b = true → ∃ t, exec (.streamClose b) s = .next t ∧ (t.stream b).state = .closed
    ∧ (t.stream b).closing = [] ∧ (t.stream b).syncs = [] ∧ (t.stream b).timer = .stopped ∧ (t.stream b).discard = false
    ∧ (∀ q ∈ (s.stream b).closing, ∀ tag, q.isAbort = true → q.tag = some tag → (s.port q.port).up = true →
        t.sends q.port ⟨ReqKind.abort.code, tag, .done, false, .none, true⟩)
    ∧ (∀ p, (s.drive b).activity = .stream p → (t.drive b).activity = .none)
    ∧ { t.drive b with activity := (s.drive b).activity } = s.drive b
    ∧ t.store = s.store ∧ t.elements = s.elements ∧ t.picker = s.picker ∧ t.buffer = s.buffer

/-! ### Runs -/

/-- READ_RECORDS that passes every test, on a drive that stands elsewhere: the run in POSITIONING with its count clamped to 256, the bay's
activity RESTORE, and the LOCATE issued; an address that does not resolve is refused. VERIFY that passes every test: over an empty range
the run ends DONE at once; on a drive that stands elsewhere the LOCATE is issued. The continuation block becomes absent. A run that a
drive fault ended and that is not yet closed goes on beside the new one (log entry 31). -/
def Obligations.RunsAccepted : Prop :=
  (∀ (s : State) (p : Port) (tag bay form stop : Byte) (count : Half) (first k e : Word) (b : Bay) (v : Volume) (a : Address)
    (sm : Bool), s.takes p tag → bayOf bay = some b → b ∉ (s.port p).released → bayRefusal s p b = none →
    addressOf form first k e = some a → flagOf stop = some sm → 1 ≤ count.toNat → firstRefusal (readableTests s p b) = none →
    s.driveVolume b = some v →
    (∀ code, resolve v (s.drive b).continuation a = .inl code →
      exec (.readRecords p tag bay form stop count first k e) s = .next (s.replied p tag .readRecords code))
    ∧ ∀ n, resolve v (s.drive b).continuation a = .inr n → (s.drive b).posBlock ≠ some n →
      exec (.readRecords p tag bay form stop count first k e) s
        = .next (pump (((setAside (openTag s p tag .readRecords) b).setRestore b (some
            { phase := .positioning, port := p, tag := some tag, volume := v.label, address := a, count := min count.toNat 256,
              clamped := decide (256 < count.toNat), stopAtMark := sm, eod := v.eod.getD 0, target := n,
              start := if a.indirect.isSome then none else some n, next := n, blocksRead := 0, delivered := 0, markRead := false,
              staged := [], index := none, ending := none, aborts := [] })).modDrive b fun d =>
            { d with activity := .restore p, order := some (.locate n), state := .positioning, timer := d.timerAtIssue })))
  ∧ ∀ (s : State) (p : Port) (tag bay form : Byte) (a n : Word) (b : Bay) (v : Volume) (f : VerifyForm), s.takes p tag →
    bayOf bay = some b → b ∉ (s.port p).released → bayRefusal s p b = none → verifyFormOf form a n = some f →
    firstRefusal (verifyTests s p b f) = none → s.driveVolume b = some v →
    ((verifyRange v f).1 ≠ (verifyRange v f).2 → (s.drive b).posBlock ≠ some (verifyRange v f).1 →
      exec (.verify p tag bay form a n) s
        = .next (pump (((setAside (openTag s p tag .verify) b).setVerify b (some
            { phase := .positioning, port := p, tag := some tag, volume := v.label, form := f, start := (verifyRange v f).1,
              limit := (verifyRange v f).2, eod := v.eod.getD 0, next := (verifyRange v f).1, checked := 0, inHand := none,
              driveFailed := false, ending := none, aborts := [] })).modDrive b fun d =>
            { d with activity := .verify p, continuation := none, order := some (.locate (verifyRange v f).1),
                     state := .positioning, timer := d.timerAtIssue })))
    ∧ ((verifyRange v f).1 = (verifyRange v f).2 → ∃ t r, exec (.verify p tag bay form a n) s = .next t
      ∧ t.verifyRun b = some r ∧ r.phase = .ending ∧ r.ending = some ⟨.done, some (verifyRange v f).1⟩ ∧ r.checked = 0
      ∧ (t.drive b).activity = .verify p ∧ (t.drive b).continuation = none ∧ t.store = s.store ∧ t.buffer = s.buffer)

/-- ABORT where the bay has no run to end: DONE at once where its stream is CLOSED; an opening is abandoned and an open stream drains by
DISCARD, with the ABORT waiting; a FAULTED stream closes, and then DONE. A run that is the bay's activity, whosever it is, or that is the
port's takes its ending with the ABORT waiting; but a run of the port's that a link loss has ended, its tag gone and its close still to
come, refuses DRIVE BUSY (R155, R167, R179), and that it does so also when its drive has faulted since is log entry 71. That the port may
claim the bay of another port's run, and that the ABORT then waits for its own port, is log entry 16. That a run is ended first, whatever
stands in the bay's stream context, and that a run of another port that is not the bay's activity is left alone is log entry 34; the
settling at the end of the step is log entry 9. -/
def Obligations.AbortEndsTheBay : Prop :=
  ∀ (s : State) (p : Port) (tag bay : Byte) (b : Bay), s.takes p tag → bayOf bay = some b → (s.drive b).claim = some p →
    ((∀ r, s.restore b = some r → r.port ≠ p ∧ (s.drive b).activity.isRestore = false) →
      (∀ r, s.verifyRun b = some r → r.port ≠ p ∧ (s.drive b).activity.isVerify = false) → (s.stream b).state = .closed →
      exec (.abort p tag bay) s = .next (pump (onBuffer (answer (openTag s p tag .abort) p tag .abort .done) settle)))
    ∧ ((∀ r, s.restore b = some r → r.port ≠ p ∧ (s.drive b).activity.isRestore = false) →
      (∀ r, s.verifyRun b = some r → r.port ≠ p ∧ (s.drive b).activity.isVerify = false) → (s.stream b).active = true →
      ∃ t, exec (.abort p tag bay) s = .next t ∧ (t.stream b).state = .draining ∧ (t.stream b).discard = true
        ∧ (t.stream b).closing = (s.stream b).closing ++ [⟨p, true, .discard, some tag⟩] ∧ t.store = s.store ∧ t.drives = s.drives)
    ∧ ((∀ r, s.restore b = some r → r.port ≠ p ∧ (s.drive b).activity.isRestore = false) →
      (∀ r, s.verifyRun b = some r → r.port ≠ p ∧ (s.drive b).activity.isVerify = false) → (s.stream b).state = .opening →
      exec (.abort p tag bay) s = .next (pump (onBuffer ((openTag s p tag .abort).modStream b fun c =>
        { c with abandoned := true, closing := c.closing ++ [⟨p, true, .discard, some tag⟩] }) settle)))
    ∧ ((∀ r, s.restore b = some r → r.port ≠ p ∧ (s.drive b).activity.isRestore = false) →
      (∀ r, s.verifyRun b = some r → r.port ≠ p ∧ (s.drive b).activity.isVerify = false) → (s.stream b).state = .faulted →
      exec (.abort p tag bay) s
        = .next (pump (onBuffer (answer (closeStream (openTag s p tag .abort) b) p tag .abort .done) settle))
      ∧ ((closeStream (openTag s p tag .abort) b).stream b).state = .closed)
    ∧ (s.runLost p b = true →
      exec (.abort p tag bay) s = .next (pump (onBuffer (answer (openTag s p tag .abort) p tag .abort .driveBusy) settle)))
    ∧ (∀ r, s.runLost p b = false → s.restore b = some r → (s.drive b).activity.isRestore = true ∨ r.port = p →
      ∃ t u, exec (.abort p tag bay) s = .next t ∧ t.restore b = some u
        ∧ u.ending = some (r.ending.getD ⟨.aborted, none⟩) ∧ u.phase = .ending ∧ u.aborts = r.aborts ++ [⟨p, tag⟩]
        ∧ t.store = s.store ∧ t.drives = s.drives)
    ∧ (∀ r, s.runLost p b = false → (∀ q, s.restore b = some q → q.port ≠ p ∧ (s.drive b).activity.isRestore = false) →
      s.verifyRun b = some r → (s.drive b).activity.isVerify = true ∨ r.port = p →
      ∃ t u, exec (.abort p tag bay) s = .next t ∧ t.verifyRun b = some u
        ∧ u.ending = some (r.ending.getD ⟨.aborted, none⟩) ∧ u.phase = .ending ∧ u.aborts = r.aborts ++ [⟨p, tag⟩]
        ∧ t.store = s.store ∧ t.drives = s.drives)

/-- RESTORE_RUN_CLOSE and VERIFY_RUN_CLOSE of a run whose closing conditions stand: the run gone, the bay free of it, the reply with its
ending, and then one DONE for each ABORT that waited, to the port that sent it (log entry 16). A run that a drive fault ended and that
newer work left behind (log entry 31) closes in the same way, the bay's activity untouched. -/
def Obligations.RunsClose : Prop :=
  (∀ (s : State) (b : Bay) (r : RestoreRun) (e : Ending), s.restore b = some r → r.ending = some e →
    restoreCloses s b r = true → (s.drive b).activity = .restore r.port →
    exec (.restoreRunClose b) s = .next (pump (answerAborts (answerHeld
      ((s.setRestore b none).modDrive b fun d => { d with activity := .none }) r.port r.tag .readRecords e.code
      (.read b r.start r.delivered e.block) r.clamped) r.aborts)))
  ∧ (∀ (s : State) (b : Bay) (r : VerifyRun) (e : Ending) (v : Volume), s.verifyRun b = some r → r.ending = some e →
    verifyCloses s b r = true → (s.drive b).activity = .verify r.port → s.volume r.volume = some v →
    exec (.verifyRunClose b) s = .next (pump (answerAborts (answerHeld
      ((s.setVerify b none).modDrive b fun d => { d with activity := .none }) r.port r.tag .verify e.code
      (.verify b r.form.code r.start r.checked e.block v.verifiedTo v.failure)) r.aborts)))
  ∧ (∀ (s : State) (b : Bay) (r : RestoreRun) (rest : List RestoreRun) (e : Ending), s.restore b = none →
    (s.restores.get b).left = r :: rest → r.ending = some e → leftRestoreCloses s b r = true →
    exec (.restoreRunClose b) s = .next (pump (answerAborts (answerHeld (s.setRestoreRuns b ⟨none, rest⟩) r.port r.tag
      .readRecords e.code (.read b r.start r.delivered e.block) r.clamped) r.aborts)))
  ∧ ∀ (s : State) (b : Bay) (r : VerifyRun) (rest : List VerifyRun) (e : Ending) (v : Volume), s.verifyRun b = none →
    (s.verifies.get b).left = r :: rest → r.ending = some e → leftVerifyCloses r = true → s.volume r.volume = some v →
    exec (.verifyRunClose b) s = .next (pump (answerAborts (answerHeld (s.setVerifyRuns b ⟨none, rest⟩) r.port r.tag .verify e.code
      (.verify b r.form.code r.start r.checked e.block v.verifiedTo v.failure)) r.aborts))

/-! ### The drives -/

/-- THREADED of a class 1 to 3: the bay IDLE at block 0 and frame 0, the class and the write protection in the volume's record, frames
used at most the capacity, and a LOAD that waited is done; of another class: the tape stands there too, and UNTHREAD is issued.
THREAD_FAULT: the hard error counted, a count at 65,535 left so, nothing threaded, and the waiting entry has its cartridge taken back. EJECTED of an UNLOAD:
nothing threaded, and the waiting entry with a destination goes on. -/
def Obligations.ThreadingReported : Prop :=
  (∀ (s : State) (b : Bay) (cls : Nat) (wp : Bool), (s.drive b).order = some .thread → 1 ≤ cls → cls ≤ 3 →
    ∃ t, exec (.threaded b cls wp) s = .next t ∧ (t.drive b).state = .idle
      ∧ (t.drive b).position = some ⟨some 0, some 0⟩ ∧ (t.drive b).volume = (s.drive b).volume ∧ (t.drive b).order = none
      ∧ (∀ v, s.driveVolume b = some v → t.driveVolume b = some
          { v with cls := some cls, writeProtected := wp, framesUsed := min v.framesUsed (Config.capacity (some cls)) })
      ∧ (∀ e, threadWaiter s b = some e → ∀ x ∈ t.picker.queue, x.number = e.number → x.requester = .internal)
      ∧ t.buffer = s.buffer ∧ t.streams = s.streams ∧ t.settings = s.settings)
  ∧ (∀ (s : State) (b : Bay) (cls : Nat) (wp : Bool), (s.drive b).order = some .thread → cls = 0 ∨ 3 < cls →
    ∃ t, exec (.threaded b cls wp) s = .next t ∧ (t.drive b).state = .unthreading ∧ (t.drive b).order = some (.unthread true)
      ∧ (t.drive b).position = some ⟨some 0, some 0⟩ ∧ t.store = s.store ∧ t.elements = s.elements ∧ t.picker = s.picker)
  ∧ (∀ (s : State) (b : Bay), (s.drive b).order = some .thread →
    ∃ t, exec (.threadFault b) s = .next t ∧ (t.drive b).state = .empty ∧ (t.drive b).volume = none ∧ (t.drive b).position = none
      ∧ (t.drive b).order = none ∧ (t.drive b).claim = (s.drive b).claim
      ∧ (∀ l v, (s.drive b).volume = some l → s.volume l = some v →
          t.volume l = some { v with hardErrors := if v.hardErrors < 65535 then v.hardErrors + 1 else v.hardErrors })
      ∧ (∀ e, threadWaiter s b = some e → ∃ x ∈ t.picker.queue, x.number = e.number ∧ x.replied = true ∧ x.leg = .threadReturn)
      ∧ t.elements = s.elements ∧ t.buffer = s.buffer)
  ∧ ∀ (s : State) (b : Bay) (e : MoveEntry), (s.drive b).order = some (.unthread false) → unthreadWaiter s b = some e →
    e.dest.isSome = true →
    ∃ t, exec (.ejected b) s = .next t ∧ (t.drive b).state = .empty ∧ (t.drive b).volume = none ∧ (t.drive b).position = none
      ∧ (t.drive b).order = none ∧ (∃ x ∈ t.picker.queue, x.number = e.number ∧ x.replied = true)
      ∧ t.store = s.store ∧ t.elements = s.elements ∧ t.buffer = s.buffer

/-- STATUS within the full audit that asked for it, at the last bay or with the other bay still to ask at start-up, and outside any audit
(log entry 26). Of an empty bay: its entry EMPTY, nothing threaded. Of a threaded cartridge of a class 1 to 3: the bay IDLE at an UNKNOWN
position, with a volume only if a record carries the label. After the last bay the audit is complete and the library READY; else the
other bay is asked. -/
def Obligations.StatusRebuilds : Prop :=
  ∀ (s : State) (b : Bay), (s.drive b).order = some .query → s.picker.held = none →
    s.installed (bayPea b) = true → (s.drive b).state ≠ .faulted →
    (∀ a, s.picker.audit = some a → a.full = true ∧ a.asking = some b ∧ (a.bays = [] ∨ (a.bays = [b.other] ∧ a.startup = true
      ∧ (s.drive b.other).owes = false ∧ (s.picker.queue.all fun e => e.phase ≠ .threadWait && e.phase ≠ .unthreadWait) = true))) →
    (∀ (present threaded wp : Bool) (l : Option Label) (cls : Nat), ∃ t, exec (.status b present l threaded cls wp) s = .next t
      ∧ (∀ a, s.picker.audit = some a → a.bays = [] →
          t.picker.audit = none ∧ t.picker.condition = .ready ∧ t.picker.state = .idle ∧ t.picker.startupDue = false)
      ∧ (∀ a, s.picker.audit = some a → a.bays = [b.other] → (t.drive b.other).order = some .query
          ∧ ∃ x, t.picker.audit = some x ∧ x.asking = some b.other ∧ x.bays = []))
    ∧ (∃ t, exec (.status b false none false 0 false) s = .next t ∧ t.elemState (bayPea b) = some .empty
      ∧ (t.drive b).state = .empty ∧ (t.drive b).volume = none ∧ (t.drive b).order = none
      ∧ (∀ v ∈ t.store.volumes, v.location ≠ .element (bayPea b)) ∧ t.buffer = s.buffer)
    ∧ ∀ (l : Option Label) (cls : Nat) (wp : Bool), 1 ≤ cls → cls ≤ 3 →
      ∃ t, exec (.status b true l true cls wp) s = .next t ∧ (t.drive b).state = .idle
        ∧ (t.drive b).position = some ⟨none, none⟩ ∧ (t.drive b).order = none
        ∧ ((t.elemState (bayPea b)).any fun x => x.isFull && decide (x.label = l)) = true
        ∧ (∀ k, (t.drive b).volume = some k → l = some k ∧ (t.volume k).isSome = true) ∧ t.buffer = s.buffer

/-- LOCATED for the block a stream's opening waits for: the drive stands there, the stream OPEN, the volume the port's. BLANK to the
LOCATE of a verify pass: READ FAULT at that block, the position as it was. -/
def Obligations.PositioningReported : Prop :=
  (∀ (s : State) (b : Bay) (a frame : Nat) (p : Port), (s.drive b).order = some (.locate a) → (s.stream b).state = .opening →
    (s.stream b).abandoned = false → (s.stream b).port = some p →
    ∃ t, exec (.located b a frame) s = .next t ∧ (t.drive b).position = some ⟨some a, some frame⟩ ∧ (t.drive b).state = .idle
      ∧ (t.drive b).order = none ∧ (t.drive b).activity = .stream p ∧ (t.stream b).state = .open
      ∧ (∀ v, s.driveVolume b = some v → (t.driveVolume b).map (·.owner) = some (some p))
      ∧ t.elements = s.elements ∧ t.picker = s.picker)
  ∧ ∀ (s : State) (b : Bay) (a : Nat) (r : VerifyRun), (s.drive b).order = some (.locate a) → (s.stream b).state ≠ .opening →
    s.restore b = none → s.verifyRun b = some r → r.ending = none →
    ∃ t u, exec (.blank b) s = .next t ∧ t.verifyRun b = some u ∧ u.ending = some ⟨.readFault, some a⟩ ∧ u.phase = .ending
      ∧ (t.drive b).position = (s.drive b).position ∧ (t.drive b).order = none ∧ (t.drive b).state = .idle
      ∧ t.store = s.store ∧ t.elements = s.elements ∧ t.picker = s.picker

/-- COMMITTED for the oldest write: it leaves the in-flight list, its frames, block and bytes go to the volume, and its record is the
stream's highest committed (R110); a mark adds 1 frame, 32 stored bytes and its block to the mark list (R25).
COMMIT_LATENCY_TIMER_EXPIRY, whatever time remains (log entry 3): a COMMIT notice with the figure and the highest committed record as
they stand, and everything reported; with the port DOWN the timer stops and the count is kept. -/
def Obligations.CommitsRecordedAndReported : Prop :=
  (∀ (s : State) (b : Bay) (f : Flight) (later : List Flight) (r : Rec) (v : Volume), (s.drive b).inFlight = f :: later →
    f.isMark = false → (s.stream b).records.find? (fun x => x.num = f.record) = some r → s.driveVolume b = some v →
    ∃ t k, exec (.committed b f.block) s = .next t ∧ (t.drive b).inFlight = later ++ k
      ∧ (t.stream b).highestCommitted = some r.num
      ∧ t.driveVolume b = some { v with framesUsed := v.framesUsed + f.frames, eod := some (f.block + 1),
                                        rawTotal := min (v.rawTotal + r.rawLen) 18446744073709551615,
                                        storedTotal := min (v.storedTotal + ((r.coded.map (·.storedLen)).getD 0 + 32))
                                          18446744073709551615 }
      ∧ t.elements = s.elements ∧ t.picker = s.picker ∧ t.settings = s.settings)
  ∧ (∀ (s : State) (b : Bay) (f : Flight) (later : List Flight) (r : Rec) (v : Volume), (s.drive b).inFlight = f :: later →
    f.isMark = true → (s.stream b).records.find? (fun x => x.num = f.record) = some r → s.driveVolume b = some v →
    ∃ t k, exec (.committed b f.block) s = .next t ∧ (t.drive b).inFlight = later ++ k
      ∧ (t.stream b).highestCommitted = some r.num
      ∧ t.driveVolume b = some { v with framesUsed := v.framesUsed + 1, eod := some (f.block + 1), marks := v.marks ++ [f.block],
                                        storedTotal := min (v.storedTotal + 32) 18446744073709551615 }
      ∧ t.elements = s.elements ∧ t.picker = s.picker ∧ t.settings = s.settings)
  ∧ ∀ (s : State) (b : Bay) (p : Port), (s.stream b).timer.isRunning = true → (s.stream b).port = some p →
    ((s.port p).up = true → exec (.commitLatencyTimerExpiry b) s = .next (pump ((queueNotice s p
      (.commit b (ratioFigure (s.stream b).rawTotal (s.stream b).storedTotal) ((s.stream b).highestCommitted.getD 4294967295)
        ((s.stream b).start + (s.stream b).committedCount))).modStream b fun c =>
          { c with unreported := 0, timer := .stopped, highestReported := c.highestCommitted })))
    ∧ ((s.port p).up = false →
      exec (.commitLatencyTimerExpiry b) s = .next (pump (s.modStream b fun c => { c with timer := .stopped })))

/-- WRITE_FAULT for the oldest write of a record written fewer than four times, with room for a gap: nothing in flight, the position back
at the block, the records to be written again, the frames spent and a soft error counted, a count at 65,535 left so, and the GAP
issued. GAP_DONE: 64 more frames used, and no gap in flight. -/
def Obligations.WriteFaultsRecovered : Prop :=
  (∀ (s : State) (b : Bay) (f : Flight) (later : List Flight) (q : Position) (v : Volume),
    (s.drive b).inFlight = f :: later → (s.drive b).gap = false → (s.drive b).position = some q → s.driveVolume b = some v →
    (s.stream b).discard = false → (s.stream b).firstUnsent = none →
    ((s.stream b).records.all fun x => decide (x.num = f.record → x.writes < 4)) = true →
    v.framesUsed + f.frames + 64 ≤ Config.capacity v.cls →
    ∃ t, exec (.writeFault b f.block) s = .next t ∧ (t.drive b).inFlight = [] ∧ (t.drive b).gap = true
      ∧ (t.drive b).posBlock = some f.block ∧ (t.drive b).state = .writing
      ∧ ((t.stream b).records.all fun x => decide (x.state ≠ .inDrive)) = true
      ∧ t.driveVolume b = some { v with framesUsed := v.framesUsed + f.frames,
                                        softErrors := if v.softErrors < 65535 then v.softErrors + 1 else v.softErrors }
      ∧ t.elements = s.elements ∧ t.picker = s.picker)
  ∧ ∀ (s : State) (b : Bay) (v : Volume), (s.drive b).gap = true → s.driveVolume b = some v →
    ∃ t, exec (.gapDone b) s = .next t ∧ (t.drive b).gap = false
      ∧ t.driveVolume b = some { v with framesUsed := v.framesUsed + 64 }
      ∧ t.elements = s.elements ∧ t.picker = s.picker ∧ t.settings = s.settings

/-- DATA for the block a restore run reads: the drive stands after it, its frame UNKNOWN, and the run has read one block more. READ_FAULT:
the position UNKNOWN, and the run ends READ FAULT at the block. DATA for an index block: a block of another kind ends the run BAD INDEX
there, one whose header fails FORMAT ERROR, with the failure recorded; else its check is offered to the engine. -/
def Obligations.ReadsReported : Prop :=
  (∀ (s : State) (b : Bay) (n : Nat) (r : RestoreRun) (e : Staged) (id : Nat), (s.drive b).order = some (.read n) →
    s.restore b = some r → r.ending = none → r.index = none → r.staged.find? (fun x => x.stage = .reading) = some e →
    e.desc = some id →
    (∀ h x, dataFits h x = true → ∃ t u, exec (.data b n h x) s = .next t ∧ t.restore b = some u
      ∧ u.blocksRead = r.blocksRead + 1 ∧ (t.drive b).position = some ⟨some (n + 1), none⟩ ∧ (t.drive b).state = .idle
      ∧ (t.drive b).order = none ∧ t.elements = s.elements ∧ t.picker = s.picker ∧ t.settings = s.settings)
    ∧ ∃ t u, exec (.readFault b n) s = .next t ∧ t.restore b = some u ∧ u.ending = some ⟨.readFault, some n⟩
      ∧ u.phase = .ending ∧ (t.drive b).position = some ⟨none, none⟩ ∧ (t.drive b).order = none ∧ t.store = s.store
      ∧ t.elements = s.elements ∧ t.picker = s.picker)
  ∧ ∀ (s : State) (b : Bay) (n id : Nat) (r : RestoreRun) (x : IndexRead) (h : TapeHeader) (d : List Byte),
    (s.drive b).order = some (.read n) → s.restore b = some r → r.ending = none → r.index = some x → x.stage = .reading →
    x.desc = some id → dataFits h d = true →
    ∃ t u, exec (.data b n h d) s = .next t ∧ t.restore b = some u ∧ (t.drive b).position = some ⟨some (n + 1), none⟩
      ∧ (t.drive b).state = .idle ∧ (t.drive b).order = none
      ∧ (h.kind ≠ kindIndex → u.ending = some ⟨.badIndex, some x.block⟩ ∧ u.phase = .ending ∧ u.index = none ∧ t.store = s.store)
      ∧ (h.kind = kindIndex → headerPasses h = false → u.ending = some ⟨.formatError, some x.block⟩ ∧ u.phase = .ending
          ∧ u.index = none ∧ ∀ v, s.volume r.volume = some v → t.volume r.volume = some (v.failed x.block))
      ∧ (h.kind = kindIndex → headerPasses h = true → u.ending = none ∧ u.index = some { x with stage := .expanding }
          ∧ t.store = s.store ∧ (s.offered b = none →
            t.offered b = some ⟨b, .checkIndex (r.address.indirect.getD 0), id, h, false⟩))
      ∧ t.elements = s.elements ∧ t.picker = s.picker ∧ t.settings = s.settings

/-- FAULT from a drive that owes a reply, and the expiry of its reply timer, whatever time remains (log entry 3): the bay FAULTED or
OFFLINE, nothing outstanding, the position UNKNOWN, no activity, no continuation block, its volume kept. -/
def Obligations.BaysGoDown : Prop :=
  ∀ (s : State) (b : Bay), s.picker.audit = none →
    ((s.drive b).owes = true → (s.drive b).state ≠ .offline → ∃ t, exec (.fault b) s = .next t ∧ (t.drive b).state = .faulted
      ∧ (t.drive b).activity = .none ∧ (t.drive b).position = some ⟨none, none⟩ ∧ (t.drive b).continuation = none
      ∧ (t.drive b).owes = false ∧ (t.drive b).timer = .stopped ∧ (t.drive b).volume = (s.drive b).volume
      ∧ t.settings = s.settings)
    ∧ ((s.drive b).timer.isRunning = true → ∃ t, exec (.replyTimerExpiry b) s = .next t ∧ (t.drive b).state = .offline
      ∧ (t.drive b).activity = .none ∧ (t.drive b).position = some ⟨none, none⟩ ∧ (t.drive b).continuation = none
      ∧ (t.drive b).owes = false ∧ (t.drive b).timer = .stopped ∧ (t.drive b).volume = (s.drive b).volume
      ∧ t.settings = s.settings)

/-! ### The codec engine -/

/-- ENGINE_TAKE_ITEM of a free engine: the item in hand, its bay the last served; with both places full it is the item of the bay not
served last. Its place is empty, or holds what stood behind it (log entry 31); an entry that is due an empty place is offered first
(R148). SHRINK_COMPLETE: the engine free, and the record STORED with its form, stored length and check word. -/
def Obligations.EngineServesTheBays : Prop :=
  (∀ (s : State) (i j : Item), s.engine.inHand = none → s.engine.offer.get s.engine.lastServed.other = some i →
    i.bay = s.engine.lastServed.other → s.engine.offer.get s.engine.lastServed = some j →
    ∃ t, exec .engineTakeItem s = .next t ∧ t.engine.inHand = some i ∧ t.engine.lastServed = i.bay
      ∧ t.engine.offer.get i.bay.other = some j
      ∧ (s.engine.behind.get i.bay = [] → s.restores.get i.bay = ⟨none, []⟩ → t.engine.offer.get i.bay = none)
      ∧ (∀ k rest, s.engine.behind.get i.bay = k :: rest →
          t.engine.offer.get i.bay = some k ∧ t.engine.behind.get i.bay = rest)
      ∧ { t with engine := s.engine, restores := s.restores, ports := s.ports } = s)
  ∧ (∀ (s : State) (i : Item), s.engine.inHand = none → s.engine.offer.get i.bay = some i →
    s.engine.offer.get i.bay.other = none → s.restores.get i.bay.other = ⟨none, []⟩ →
    ∃ t, exec .engineTakeItem s = .next t ∧ t.engine.inHand = some i ∧ t.engine.lastServed = i.bay
      ∧ t.engine.offer.get i.bay.other = none
      ∧ (s.engine.behind.get i.bay = [] → s.restores.get i.bay = ⟨none, []⟩ → t.engine.offer.get i.bay = none)
      ∧ (∀ k rest, s.engine.behind.get i.bay = k :: rest →
          t.engine.offer.get i.bay = some k ∧ t.engine.behind.get i.bay = rest)
      ∧ { t with engine := s.engine, restores := s.restores, ports := s.ports } = s)
  ∧ (∀ (s : State) (b : Bay) (r : RestoreRun) (e : Staged) (id : Nat) (h : TapeHeader), s.engine.inHand = none →
    s.engine.offer = .all none → s.restores.get b.other = ⟨none, []⟩ → s.restores.get b = ⟨some r, []⟩ →
    r.staged.find? (fun x => x.stage = .expanding && !x.offered) = some e → e.desc = some id → e.header = some h →
    e.rawReady = true → s.engine.lastServed = b.other →
    ∃ t, exec .engineTakeItem s = .next t ∧ t.engine.inHand = some ⟨b, .deliver, id, h, false⟩ ∧ t.engine.lastServed = b
      ∧ { t with engine := s.engine, restores := s.restores, ports := s.ports } = s)
  ∧ ∀ (s : State) (i : Item) (on : Bool) (r : Rec), s.engine.inHand = some i → i.kind = .shrink on → i.abandoned = false →
    (s.stream i.bay).records.find? (fun x => x.desc = i.desc) = some r → (s.drive i.bay).takesWrite = false →
    (s.stream i.bay).nextBlock < 4294967295 →
    ((s.stream i.bay).records.all fun x => decide (x.block.getD 0 < 4294967295)) = true →
    ∃ t q, exec .shrinkComplete s = .next t ∧ t.engine.inHand = none ∧ q ∈ (t.stream i.bay).records ∧ q.num = r.num
      ∧ q.state = .stored ∧ q.coded = some ⟨(shrinkRecord on s.engine.workRaw).1, (shrinkRecord on s.engine.workRaw).2.length,
          checkWord s.engine.workRaw⟩
      ∧ t.store = s.store ∧ t.elements = s.elements ∧ t.picker = s.picker ∧ t.drives = s.drives

/-- EXPAND_DELIVER_COMPLETE and EXPAND_CHECK_COMPLETE: the engine free; a GOOD restore entry READY or on its way; a block that fails
reported to the volume and the run ended; a GOOD verify block counted and passed. An index block (R145): it is the run's index block no more, and the run ended
CHECK ERROR or FORMAT ERROR with the failure reported, BAD INDEX without the entry, NOT FOUND, BEYOND DATA, or positioned at the block
that the entry names. -/
def Obligations.ExpansionsComplete : Prop :=
  (∀ (s : State) (i : Item) (r : RestoreRun) (e : Staged), s.engine.inHand = some i → i.kind = .deliver → i.abandoned = false →
    s.restore i.bay = some r → r.ending = none → r.staged.find? (fun x => x.desc = some i.desc) = some e →
    ∃ t u, exec .expandDeliverComplete s = .next t ∧ t.engine.inHand = none ∧ t.restore i.bay = some u
      ∧ ((expandRecord i.header (itemBytes s i)).2 = .good → t.store = s.store
          ∧ ∃ x ∈ u.staged, x.block = e.block ∧ (x.stage = .ready ∨ x.stage = .sending))
      ∧ ((expandRecord i.header (itemBytes s i)).2 ≠ .good →
          u.ending = some ⟨(expandRecord i.header (itemBytes s i)).2.code, some e.block⟩ ∧ u.phase = .ending
          ∧ ∀ v, s.volume r.volume = some v → t.volume r.volume = some (v.failed e.block))
      ∧ t.elements = s.elements ∧ t.picker = s.picker ∧ t.drives = s.drives)
  ∧ (∀ (s : State) (i : Item) (e : Nat) (r : RestoreRun) (x : IndexRead), s.engine.inHand = some i → i.kind = .checkIndex e →
    i.abandoned = false → s.restore i.bay = some r → r.ending = none → r.index = some x → x.desc = some i.desc →
    ∃ t u, exec .expandCheckComplete s = .next t ∧ t.engine.inHand = none ∧ t.restore i.bay = some u ∧ u.index = none
      ∧ ((expandRecord i.header (itemBytes s i)).2 ≠ .good →
          u.ending = some ⟨(expandRecord i.header (itemBytes s i)).2.code, some x.block⟩ ∧ u.phase = .ending
          ∧ ∀ v, s.volume r.volume = some v → t.volume r.volume = some (v.failed x.block))
      ∧ ((expandRecord i.header (itemBytes s i)).2 = .good → t.store = s.store
          ∧ (indexEntry s.engine.workRaw e = none → u.ending = some ⟨.badIndex, some x.block⟩ ∧ u.phase = .ending)
          ∧ (indexEntry s.engine.workRaw e = some 4294967295 → u.ending = some ⟨.notFound, some x.block⟩ ∧ u.phase = .ending)
          ∧ ∀ n, indexEntry s.engine.workRaw e = some n → n ≠ 4294967295 →
            (r.eod ≤ n → u.ending = some ⟨.beyondData, some x.block⟩ ∧ u.phase = .ending)
            ∧ (n < r.eod → u.start = some n
              ∧ ((s.drive i.bay).posBlock ≠ some n → (s.drive i.bay).state = .idle → u.ending = none ∧ u.phase = .positioning
                ∧ (t.drive i.bay).order = some (.locate n) ∧ (t.drive i.bay).state = .positioning)))
      ∧ t.elements = s.elements ∧ t.picker = s.picker)
  ∧ ∀ (s : State) (i : Item) (r : VerifyRun) (n : Nat) (v : Volume), s.engine.inHand = some i → i.kind = .checkVerify →
    i.abandoned = false → s.verifyRun i.bay = some r → r.inHand = some (n, i.desc) → s.volume r.volume = some v →
    ∃ t u, exec .expandCheckComplete s = .next t ∧ t.engine.inHand = none ∧ t.verifyRun i.bay = some u
      ∧ u.checked = r.checked + 1 ∧ u.inHand = none
      ∧ ((expandRecord i.header (itemBytes s i)).2 = .good → t.volume r.volume = some (v.passed n))
      ∧ ((expandRecord i.header (itemBytes s i)).2 ≠ .good → t.volume r.volume = some (v.failed n) ∧ u.phase = .ending)
      ∧ t.elements = s.elements ∧ t.picker = s.picker ∧ t.drives = s.drives

/-! ### The segment buffer -/

/-- An allocation complete, and the drive at its block: READ issued for the index block or the staged entry that waited; or the entry free
to offer its item. The internal reserve whole, and the drive at the next block: all of it HELD by the run's block in one descriptor, whose
number is the lowest unused one (log entry 7), and READ issued. That a drive which stands elsewhere is asked nothing is log entries 16
and 62. -/
def Obligations.AllocationsComplete : Prop :=
  (∀ (s : State) (b : Bay) (a : Alloc) (r : RestoreRun) (e : Staged), s.buffer.readAlloc b = some a →
    s.buffer.allocComplete a = true → s.restore b = some r → r.ending = none → r.index = none →
    r.staged.find? (fun x => x.stage = .reserving) = some e → (s.drive b).owes = false → (s.drive b).state = .idle →
    ((s.drive b).posBlock = some e.block → ∃ t u, exec (.readAllocationComplete b) s = .next t ∧ t.restore b = some u
      ∧ u.staged = r.staged.map (fun x => if x.block = e.block then { x with desc := a.desc, stage := .reading } else x)
      ∧ (t.drive b).order = some (.read e.block) ∧ (t.drive b).state = .reading ∧ (t.drive b).timer = .running 600000
      ∧ t.store = s.store ∧ t.elements = s.elements ∧ t.picker = s.picker)
    ∧ ((s.drive b).posBlock ≠ some e.block → exec (.readAllocationComplete b) s = .next s))
  ∧ (∀ (s : State) (b : Bay) (a : Alloc) (r : RestoreRun) (x : IndexRead), s.buffer.readAlloc b = some a →
    s.buffer.allocComplete a = true → s.restore b = some r → r.ending = none → r.index = some x → (s.drive b).owes = false →
    (s.drive b).state = .idle →
    ((s.drive b).posBlock = some x.block → ∃ t u, exec (.readAllocationComplete b) s = .next t ∧ t.restore b = some u
      ∧ u.index = some { x with desc := a.desc, stage := .reading }
      ∧ (t.drive b).order = some (.read x.block) ∧ (t.drive b).state = .reading ∧ (t.drive b).timer = .running 600000
      ∧ t.store = s.store ∧ t.elements = s.elements ∧ t.picker = s.picker)
    ∧ ((s.drive b).posBlock ≠ some x.block → exec (.readAllocationComplete b) s = .next s))
  ∧ (∀ (s : State) (b : Bay) (a : Alloc) (r : RestoreRun), s.buffer.readyExpand b = some a → s.restore b = some r →
    ∃ t u, exec (.expandAllocationComplete b) s = .next t ∧ t.restore b = some u
      ∧ (∀ x ∈ u.staged, x.desc = a.desc → x.desc.isSome = true → x.rawReady = true)
      ∧ t.store = s.store ∧ t.elements = s.elements ∧ t.picker = s.picker ∧ t.drives = s.drives)
  ∧ ∀ (s : State) (b : Bay) (rest : List Bay) (r : VerifyRun), s.buffer.verifyWaiting = b :: rest → s.verifyRun b = some r →
    r.phase = .reserving → s.buffer.internalFree = 64 → 0 < s.buffer.descInternalFree → (s.drive b).owes = false →
    (s.drive b).state = .idle →
    ((s.drive b).posBlock = some r.next → ∃ t u, exec .verifyReservationMet s = .next t ∧ t.verifyRun b = some u ∧ u.phase = .reading
      ∧ u.inHand = some (r.next, s.buffer.freshId) ∧ t.buffer.internalFree = 0
      ∧ t.buffer.descInternalFree = s.buffer.descInternalFree - 1
      ∧ (∃ d, t.buffer.desc s.buffer.freshId = some d ∧ d.origin = .internal ∧ d.units = List.replicate 64 .internal)
      ∧ (t.drive b).order = some (.read r.next) ∧ (t.drive b).timer = .running 600000 ∧ (t.drive b).state = .reading
      ∧ t.store = s.store ∧ t.elements = s.elements ∧ t.picker = s.picker)
    ∧ ((s.drive b).posBlock ≠ some r.next → exec .verifyReservationMet s = .next s)

/-- A refill of a unit window: FREE home units first, then pool units for a weight above 0, up to the ceiling, which is the lower
one while a settings write that lowers it goes on (log entry 12); a window at its ceiling takes none; each granted unit is counted, and
nothing else moves. -/
def Obligations.RefillFillsTheUnitWindow : Prop :=
  ∀ (v : CreditEnv) (b : Buffer) (p : Port),
    ∃ home pool, refillUnits v b p = { b with poolFree := b.poolFree - pool, share := b.share.set p { b.share.get p with
        writeFree := (b.share.get p).writeFree - home, writeGranted := (b.share.get p).writeGranted + home,
        poolGranted := (b.share.get p).poolGranted + pool,
        cumUnits := ((b.share.get p).cumUnits + (home + pool)) % 4294967296 } }
      ∧ home ≤ (b.share.get p).writeFree ∧ pool ≤ b.poolFree ∧ (0 < pool → 0 < v.weight p ∧ home = (b.share.get p).writeFree)
      ∧ (v.unitCeiling p ≤ (b.share.get p).unitWindow → home = 0 ∧ pool = 0)
      ∧ ((b.share.get p).unitWindow ≤ v.unitCeiling p →
          (b.share.get p).unitWindow + home + pool ≤ v.unitCeiling p)
      ∧ ((b.share.get p).unitWindow + home + pool < v.unitCeiling p →
          home = (b.share.get p).writeFree ∧ (v.weight p = 0 ∨ pool = b.poolFree))

/-- A pool unit released while the pool is congested goes to a waiter, the current port first and then the next in the cycle: to the
allocation it fills, or its unit window; the pool stays empty. The turn: the count is one more than in the port's present turn, 0 when the
turn moved to it; a count that reaches the port's weight ends the turn, which goes to the next waiter after the port, if another waits,
with the count 0. -/
def Obligations.CongestedUnitsGoByTurns : Prop :=
  ∀ (v : CreditEnv) (b : Buffer), congested v b = true → ∃ p, poolWaiter v b p = true
    ∧ (poolWaiter v b b.turnPort = true → p = b.turnPort)
    ∧ (poolWaiter v b b.turnPort = false → poolWaiter v b b.turnPort.next = true → p = b.turnPort.next)
    ∧ (releaseUnit v b .pool).poolFree = 0
    ∧ (b.filling p = none → ((releaseUnit v b .pool).share.get p).poolGranted = (b.share.get p).poolGranted + 1)
    ∧ (∀ a, b.filling p = some a → (releaseUnit v b .pool).descs = (b.joinAlloc a .pool 1).descs
        ∧ (releaseUnit v b .pool).share = b.share)
    ∧ (∀ q, q ≠ p → (releaseUnit v b .pool).share.get q = b.share.get q)
    ∧ ∀ n, n = (if poolWaiter v b b.turnPort then b.turnCount else 0) + 1 →
        (n < v.weight p → (releaseUnit v b .pool).turnPort = p ∧ (releaseUnit v b .pool).turnCount = n)
        ∧ (v.weight p ≤ n → (releaseUnit v b .pool).turnCount = 0
          ∧ (poolWaiter v (releaseUnit v b .pool) p.next = true → (releaseUnit v b .pool).turnPort = p.next)
          ∧ (poolWaiter v (releaseUnit v b .pool) p.next = false →
              poolWaiter v (releaseUnit v b .pool) p.next.next = true → (releaseUnit v b .pool).turnPort = p.next.next)
          ∧ (poolWaiter v (releaseUnit v b .pool) p.next = false →
              poolWaiter v (releaseUnit v b .pool) p.next.next = false → (releaseUnit v b .pool).turnPort = p))
end

