-- ==== Sys2Proof/Laws/State.lean ====
section
/-! SUPPORT. Reads after updates: one lemma for each block of the state and each way of updating one. -/

namespace Sys2Proof

@[simp] theorem PerPort.get_set {α : Type} (t : PerPort α) (p q : Port) (v : α) :
    (t.set p v).get q = if q = p then v else t.get q := by cases p <;> cases q <;> rfl
@[simp] theorem PerBay.get_set {α : Type} (t : PerBay α) (a b : Bay) (v : α) :
    (t.set a v).get b = if b = a then v else t.get b := by cases a <;> cases b <;> rfl
@[simp] theorem PerPort.get_all {α : Type} (v : α) (p : Port) : (PerPort.all v).get p = v := by cases p <;> rfl
@[simp] theorem PerBay.get_all {α : Type} (v : α) (b : Bay) : (PerBay.all v).get b = v := by cases b <;> rfl

namespace Machine

variable (s : State)

/-! ### modDrive -/

@[simp] theorem State.modDrive_strap (b : Bay) (f : Drive → Drive) : (s.modDrive b f).strap = s.strap := rfl
@[simp] theorem State.modDrive_serviceOpen (b : Bay) (f : Drive → Drive) : (s.modDrive b f).serviceOpen = s.serviceOpen := rfl
@[simp] theorem State.modDrive_mailOpen (b : Bay) (f : Drive → Drive) : (s.modDrive b f).mailOpen = s.mailOpen := rfl
@[simp] theorem State.modDrive_store (b : Bay) (f : Drive → Drive) : (s.modDrive b f).store = s.store := rfl
@[simp] theorem State.modDrive_storeWrite (b : Bay) (f : Drive → Drive) : (s.modDrive b f).storeWrite = s.storeWrite := rfl
@[simp] theorem State.modDrive_configWaiting (b : Bay) (f : Drive → Drive) : (s.modDrive b f).configWaiting = s.configWaiting := rfl
@[simp] theorem State.modDrive_releaseWrites (b : Bay) (f : Drive → Drive) : (s.modDrive b f).releaseWrites = s.releaseWrites := rfl
@[simp] theorem State.modDrive_elements (b : Bay) (f : Drive → Drive) : (s.modDrive b f).elements = s.elements := rfl
@[simp] theorem State.modDrive_scratchPointer (b : Bay) (f : Drive → Drive) : (s.modDrive b f).scratchPointer = s.scratchPointer := rfl
@[simp] theorem State.modDrive_picker (b : Bay) (f : Drive → Drive) : (s.modDrive b f).picker = s.picker := rfl
@[simp] theorem State.modDrive_buffer (b : Bay) (f : Drive → Drive) : (s.modDrive b f).buffer = s.buffer := rfl
@[simp] theorem State.modDrive_streams (b : Bay) (f : Drive → Drive) : (s.modDrive b f).streams = s.streams := rfl
@[simp] theorem State.modDrive_engine (b : Bay) (f : Drive → Drive) : (s.modDrive b f).engine = s.engine := rfl
@[simp] theorem State.modDrive_restores (b : Bay) (f : Drive → Drive) : (s.modDrive b f).restores = s.restores := rfl
@[simp] theorem State.modDrive_verifies (b : Bay) (f : Drive → Drive) : (s.modDrive b f).verifies = s.verifies := rfl
@[simp] theorem State.modDrive_ports (b : Bay) (f : Drive → Drive) : (s.modDrive b f).ports = s.ports := rfl
@[simp] theorem State.modDrive_freeReads (b : Bay) (f : Drive → Drive) : (s.modDrive b f).freeReads = s.freeReads := rfl
@[simp] theorem State.modDrive_pending (b : Bay) (f : Drive → Drive) : (s.modDrive b f).pending = s.pending := rfl

/-! ### modStream -/

@[simp] theorem State.modStream_strap (b : Bay) (f : Stream → Stream) : (s.modStream b f).strap = s.strap := rfl
@[simp] theorem State.modStream_serviceOpen (b : Bay) (f : Stream → Stream) : (s.modStream b f).serviceOpen = s.serviceOpen := rfl
@[simp] theorem State.modStream_mailOpen (b : Bay) (f : Stream → Stream) : (s.modStream b f).mailOpen = s.mailOpen := rfl
@[simp] theorem State.modStream_store (b : Bay) (f : Stream → Stream) : (s.modStream b f).store = s.store := rfl
@[simp] theorem State.modStream_storeWrite (b : Bay) (f : Stream → Stream) : (s.modStream b f).storeWrite = s.storeWrite := rfl
@[simp] theorem State.modStream_configWaiting (b : Bay) (f : Stream → Stream) : (s.modStream b f).configWaiting = s.configWaiting := rfl
@[simp] theorem State.modStream_releaseWrites (b : Bay) (f : Stream → Stream) : (s.modStream b f).releaseWrites = s.releaseWrites := rfl
@[simp] theorem State.modStream_elements (b : Bay) (f : Stream → Stream) : (s.modStream b f).elements = s.elements := rfl
@[simp] theorem State.modStream_scratchPointer (b : Bay) (f : Stream → Stream) : (s.modStream b f).scratchPointer = s.scratchPointer := rfl
@[simp] theorem State.modStream_picker (b : Bay) (f : Stream → Stream) : (s.modStream b f).picker = s.picker := rfl
@[simp] theorem State.modStream_drives (b : Bay) (f : Stream → Stream) : (s.modStream b f).drives = s.drives := rfl
@[simp] theorem State.modStream_buffer (b : Bay) (f : Stream → Stream) : (s.modStream b f).buffer = s.buffer := rfl
@[simp] theorem State.modStream_engine (b : Bay) (f : Stream → Stream) : (s.modStream b f).engine = s.engine := rfl
@[simp] theorem State.modStream_restores (b : Bay) (f : Stream → Stream) : (s.modStream b f).restores = s.restores := rfl
@[simp] theorem State.modStream_verifies (b : Bay) (f : Stream → Stream) : (s.modStream b f).verifies = s.verifies := rfl
@[simp] theorem State.modStream_ports (b : Bay) (f : Stream → Stream) : (s.modStream b f).ports = s.ports := rfl
@[simp] theorem State.modStream_freeReads (b : Bay) (f : Stream → Stream) : (s.modStream b f).freeReads = s.freeReads := rfl
@[simp] theorem State.modStream_pending (b : Bay) (f : Stream → Stream) : (s.modStream b f).pending = s.pending := rfl

/-! ### setRestore -/

@[simp] theorem State.setRestore_strap (b : Bay) (r : Option RestoreRun) : (s.setRestore b r).strap = s.strap := rfl
@[simp] theorem State.setRestore_serviceOpen (b : Bay) (r : Option RestoreRun) : (s.setRestore b r).serviceOpen = s.serviceOpen := rfl
@[simp] theorem State.setRestore_mailOpen (b : Bay) (r : Option RestoreRun) : (s.setRestore b r).mailOpen = s.mailOpen := rfl
@[simp] theorem State.setRestore_store (b : Bay) (r : Option RestoreRun) : (s.setRestore b r).store = s.store := rfl
@[simp] theorem State.setRestore_storeWrite (b : Bay) (r : Option RestoreRun) : (s.setRestore b r).storeWrite = s.storeWrite := rfl
@[simp] theorem State.setRestore_configWaiting (b : Bay) (r : Option RestoreRun) : (s.setRestore b r).configWaiting = s.configWaiting := rfl
@[simp] theorem State.setRestore_releaseWrites (b : Bay) (r : Option RestoreRun) : (s.setRestore b r).releaseWrites = s.releaseWrites := rfl
@[simp] theorem State.setRestore_elements (b : Bay) (r : Option RestoreRun) : (s.setRestore b r).elements = s.elements := rfl
@[simp] theorem State.setRestore_scratchPointer (b : Bay) (r : Option RestoreRun) : (s.setRestore b r).scratchPointer = s.scratchPointer := rfl
@[simp] theorem State.setRestore_picker (b : Bay) (r : Option RestoreRun) : (s.setRestore b r).picker = s.picker := rfl
@[simp] theorem State.setRestore_drives (b : Bay) (r : Option RestoreRun) : (s.setRestore b r).drives = s.drives := rfl
@[simp] theorem State.setRestore_buffer (b : Bay) (r : Option RestoreRun) : (s.setRestore b r).buffer = s.buffer := rfl
@[simp] theorem State.setRestore_streams (b : Bay) (r : Option RestoreRun) : (s.setRestore b r).streams = s.streams := rfl
@[simp] theorem State.setRestore_engine (b : Bay) (r : Option RestoreRun) : (s.setRestore b r).engine = s.engine := rfl
@[simp] theorem State.setRestore_verifies (b : Bay) (r : Option RestoreRun) : (s.setRestore b r).verifies = s.verifies := rfl
@[simp] theorem State.setRestore_ports (b : Bay) (r : Option RestoreRun) : (s.setRestore b r).ports = s.ports := rfl
@[simp] theorem State.setRestore_freeReads (b : Bay) (r : Option RestoreRun) : (s.setRestore b r).freeReads = s.freeReads := rfl
@[simp] theorem State.setRestore_pending (b : Bay) (r : Option RestoreRun) : (s.setRestore b r).pending = s.pending := rfl

/-! ### setVerify -/

@[simp] theorem State.setVerify_strap (b : Bay) (r : Option VerifyRun) : (s.setVerify b r).strap = s.strap := rfl
@[simp] theorem State.setVerify_serviceOpen (b : Bay) (r : Option VerifyRun) : (s.setVerify b r).serviceOpen = s.serviceOpen := rfl
@[simp] theorem State.setVerify_mailOpen (b : Bay) (r : Option VerifyRun) : (s.setVerify b r).mailOpen = s.mailOpen := rfl
@[simp] theorem State.setVerify_store (b : Bay) (r : Option VerifyRun) : (s.setVerify b r).store = s.store := rfl
@[simp] theorem State.setVerify_storeWrite (b : Bay) (r : Option VerifyRun) : (s.setVerify b r).storeWrite = s.storeWrite := rfl
@[simp] theorem State.setVerify_configWaiting (b : Bay) (r : Option VerifyRun) : (s.setVerify b r).configWaiting = s.configWaiting := rfl
@[simp] theorem State.setVerify_releaseWrites (b : Bay) (r : Option VerifyRun) : (s.setVerify b r).releaseWrites = s.releaseWrites := rfl
@[simp] theorem State.setVerify_elements (b : Bay) (r : Option VerifyRun) : (s.setVerify b r).elements = s.elements := rfl
@[simp] theorem State.setVerify_scratchPointer (b : Bay) (r : Option VerifyRun) : (s.setVerify b r).scratchPointer = s.scratchPointer := rfl
@[simp] theorem State.setVerify_picker (b : Bay) (r : Option VerifyRun) : (s.setVerify b r).picker = s.picker := rfl
@[simp] theorem State.setVerify_drives (b : Bay) (r : Option VerifyRun) : (s.setVerify b r).drives = s.drives := rfl
@[simp] theorem State.setVerify_buffer (b : Bay) (r : Option VerifyRun) : (s.setVerify b r).buffer = s.buffer := rfl
@[simp] theorem State.setVerify_streams (b : Bay) (r : Option VerifyRun) : (s.setVerify b r).streams = s.streams := rfl
@[simp] theorem State.setVerify_engine (b : Bay) (r : Option VerifyRun) : (s.setVerify b r).engine = s.engine := rfl
@[simp] theorem State.setVerify_restores (b : Bay) (r : Option VerifyRun) : (s.setVerify b r).restores = s.restores := rfl
@[simp] theorem State.setVerify_ports (b : Bay) (r : Option VerifyRun) : (s.setVerify b r).ports = s.ports := rfl
@[simp] theorem State.setVerify_freeReads (b : Bay) (r : Option VerifyRun) : (s.setVerify b r).freeReads = s.freeReads := rfl
@[simp] theorem State.setVerify_pending (b : Bay) (r : Option VerifyRun) : (s.setVerify b r).pending = s.pending := rfl

/-! ### setRestoreRuns, setVerifyRuns -/

@[simp] theorem State.setRestoreRuns_strap (b : Bay) (x : RestoreRuns) : (s.setRestoreRuns b x).strap = s.strap := rfl
@[simp] theorem State.setRestoreRuns_serviceOpen (b : Bay) (x : RestoreRuns) : (s.setRestoreRuns b x).serviceOpen = s.serviceOpen := rfl
@[simp] theorem State.setRestoreRuns_mailOpen (b : Bay) (x : RestoreRuns) : (s.setRestoreRuns b x).mailOpen = s.mailOpen := rfl
@[simp] theorem State.setRestoreRuns_store (b : Bay) (x : RestoreRuns) : (s.setRestoreRuns b x).store = s.store := rfl
@[simp] theorem State.setRestoreRuns_storeWrite (b : Bay) (x : RestoreRuns) : (s.setRestoreRuns b x).storeWrite = s.storeWrite := rfl
@[simp] theorem State.setRestoreRuns_configWaiting (b : Bay) (x : RestoreRuns) : (s.setRestoreRuns b x).configWaiting = s.configWaiting := rfl
@[simp] theorem State.setRestoreRuns_releaseWrites (b : Bay) (x : RestoreRuns) : (s.setRestoreRuns b x).releaseWrites = s.releaseWrites := rfl
@[simp] theorem State.setRestoreRuns_elements (b : Bay) (x : RestoreRuns) : (s.setRestoreRuns b x).elements = s.elements := rfl
@[simp] theorem State.setRestoreRuns_scratchPointer (b : Bay) (x : RestoreRuns) : (s.setRestoreRuns b x).scratchPointer = s.scratchPointer := rfl
@[simp] theorem State.setRestoreRuns_picker (b : Bay) (x : RestoreRuns) : (s.setRestoreRuns b x).picker = s.picker := rfl
@[simp] theorem State.setRestoreRuns_drives (b : Bay) (x : RestoreRuns) : (s.setRestoreRuns b x).drives = s.drives := rfl
@[simp] theorem State.setRestoreRuns_buffer (b : Bay) (x : RestoreRuns) : (s.setRestoreRuns b x).buffer = s.buffer := rfl
@[simp] theorem State.setRestoreRuns_streams (b : Bay) (x : RestoreRuns) : (s.setRestoreRuns b x).streams = s.streams := rfl
@[simp] theorem State.setRestoreRuns_engine (b : Bay) (x : RestoreRuns) : (s.setRestoreRuns b x).engine = s.engine := rfl
@[simp] theorem State.setRestoreRuns_verifies (b : Bay) (x : RestoreRuns) : (s.setRestoreRuns b x).verifies = s.verifies := rfl
@[simp] theorem State.setRestoreRuns_ports (b : Bay) (x : RestoreRuns) : (s.setRestoreRuns b x).ports = s.ports := rfl
@[simp] theorem State.setRestoreRuns_freeReads (b : Bay) (x : RestoreRuns) : (s.setRestoreRuns b x).freeReads = s.freeReads := rfl
@[simp] theorem State.setRestoreRuns_pending (b : Bay) (x : RestoreRuns) : (s.setRestoreRuns b x).pending = s.pending := rfl
@[simp] theorem State.setVerifyRuns_strap (b : Bay) (x : VerifyRuns) : (s.setVerifyRuns b x).strap = s.strap := rfl
@[simp] theorem State.setVerifyRuns_serviceOpen (b : Bay) (x : VerifyRuns) : (s.setVerifyRuns b x).serviceOpen = s.serviceOpen := rfl
@[simp] theorem State.setVerifyRuns_mailOpen (b : Bay) (x : VerifyRuns) : (s.setVerifyRuns b x).mailOpen = s.mailOpen := rfl
@[simp] theorem State.setVerifyRuns_store (b : Bay) (x : VerifyRuns) : (s.setVerifyRuns b x).store = s.store := rfl
@[simp] theorem State.setVerifyRuns_storeWrite (b : Bay) (x : VerifyRuns) : (s.setVerifyRuns b x).storeWrite = s.storeWrite := rfl
@[simp] theorem State.setVerifyRuns_configWaiting (b : Bay) (x : VerifyRuns) : (s.setVerifyRuns b x).configWaiting = s.configWaiting := rfl
@[simp] theorem State.setVerifyRuns_releaseWrites (b : Bay) (x : VerifyRuns) : (s.setVerifyRuns b x).releaseWrites = s.releaseWrites := rfl
@[simp] theorem State.setVerifyRuns_elements (b : Bay) (x : VerifyRuns) : (s.setVerifyRuns b x).elements = s.elements := rfl
@[simp] theorem State.setVerifyRuns_scratchPointer (b : Bay) (x : VerifyRuns) : (s.setVerifyRuns b x).scratchPointer = s.scratchPointer := rfl
@[simp] theorem State.setVerifyRuns_picker (b : Bay) (x : VerifyRuns) : (s.setVerifyRuns b x).picker = s.picker := rfl
@[simp] theorem State.setVerifyRuns_drives (b : Bay) (x : VerifyRuns) : (s.setVerifyRuns b x).drives = s.drives := rfl
@[simp] theorem State.setVerifyRuns_buffer (b : Bay) (x : VerifyRuns) : (s.setVerifyRuns b x).buffer = s.buffer := rfl
@[simp] theorem State.setVerifyRuns_streams (b : Bay) (x : VerifyRuns) : (s.setVerifyRuns b x).streams = s.streams := rfl
@[simp] theorem State.setVerifyRuns_engine (b : Bay) (x : VerifyRuns) : (s.setVerifyRuns b x).engine = s.engine := rfl
@[simp] theorem State.setVerifyRuns_restores (b : Bay) (x : VerifyRuns) : (s.setVerifyRuns b x).restores = s.restores := rfl
@[simp] theorem State.setVerifyRuns_ports (b : Bay) (x : VerifyRuns) : (s.setVerifyRuns b x).ports = s.ports := rfl
@[simp] theorem State.setVerifyRuns_freeReads (b : Bay) (x : VerifyRuns) : (s.setVerifyRuns b x).freeReads = s.freeReads := rfl
@[simp] theorem State.setVerifyRuns_pending (b : Bay) (x : VerifyRuns) : (s.setVerifyRuns b x).pending = s.pending := rfl
/-! ### modPort -/

@[simp] theorem State.modPort_strap (p : Port) (f : PortCtl → PortCtl) : (s.modPort p f).strap = s.strap := rfl
@[simp] theorem State.modPort_serviceOpen (p : Port) (f : PortCtl → PortCtl) : (s.modPort p f).serviceOpen = s.serviceOpen := rfl
@[simp] theorem State.modPort_mailOpen (p : Port) (f : PortCtl → PortCtl) : (s.modPort p f).mailOpen = s.mailOpen := rfl
@[simp] theorem State.modPort_store (p : Port) (f : PortCtl → PortCtl) : (s.modPort p f).store = s.store := rfl
@[simp] theorem State.modPort_storeWrite (p : Port) (f : PortCtl → PortCtl) : (s.modPort p f).storeWrite = s.storeWrite := rfl
@[simp] theorem State.modPort_configWaiting (p : Port) (f : PortCtl → PortCtl) : (s.modPort p f).configWaiting = s.configWaiting := rfl
@[simp] theorem State.modPort_releaseWrites (p : Port) (f : PortCtl → PortCtl) : (s.modPort p f).releaseWrites = s.releaseWrites := rfl
@[simp] theorem State.modPort_elements (p : Port) (f : PortCtl → PortCtl) : (s.modPort p f).elements = s.elements := rfl
@[simp] theorem State.modPort_scratchPointer (p : Port) (f : PortCtl → PortCtl) : (s.modPort p f).scratchPointer = s.scratchPointer := rfl
@[simp] theorem State.modPort_picker (p : Port) (f : PortCtl → PortCtl) : (s.modPort p f).picker = s.picker := rfl
@[simp] theorem State.modPort_drives (p : Port) (f : PortCtl → PortCtl) : (s.modPort p f).drives = s.drives := rfl
@[simp] theorem State.modPort_buffer (p : Port) (f : PortCtl → PortCtl) : (s.modPort p f).buffer = s.buffer := rfl
@[simp] theorem State.modPort_streams (p : Port) (f : PortCtl → PortCtl) : (s.modPort p f).streams = s.streams := rfl
@[simp] theorem State.modPort_engine (p : Port) (f : PortCtl → PortCtl) : (s.modPort p f).engine = s.engine := rfl
@[simp] theorem State.modPort_restores (p : Port) (f : PortCtl → PortCtl) : (s.modPort p f).restores = s.restores := rfl
@[simp] theorem State.modPort_verifies (p : Port) (f : PortCtl → PortCtl) : (s.modPort p f).verifies = s.verifies := rfl
@[simp] theorem State.modPort_freeReads (p : Port) (f : PortCtl → PortCtl) : (s.modPort p f).freeReads = s.freeReads := rfl
@[simp] theorem State.modPort_pending (p : Port) (f : PortCtl → PortCtl) : (s.modPort p f).pending = s.pending := rfl

/-! ### modPicker -/

@[simp] theorem State.modPicker_strap (f : Picker → Picker) : (s.modPicker f).strap = s.strap := rfl
@[simp] theorem State.modPicker_serviceOpen (f : Picker → Picker) : (s.modPicker f).serviceOpen = s.serviceOpen := rfl
@[simp] theorem State.modPicker_mailOpen (f : Picker → Picker) : (s.modPicker f).mailOpen = s.mailOpen := rfl
@[simp] theorem State.modPicker_store (f : Picker → Picker) : (s.modPicker f).store = s.store := rfl
@[simp] theorem State.modPicker_storeWrite (f : Picker → Picker) : (s.modPicker f).storeWrite = s.storeWrite := rfl
@[simp] theorem State.modPicker_configWaiting (f : Picker → Picker) : (s.modPicker f).configWaiting = s.configWaiting := rfl
@[simp] theorem State.modPicker_releaseWrites (f : Picker → Picker) : (s.modPicker f).releaseWrites = s.releaseWrites := rfl
@[simp] theorem State.modPicker_elements (f : Picker → Picker) : (s.modPicker f).elements = s.elements := rfl
@[simp] theorem State.modPicker_scratchPointer (f : Picker → Picker) : (s.modPicker f).scratchPointer = s.scratchPointer := rfl
@[simp] theorem State.modPicker_drives (f : Picker → Picker) : (s.modPicker f).drives = s.drives := rfl
@[simp] theorem State.modPicker_buffer (f : Picker → Picker) : (s.modPicker f).buffer = s.buffer := rfl
@[simp] theorem State.modPicker_streams (f : Picker → Picker) : (s.modPicker f).streams = s.streams := rfl
@[simp] theorem State.modPicker_engine (f : Picker → Picker) : (s.modPicker f).engine = s.engine := rfl
@[simp] theorem State.modPicker_restores (f : Picker → Picker) : (s.modPicker f).restores = s.restores := rfl
@[simp] theorem State.modPicker_verifies (f : Picker → Picker) : (s.modPicker f).verifies = s.verifies := rfl
@[simp] theorem State.modPicker_ports (f : Picker → Picker) : (s.modPicker f).ports = s.ports := rfl
@[simp] theorem State.modPicker_freeReads (f : Picker → Picker) : (s.modPicker f).freeReads = s.freeReads := rfl
@[simp] theorem State.modPicker_pending (f : Picker → Picker) : (s.modPicker f).pending = s.pending := rfl

/-! ### modEngine -/

@[simp] theorem State.modEngine_strap (f : Engine → Engine) : (s.modEngine f).strap = s.strap := rfl
@[simp] theorem State.modEngine_serviceOpen (f : Engine → Engine) : (s.modEngine f).serviceOpen = s.serviceOpen := rfl
@[simp] theorem State.modEngine_mailOpen (f : Engine → Engine) : (s.modEngine f).mailOpen = s.mailOpen := rfl
@[simp] theorem State.modEngine_store (f : Engine → Engine) : (s.modEngine f).store = s.store := rfl
@[simp] theorem State.modEngine_storeWrite (f : Engine → Engine) : (s.modEngine f).storeWrite = s.storeWrite := rfl
@[simp] theorem State.modEngine_configWaiting (f : Engine → Engine) : (s.modEngine f).configWaiting = s.configWaiting := rfl
@[simp] theorem State.modEngine_releaseWrites (f : Engine → Engine) : (s.modEngine f).releaseWrites = s.releaseWrites := rfl
@[simp] theorem State.modEngine_elements (f : Engine → Engine) : (s.modEngine f).elements = s.elements := rfl
@[simp] theorem State.modEngine_scratchPointer (f : Engine → Engine) : (s.modEngine f).scratchPointer = s.scratchPointer := rfl
@[simp] theorem State.modEngine_picker (f : Engine → Engine) : (s.modEngine f).picker = s.picker := rfl
@[simp] theorem State.modEngine_drives (f : Engine → Engine) : (s.modEngine f).drives = s.drives := rfl
@[simp] theorem State.modEngine_buffer (f : Engine → Engine) : (s.modEngine f).buffer = s.buffer := rfl
@[simp] theorem State.modEngine_streams (f : Engine → Engine) : (s.modEngine f).streams = s.streams := rfl
@[simp] theorem State.modEngine_restores (f : Engine → Engine) : (s.modEngine f).restores = s.restores := rfl
@[simp] theorem State.modEngine_verifies (f : Engine → Engine) : (s.modEngine f).verifies = s.verifies := rfl
@[simp] theorem State.modEngine_ports (f : Engine → Engine) : (s.modEngine f).ports = s.ports := rfl
@[simp] theorem State.modEngine_freeReads (f : Engine → Engine) : (s.modEngine f).freeReads = s.freeReads := rfl
@[simp] theorem State.modEngine_pending (f : Engine → Engine) : (s.modEngine f).pending = s.pending := rfl

/-! ### The block updated -/

@[simp] theorem State.modDrive_drive (b : Bay) (f : Drive → Drive) (a : Bay) :
    (s.modDrive b f).drive a = if a = b then f (s.drive b) else s.drive a := by simp [State.drive, State.modDrive]
@[simp] theorem State.modStream_stream (b : Bay) (f : Stream → Stream) (a : Bay) :
    (s.modStream b f).stream a = if a = b then f (s.stream b) else s.stream a := by simp [State.stream, State.modStream]
@[simp] theorem State.setRestore_restore (b : Bay) (r : Option RestoreRun) (a : Bay) :
    (s.setRestore b r).restore a = if a = b then r else s.restore a := by
  simp only [State.restore, State.setRestore, PerBay.get_set]; split <;> rfl
@[simp] theorem State.setVerify_verifyRun (b : Bay) (r : Option VerifyRun) (a : Bay) :
    (s.setVerify b r).verifyRun a = if a = b then r else s.verifyRun a := by
  simp only [State.verifyRun, State.setVerify, PerBay.get_set]; split <;> rfl
@[simp] theorem State.setRestoreRuns_restore (b : Bay) (x : RestoreRuns) (a : Bay) :
    (s.setRestoreRuns b x).restore a = if a = b then x.current else s.restore a := by
  simp only [State.restore, State.setRestoreRuns, PerBay.get_set]; split <;> rfl
@[simp] theorem State.setVerifyRuns_verifyRun (b : Bay) (x : VerifyRuns) (a : Bay) :
    (s.setVerifyRuns b x).verifyRun a = if a = b then x.current else s.verifyRun a := by
  simp only [State.verifyRun, State.setVerifyRuns, PerBay.get_set]; split <;> rfl
@[simp] theorem State.setRestore_left (b : Bay) (r : Option RestoreRun) (a : Bay) :
    ((s.setRestore b r).restores.get a).left = (s.restores.get a).left := by
  simp only [State.setRestore, PerBay.get_set]; split <;> simp_all
@[simp] theorem State.setVerify_left (b : Bay) (r : Option VerifyRun) (a : Bay) :
    ((s.setVerify b r).verifies.get a).left = (s.verifies.get a).left := by
  simp only [State.setVerify, PerBay.get_set]; split <;> simp_all
@[simp] theorem State.modPort_port (p : Port) (f : PortCtl → PortCtl) (q : Port) :
    (s.modPort p f).port q = if q = p then f (s.port p) else s.port q := by simp [State.port, State.modPort]
@[simp] theorem State.modPicker_picker (f : Picker → Picker) : (s.modPicker f).picker = f s.picker := rfl
@[simp] theorem State.modEngine_engine (f : Engine → Engine) : (s.modEngine f).engine = f s.engine := rfl

/-! ### The reads that other blocks do not change -/

@[simp] theorem State.modDrive_read_stream (b : Bay) (f : Drive → Drive) (x : Bay) : (s.modDrive b f).stream x = s.stream x := rfl
@[simp] theorem State.modDrive_read_restore (b : Bay) (f : Drive → Drive) (x : Bay) : (s.modDrive b f).restore x = s.restore x := rfl
@[simp] theorem State.modDrive_read_verifyRun (b : Bay) (f : Drive → Drive) (x : Bay) : (s.modDrive b f).verifyRun x = s.verifyRun x := rfl
@[simp] theorem State.modDrive_read_port (b : Bay) (f : Drive → Drive) (x : Port) : (s.modDrive b f).port x = s.port x := rfl
@[simp] theorem State.modStream_read_drive (b : Bay) (f : Stream → Stream) (x : Bay) : (s.modStream b f).drive x = s.drive x := rfl
@[simp] theorem State.modStream_read_restore (b : Bay) (f : Stream → Stream) (x : Bay) : (s.modStream b f).restore x = s.restore x := rfl
@[simp] theorem State.modStream_read_verifyRun (b : Bay) (f : Stream → Stream) (x : Bay) : (s.modStream b f).verifyRun x = s.verifyRun x := rfl
@[simp] theorem State.modStream_read_port (b : Bay) (f : Stream → Stream) (x : Port) : (s.modStream b f).port x = s.port x := rfl
@[simp] theorem State.setRestore_read_drive (b : Bay) (r : Option RestoreRun) (x : Bay) : (s.setRestore b r).drive x = s.drive x := rfl
@[simp] theorem State.setRestore_read_stream (b : Bay) (r : Option RestoreRun) (x : Bay) : (s.setRestore b r).stream x = s.stream x := rfl
@[simp] theorem State.setRestore_read_verifyRun (b : Bay) (r : Option RestoreRun) (x : Bay) : (s.setRestore b r).verifyRun x = s.verifyRun x := rfl
@[simp] theorem State.setRestore_read_port (b : Bay) (r : Option RestoreRun) (x : Port) : (s.setRestore b r).port x = s.port x := rfl
@[simp] theorem State.setVerify_read_drive (b : Bay) (r : Option VerifyRun) (x : Bay) : (s.setVerify b r).drive x = s.drive x := rfl
@[simp] theorem State.setVerify_read_stream (b : Bay) (r : Option VerifyRun) (x : Bay) : (s.setVerify b r).stream x = s.stream x := rfl
@[simp] theorem State.setVerify_read_restore (b : Bay) (r : Option VerifyRun) (x : Bay) : (s.setVerify b r).restore x = s.restore x := rfl
@[simp] theorem State.setVerify_read_port (b : Bay) (r : Option VerifyRun) (x : Port) : (s.setVerify b r).port x = s.port x := rfl
@[simp] theorem State.setRestoreRuns_read_drive (b : Bay) (y : RestoreRuns) (x : Bay) : (s.setRestoreRuns b y).drive x = s.drive x := rfl
@[simp] theorem State.setRestoreRuns_read_stream (b : Bay) (y : RestoreRuns) (x : Bay) : (s.setRestoreRuns b y).stream x = s.stream x := rfl
@[simp] theorem State.setRestoreRuns_read_port (b : Bay) (y : RestoreRuns) (x : Port) : (s.setRestoreRuns b y).port x = s.port x := rfl
@[simp] theorem State.setRestoreRuns_read_verifyRun (b : Bay) (y : RestoreRuns) (x : Bay) : (s.setRestoreRuns b y).verifyRun x = s.verifyRun x := rfl
@[simp] theorem State.setVerifyRuns_read_drive (b : Bay) (y : VerifyRuns) (x : Bay) : (s.setVerifyRuns b y).drive x = s.drive x := rfl
@[simp] theorem State.setVerifyRuns_read_stream (b : Bay) (y : VerifyRuns) (x : Bay) : (s.setVerifyRuns b y).stream x = s.stream x := rfl
@[simp] theorem State.setVerifyRuns_read_port (b : Bay) (y : VerifyRuns) (x : Port) : (s.setVerifyRuns b y).port x = s.port x := rfl
@[simp] theorem State.setVerifyRuns_read_restore (b : Bay) (y : VerifyRuns) (x : Bay) : (s.setVerifyRuns b y).restore x = s.restore x := rfl
@[simp] theorem State.modPort_read_drive (p : Port) (f : PortCtl → PortCtl) (x : Bay) : (s.modPort p f).drive x = s.drive x := rfl
@[simp] theorem State.modPort_read_stream (p : Port) (f : PortCtl → PortCtl) (x : Bay) : (s.modPort p f).stream x = s.stream x := rfl
@[simp] theorem State.modPort_read_restore (p : Port) (f : PortCtl → PortCtl) (x : Bay) : (s.modPort p f).restore x = s.restore x := rfl
@[simp] theorem State.modPort_read_verifyRun (p : Port) (f : PortCtl → PortCtl) (x : Bay) : (s.modPort p f).verifyRun x = s.verifyRun x := rfl
@[simp] theorem State.modPicker_read_drive (f : Picker → Picker) (x : Bay) : (s.modPicker f).drive x = s.drive x := rfl
@[simp] theorem State.modPicker_read_stream (f : Picker → Picker) (x : Bay) : (s.modPicker f).stream x = s.stream x := rfl
@[simp] theorem State.modPicker_read_restore (f : Picker → Picker) (x : Bay) : (s.modPicker f).restore x = s.restore x := rfl
@[simp] theorem State.modPicker_read_verifyRun (f : Picker → Picker) (x : Bay) : (s.modPicker f).verifyRun x = s.verifyRun x := rfl
@[simp] theorem State.modPicker_read_port (f : Picker → Picker) (x : Port) : (s.modPicker f).port x = s.port x := rfl
@[simp] theorem State.modEngine_read_drive (f : Engine → Engine) (x : Bay) : (s.modEngine f).drive x = s.drive x := rfl
@[simp] theorem State.modEngine_read_stream (f : Engine → Engine) (x : Bay) : (s.modEngine f).stream x = s.stream x := rfl
@[simp] theorem State.modEngine_read_restore (f : Engine → Engine) (x : Bay) : (s.modEngine f).restore x = s.restore x := rfl
@[simp] theorem State.modEngine_read_verifyRun (f : Engine → Engine) (x : Bay) : (s.modEngine f).verifyRun x = s.verifyRun x := rfl
@[simp] theorem State.modEngine_read_port (f : Engine → Engine) (x : Port) : (s.modEngine f).port x = s.port x := rfl

end Machine

end Sys2Proof
end

