-- ==== Sys2Proof/Laws/Credit.lean ====
section
/-! SUPPORT. The law of the segment buffer (R76) under each operation of the credit manager: the law is carried with the units and
descriptors that are on their way back to their origins. -/

namespace Sys2Proof.Machine

/-- How many of a list of origins are `o`. -/
def countOf (os : List Origin) (o : Origin) : Nat := (os.filter (· = o)).length

@[simp] theorem countOf_nil (o : Origin) : countOf [] o = 0 := rfl
@[simp] theorem countOf_cons (x : Origin) (os : List Origin) (o : Origin) :
    countOf (x :: os) o = (if x = o then 1 else 0) + countOf os o := by
  unfold countOf; rw [List.filter_cons]; split <;> simp_all; omega
@[simp] theorem countOf_append (as bs : List Origin) (o : Origin) : countOf (as ++ bs) o = countOf as o + countOf bs o := by
  simp [countOf]
@[simp] theorem countOf_replicate (n : Nat) (x o : Origin) : countOf (List.replicate n x) o = if x = o then n else 0 := by
  induction n with
  | zero => simp
  | succ n ih => rw [List.replicate_succ, countOf_cons, ih]; split <;> omega
@[simp] theorem countOf_reverse (os : List Origin) (o : Origin) : countOf os.reverse o = countOf os o := by simp [countOf]
theorem countOf_take_drop (n : Nat) (os : List Origin) (o : Origin) : countOf (os.take n) o + countOf (os.drop n) o = countOf os o := by
  rw [← countOf_append, List.take_append_drop]

@[simp] theorem Desc.unitsOf_eq (d : Desc) (o : Origin) : d.unitsOf o = countOf d.units o + countOf d.raw o := rfl

theorem lawful_iff_owes (b : Buffer) (st : Settings) : b.lawful st ↔ b.owes st (fun _ => 0) (fun _ => 0) := by
  simp [Buffer.lawful, Buffer.owes]

/-! held counts -/
theorem heldUnits_cons (d : Desc) (b : Buffer) (o : Origin) :
    (b.addDesc d).heldUnits o = d.unitsOf o + b.heldUnits o := by simp [Buffer.heldUnits, Buffer.addDesc]
theorem heldDescs_cons (d : Desc) (b : Buffer) (o : Origin) :
    (b.addDesc d).heldDescs o = (if d.origin = o then 1 else 0) + b.heldDescs o := by
  simp only [Buffer.heldDescs, Buffer.addDesc, List.filter_cons]; split <;> simp_all; omega

theorem sum_replaceDesc (id : Nat) (f : Desc → Desc) (o : Origin) (ds : List Desc) (d : Desc)
    (h : ds.find? (fun e => e.id = id) = some d) :
    ((replaceDesc id f ds).map (·.unitsOf o)).sum + d.unitsOf o = (ds.map (·.unitsOf o)).sum + (f d).unitsOf o := by
  induction ds with
  | nil => simp at h
  | cons e rest ih =>
    rw [List.find?_cons] at h
    by_cases he : e.id = id
    · simp [he] at h; subst h; simp [replaceDesc, he]; omega
    · simp [he] at h; have := ih h; simp [replaceDesc, he] at *; omega
theorem replaceDesc_none (id : Nat) (f : Desc → Desc) (ds : List Desc) (h : ds.find? (fun e => e.id = id) = none) :
    replaceDesc id f ds = ds := by
  induction ds with
  | nil => rfl
  | cons e rest ih =>
    rw [List.find?_cons] at h
    by_cases he : e.id = id
    · simp [he] at h
    · simp [he] at h; simp [replaceDesc, he]; exact ih (by simpa using h)
theorem origins_replaceDesc (id : Nat) (f : Desc → Desc) (hf : ∀ d, (f d).origin = d.origin) (o : Origin) (ds : List Desc) :
    ((replaceDesc id f ds).filter fun d => d.origin = o).length = (ds.filter fun d => d.origin = o).length := by
  induction ds with
  | nil => rfl
  | cons e rest ih =>
    by_cases he : e.id = id
    · simp only [replaceDesc, he, if_true, List.filter_cons, hf]; split <;> simp
    · simp [replaceDesc, he, List.filter_cons]; split <;> simp [ih]
theorem sum_removeDesc (id : Nat) (o : Origin) (ds : List Desc) (d : Desc) (h : ds.find? (fun e => e.id = id) = some d) :
    ((removeDesc id ds).map (·.unitsOf o)).sum + d.unitsOf o = (ds.map (·.unitsOf o)).sum
    ∧ ((removeDesc id ds).filter fun d => d.origin = o).length + (if d.origin = o then 1 else 0) = (ds.filter fun d => d.origin = o).length := by
  induction ds with
  | nil => simp at h
  | cons e rest ih =>
    rw [List.find?_cons] at h
    by_cases he : e.id = id
    · simp [he] at h; subst h; simp only [removeDesc, he, if_true, List.map_cons, List.sum_cons, List.filter_cons]
      constructor
      · omega
      · split <;> simp_all
    · simp [he] at h; have := ih (by simpa using h)
      simp only [removeDesc, he, if_false, List.map_cons, List.sum_cons, List.filter_cons]
      constructor
      · omega
      · split <;> simp_all <;> omega

/-- A change of one descriptor that keeps what it holds of every origin keeps the law. -/
theorem owes_modDesc {b : Buffer} {st : Settings} {du dd : Origin → Nat} (id : Nat) (f : Desc → Desc)
    (ho : ∀ d, (f d).origin = d.origin) (du' : Origin → Nat)
    (hu : ∀ d, b.desc id = some d → ∀ o, du' o + (f d).unitsOf o = du o + d.unitsOf o) (hn : b.desc id = none → du' = du)
    (h : b.owes st du dd) : (b.modDesc id f).owes st du' dd := by
  intro o
  have hd : (b.modDesc id f).heldDescs o = b.heldDescs o := origins_replaceDesc id f ho o b.descs
  have hh : (b.modDesc id f).heldUnits o + du' o = b.heldUnits o + du o := by
    cases hx : b.desc id with
    | none => rw [hn hx]; unfold Buffer.modDesc Buffer.heldUnits; rw [replaceDesc_none id f b.descs hx]
    | some d =>
      have h1 := sum_replaceDesc id f o b.descs d hx
      have h2 := hu d hx o
      simp only [Buffer.heldUnits, Buffer.modDesc] at *
      omega
  have h3 := h o
  constructor
  · cases o <;> simp only [Buffer.unitsIn] at * <;> (simp only [Buffer.modDesc] at *; omega)
  · cases o <;> simp only [Buffer.descsIn] at * <;> (simp only [Buffer.modDesc] at *; omega)

@[simp] theorem modShare_descs (b : Buffer) (p : Port) (f : Share → Share) : (b.modShare p f).descs = b.descs := rfl
@[simp] theorem heldUnits_of_descs (b c : Buffer) (h : c.descs = b.descs) (o : Origin) : c.heldUnits o = b.heldUnits o := by
  simp [Buffer.heldUnits, h]
@[simp] theorem heldDescs_of_descs (b c : Buffer) (h : c.descs = b.descs) (o : Origin) : c.heldDescs o = b.heldDescs o := by
  simp [Buffer.heldDescs, h]

/-- The measures of the law when only counts change. -/
theorem owes_counts {b c : Buffer} {st : Settings} {du dd : Origin → Nat} (du' dd' : Origin → Nat) (h : b.owes st du dd)
    (hd : c.descs = b.descs)
    (hu : ∀ o, c.unitsIn o + du' o = b.unitsIn o + du o) (hv : ∀ o, c.descsIn o + dd' o = b.descsIn o + dd o) :
    c.owes st du' dd' := fun o => ⟨(hu o).trans (h o).1, (hv o).trans (h o).2⟩

/-- One unit of origin x. -/
def one (x : Origin) : Origin → Nat := fun o => if x = o then 1 else 0

theorem unitsIn_modShare (b : Buffer) (p : Port) (f : Share → Share) (o : Origin) :
    (b.modShare p f).unitsIn o =
      match o with
      | .writeHome q => (if q = p then (f (b.share.get p)).writeFree + (f (b.share.get p)).writeGranted
          else (b.share.get q).writeFree + (b.share.get q).writeGranted) + b.heldUnits o
      | .readHome q => (if q = p then (f (b.share.get p)).readFree else (b.share.get q).readFree) + b.heldUnits o
      | .pool => b.poolFree + ((b.share.set p (f (b.share.get p))).p0.poolGranted + (b.share.set p (f (b.share.get p))).p1.poolGranted
          + (b.share.set p (f (b.share.get p))).p2.poolGranted) + b.heldUnits o
      | .internal => b.internalFree + b.heldUnits o := by
  have hh : (b.modShare p f).heldUnits o = b.heldUnits o := rfl
  cases o <;> simp only [Buffer.unitsIn, hh] <;> simp only [Buffer.modShare, PerPort.get_set] <;> split <;> rfl

/-- What is on its way, and n more of origin x. -/
def plus (du : Origin → Nat) (x : Origin) (n : Nat) : Origin → Nat := fun o => du o + if x = o then n else 0

theorem owes_join {b : Buffer} {st : Settings} {du dd : Origin → Nat} (a : Alloc) (x : Origin) (n : Nat)
    (h : b.owes st (plus du x n) dd) (hd : (b.allocDesc a).isSome ∨ n = 0) : (b.joinAlloc a x n).owes st du dd := by
  unfold Buffer.joinAlloc
  cases ha : a.desc with
  | none =>
    have : n = 0 := by rcases hd with hd | hd
                       · simp [Buffer.allocDesc, ha] at hd
                       · exact hd
    subst this; intro o; have := h o; simp [plus] at this; exact this
  | some id =>
    refine owes_modDesc id _ ?_ du ?_ ?_ h
    · intro d; split <;> rfl
    · intro d _ o; simp only [plus]; split <;> simp only [Desc.unitsOf_eq, countOf_append, countOf_replicate] <;> omega
    · intro hn
      have : n = 0 := by
        rcases hd with hd | hd
        · simp [Buffer.allocDesc, ha, hn] at hd
        · exact hd
      subst this; funext o; simp [plus]

theorem find_replaceDesc (id : Nat) (f : Desc → Desc) (hf : ∀ d, (f d).id = d.id) (k : Nat) (ds : List Desc) :
    ((replaceDesc id f ds).find? fun d => d.id = k).isSome = (ds.find? fun d => d.id = k).isSome := by
  induction ds with
  | nil => rfl
  | cons e rest ih =>
    by_cases he : e.id = id
    · simp only [replaceDesc, he, if_true, List.find?_cons, hf]; split <;> rfl
    · simp only [replaceDesc, he, if_false, List.find?_cons]; split
      · rfl
      · exact ih

theorem joinAlloc_desc_isSome (b : Buffer) (a : Alloc) (x : Origin) (n k : Nat) :
    ((b.joinAlloc a x n).desc k).isSome = (b.desc k).isSome := by
  unfold Buffer.joinAlloc
  cases a.desc with
  | none => rfl
  | some id => exact find_replaceDesc id _ (fun d => by split <;> rfl) k b.descs

theorem joinAlloc_allocDesc_isSome (b : Buffer) (a : Alloc) (x : Origin) (n : Nat) :
    ((b.joinAlloc a x n).allocDesc a).isSome = (b.allocDesc a).isSome := by
  cases ha : a.desc with
  | none => simp [Buffer.allocDesc, ha]
  | some id => simp only [Buffer.allocDesc, ha, Option.bind_some]; exact joinAlloc_desc_isSome b a x n id

theorem lack_zero {b : Buffer} {a : Alloc} (h : ¬ (b.allocDesc a).isSome) : b.allocLack a = 0 := by
  unfold Buffer.allocLack; cases hd : b.allocDesc a <;> simp_all

theorem homeFor_le (b : Buffer) (a : Alloc) : b.homeFor a ≤ (b.share.get a.port).readFree := by
  unfold Buffer.homeFor; split <;> omega

theorem owes_fillAlloc {b : Buffer} {st : Settings} {du dd : Origin → Nat} (v : CreditEnv) (a : Alloc) (h : b.owes st du dd) :
    (fillAlloc v b a).owes st du dd := by
  unfold fillAlloc
  extract_lets home pool b1
  have hh : home ≤ (b.share.get a.port).readFree := Nat.le_trans (Nat.min_le_right _ _) (homeFor_le b a)
  have hp : pool ≤ b.poolFree := by simp only [pool]; split; exact Nat.min_le_right _ _; omega
  have hs : (b.allocDesc a).isSome ∨ (home = 0 ∧ pool = 0) := by
    by_cases hd : (b.allocDesc a).isSome
    · exact .inl hd
    · right; simp only [home, pool, lack_zero hd]; simp
  apply owes_join
  · apply owes_join
    · refine owes_counts _ _ h rfl ?_ ?_
      case refine_2 =>
        intro o
        rcases a with ⟨p, bay, k, d⟩
        cases p <;> rcases o with q | q | _ | _ <;> (try cases q) <;>
          simp [b1, Buffer.descsIn, Buffer.modShare, PerPort.get, PerPort.set, Buffer.heldDescs]
      intro o
      have hp0 : (b1).poolFree = b.poolFree := rfl
      rcases a with ⟨p, bay, k, d⟩
      cases p <;> rcases o with q | q | _ | _ <;> (try cases q) <;>
        simp [plus, b1, Buffer.unitsIn, Buffer.modShare, PerPort.get, PerPort.set, Buffer.heldUnits] at hh hp ⊢ <;> omega
    · rcases hs with hs | hs
      · exact .inl hs
      · exact .inr hs.1
  · rcases hs with hs | hs
    · left; rw [joinAlloc_allocDesc_isSome]; exact hs
    · exact .inr hs.2

theorem owes_fillFor {st : Settings} {du dd : Origin → Nat} (v : CreditEnv) (p : Port) (n : Nat) {b : Buffer}
    (h : b.owes st du dd) : (fillFor v p n b).owes st du dd := by
  induction n generalizing b with
  | zero => exact h
  | succ n ih =>
    unfold fillFor
    split
    · extract_lets b1
      split
      · exact ih (owes_fillAlloc v _ h)
      · exact owes_fillAlloc v _ h
    · exact h

theorem owes_fillPort {b : Buffer} {st : Settings} {du dd : Origin → Nat} (v : CreditEnv) (p : Port) (h : b.owes st du dd) :
    (fillPort v b p).owes st du dd := owes_fillFor v p _ h

/-- Changes outside the counts and the descriptors. -/
theorem owes_same {b c : Buffer} {st : Settings} {du dd : Origin → Nat} (h : b.owes st du dd) (hs : c.share = b.share)
    (hd : c.descs = b.descs) (h1 : c.poolFree = b.poolFree) (h2 : c.internalFree = b.internalFree)
    (h3 : c.descPoolFree = b.descPoolFree) (h4 : c.descInternalFree = b.descInternalFree) : c.owes st du dd := by
  intro o
  have := h o
  cases o <;> simpa [Buffer.unitsIn, Buffer.descsIn, Buffer.heldUnits, Buffer.heldDescs, hs, hd, h1, h2, h3, h4] using this

theorem owes_givePool {b : Buffer} {st : Settings} {du dd : Origin → Nat} (p : Port) (h : b.owes st (plus du .pool 1) dd) :
    (givePoolUnit b p).owes st du dd := by
  unfold givePoolUnit
  split
  · rename_i a ha
    apply owes_join _ _ _ h
    left
    by_cases hd : (b.allocDesc a).isSome
    · exact hd
    · exfalso
      have hz := lack_zero hd
      unfold Buffer.filling at ha
      extract_lets op at ha
      have hm : a ∈ op := by
        split at ha
        · rename_i x hx
          injection ha with ha; subst ha
          exact List.mem_of_find?_eq_some hx
        · exact List.mem_of_mem_head? ha
      simp only [op, List.mem_filter] at hm
      simp [hz] at hm
  · refine owes_counts _ _ h rfl ?_ ?_ <;> intro o <;>
      cases p <;> rcases o with q | q | _ | _ <;> (try cases q) <;>
      simp [plus, Buffer.unitsIn, Buffer.descsIn, Buffer.modShare, PerPort.get, PerPort.set, Buffer.heldUnits, Buffer.heldDescs] <;> omega

theorem owes_handPool {b : Buffer} {st : Settings} {du dd : Origin → Nat} (v : CreditEnv) (h : b.owes st (plus du .pool 1) dd) :
    (handPoolUnit v b).owes st du dd := by
  unfold handPoolUnit
  extract_lets b1 b2
  have h1 : b1.owes st (plus du .pool 1) dd := by
    simp only [b1]; split
    · exact h
    · split
      · exact owes_same h rfl rfl rfl rfl rfl rfl
      · exact h
  have h2 : b2.owes st du dd := owes_givePool _ h1
  split
  · exact owes_same h2 rfl rfl rfl rfl rfl rfl
  · exact owes_same h2 rfl rfl rfl rfl rfl rfl

theorem owes_releaseUnit {b : Buffer} {st : Settings} {du dd : Origin → Nat} (v : CreditEnv) (x : Origin)
    (h : b.owes st (plus du x 1) dd) : (releaseUnit v b x).owes st du dd := by
  cases x with
  | writeHome p =>
    refine owes_counts _ _ h rfl ?_ ?_ <;> intro o <;>
      cases p <;> rcases o with q | q | _ | _ <;> (try cases q) <;>
      simp [plus, releaseUnit, Buffer.unitsIn, Buffer.descsIn, Buffer.modShare, PerPort.get, PerPort.set, Buffer.heldUnits, Buffer.heldDescs] <;> omega
  | readHome p =>
    apply owes_fillPort
    refine owes_counts _ _ h rfl ?_ ?_ <;> intro o <;>
      cases p <;> rcases o with q | q | _ | _ <;> (try cases q) <;>
      simp [plus, Buffer.unitsIn, Buffer.descsIn, Buffer.modShare, PerPort.get, PerPort.set, Buffer.heldUnits, Buffer.heldDescs] <;> omega
  | pool =>
    simp only [releaseUnit]
    split
    · exact owes_handPool v h
    · refine owes_counts _ _ h rfl ?_ ?_ <;> intro o <;> rcases o with q | q | _ | _ <;> (try cases q) <;>
        simp [plus, Buffer.unitsIn, Buffer.descsIn, Buffer.heldUnits, Buffer.heldDescs] <;> omega
  | internal =>
    refine owes_counts _ _ h rfl ?_ ?_ <;> intro o <;> rcases o with q | q | _ | _ <;> (try cases q) <;>
        simp [plus, releaseUnit, Buffer.unitsIn, Buffer.descsIn, Buffer.heldUnits, Buffer.heldDescs] <;> omega

theorem owes_releaseUnits {st : Settings} {du dd : Origin → Nat} (v : CreditEnv) (os : List Origin) {b : Buffer}
    (h : b.owes st (fun o => du o + countOf os o) dd) : (releaseUnits v b os).owes st du dd := by
  induction os generalizing b with
  | nil => exact h
  | cons x os ih =>
    refine ih (owes_releaseUnit v x ?_)
    intro o
    have := h o
    simp only [plus, countOf_cons] at this ⊢
    exact ⟨by omega, this.2⟩

theorem owes_addDesc {b : Buffer} {st : Settings} {du dd : Origin → Nat} (d : Desc) (du' dd' : Origin → Nat)
    (h : b.owes st du dd) (hu : ∀ o, du' o + d.unitsOf o = du o) (hd : ∀ o, dd' o + (if d.origin = o then 1 else 0) = dd o) :
    (b.addDesc d).owes st du' dd' := by
  intro o
  have h1 := h o
  have h2 := heldUnits_cons d b o
  have h3 := heldDescs_cons d b o
  have h4 := hu o
  have h5 := hd o
  constructor
  · cases o <;> simp only [Buffer.unitsIn, h2] at * <;> simp only [Buffer.addDesc] at * <;> omega
  · cases o <;> simp only [Buffer.descsIn, h3] at * <;> simp only [Buffer.addDesc] at * <;> omega

theorem owes_giveReadDesc {b : Buffer} {st : Settings} {du dd : Origin → Nat} (v : CreditEnv) (p : Port)
    (h : b.owes st du (plus dd (.readHome p) 1)) : (giveReadDesc v b p).owes st du dd := by
  unfold giveReadDesc
  split
  · extract_lets id
    apply owes_fillPort
    refine owes_addDesc _ _ _ (owes_same (c := { b with allocs := assignDesc p id b.allocs }) h rfl rfl rfl rfl rfl rfl) ?_ ?_
    · intro o; simp
    · intro o; simp [plus]
  · refine owes_counts _ _ h rfl ?_ ?_ <;> intro o <;>
      cases p <;> rcases o with q | q | _ | _ <;> (try cases q) <;>
      simp [plus, Buffer.unitsIn, Buffer.descsIn, Buffer.modShare, PerPort.get, PerPort.set, Buffer.heldUnits, Buffer.heldDescs] <;> omega

theorem owes_releasePoolDesc {b : Buffer} {st : Settings} {du dd : Origin → Nat} (v : CreditEnv)
    (h : b.owes st du (plus dd .pool 1)) : (releasePoolDesc v b).owes st du dd := by
  unfold releasePoolDesc
  split
  · split
    · rename_i q hq
      clear hq
      refine owes_counts _ _ h rfl ?_ ?_ <;> intro o <;>
        cases q <;> rcases o with r | r | _ | _ <;> (try cases r) <;>
        simp [plus, Buffer.unitsIn, Buffer.descsIn, Buffer.modShare, PerPort.get, PerPort.set, Buffer.heldUnits, Buffer.heldDescs] <;> omega
    · refine owes_counts _ _ h rfl ?_ ?_ <;> intro o <;> rcases o with q | q | _ | _ <;> (try cases q) <;>
        simp [plus, Buffer.unitsIn, Buffer.descsIn, Buffer.heldUnits, Buffer.heldDescs] <;> omega
  · refine owes_counts _ _ h rfl ?_ ?_ <;> intro o <;> rcases o with q | q | _ | _ <;> (try cases q) <;>
        simp [plus, Buffer.unitsIn, Buffer.descsIn, Buffer.heldUnits, Buffer.heldDescs] <;> omega

theorem owes_releasePoolDescs {st : Settings} {du dd : Origin → Nat} (v : CreditEnv) (n : Nat) {b : Buffer}
    (h : b.owes st du (plus dd .pool n)) : (releasePoolDescs v n b).owes st du dd := by
  induction n generalizing b with
  | zero => intro o; simpa [plus, releasePoolDescs] using h o
  | succ n ih =>
    refine ih (owes_releasePoolDesc v ?_)
    intro o
    have := h o
    simp only [plus] at this ⊢
    refine ⟨this.1, ?_⟩
    split <;> simp_all <;> omega

theorem owes_releaseDescOf {b : Buffer} {st : Settings} {du dd : Origin → Nat} (v : CreditEnv) (x : Origin)
    (h : b.owes st du (plus dd x 1)) : (releaseDescOf v b x).owes st du dd := by
  cases x with
  | writeHome p =>
    refine owes_counts _ _ h rfl ?_ ?_ <;> intro o <;>
      cases p <;> rcases o with q | q | _ | _ <;> (try cases q) <;>
      simp [plus, releaseDescOf, Buffer.unitsIn, Buffer.descsIn, Buffer.modShare, PerPort.get, PerPort.set, Buffer.heldUnits, Buffer.heldDescs] <;> omega
  | readHome p => exact owes_giveReadDesc v p h
  | pool => exact owes_releasePoolDesc v h
  | internal =>
    refine owes_counts _ _ h rfl ?_ ?_ <;> intro o <;> rcases o with q | q | _ | _ <;> (try cases q) <;>
        simp [plus, releaseDescOf, Buffer.unitsIn, Buffer.descsIn, Buffer.heldUnits, Buffer.heldDescs] <;> omega

theorem owes_release {b : Buffer} {st : Settings} {du dd : Origin → Nat} (v : CreditEnv) (id : Nat) (h : b.owes st du dd) :
    (b.release v id).owes st du dd := by
  unfold Buffer.release
  split
  · rename_i d hd
    extract_lets b1
    apply owes_releaseDescOf
    apply owes_releaseUnits
    intro o
    have h1 := h o
    have h2 := sum_removeDesc id o b.descs d hd
    have e1 : b1.heldUnits o = ((removeDesc id b.descs).map (·.unitsOf o)).sum := rfl
    have e2 : b1.heldDescs o = ((removeDesc id b.descs).filter fun d => d.origin = o).length := rfl
    have e3 : b.heldUnits o = (b.descs.map (·.unitsOf o)).sum := rfl
    have e4 : b.heldDescs o = (b.descs.filter fun d => d.origin = o).length := rfl
    simp only [plus, countOf_append]
    rw [Desc.unitsOf_eq] at h2
    constructor
    · cases o <;> simp only [Buffer.unitsIn, e1, e3] at * <;> simp only [b1] at * <;> omega
    · cases o <;> simp only [Buffer.descsIn, e2, e4] at * <;> simp only [b1] at * <;> omega
  · exact h

theorem owes_trim {b : Buffer} {st : Settings} {du dd : Origin → Nat} (v : CreditEnv) (id n : Nat) (h : b.owes st du dd) :
    (b.trim v id n).owes st du dd := by
  unfold Buffer.trim
  split
  · rename_i d hd
    apply owes_releaseUnits
    refine owes_modDesc id (fun e => { e with units := e.units.take n }) (fun _ => rfl) _ ?_ ?_ h
    · intro e he o
      rw [hd] at he; injection he with he; subst he
      have := countOf_take_drop n d.units o
      simp only [Desc.unitsOf_eq, countOf_reverse]; omega
    · intro hn; rw [hd] at hn; cases hn
  · exact h

theorem owes_dropStored {b : Buffer} {st : Settings} {du dd : Origin → Nat} (v : CreditEnv) (id : Nat) (h : b.owes st du dd) :
    (b.dropStored v id).owes st du dd := by
  unfold Buffer.dropStored
  split
  · rename_i d hd
    apply owes_releaseUnits
    refine owes_modDesc id (fun e => { e with units := [], data := [] }) (fun _ => rfl) _ ?_ ?_ h
    · intro e he o
      rw [hd] at he; injection he with he; subst he
      simp only [Desc.unitsOf_eq, countOf_nil]; omega
    · intro hn; rw [hd] at hn; cases hn
  · exact h

theorem owes_refillUnits {b : Buffer} {st : Settings} {du dd : Origin → Nat} (v : CreditEnv) (p : Port) (h : b.owes st du dd) :
    (refillUnits v b p).owes st du dd := by
  unfold refillUnits
  extract_lets sh lack home pool src
  have hh : home ≤ (b.share.get p).writeFree := Nat.min_le_right _ _
  have hp : pool ≤ b.poolFree := by simp only [pool]; split; exact Nat.min_le_right _ _; omega
  refine owes_counts _ _ h rfl ?_ ?_ <;> intro o <;>
      cases p <;> rcases o with q | q | _ | _ <;> (try cases q) <;>
      simp [src, Buffer.unitsIn, Buffer.descsIn, Buffer.modShare, PerPort.get, PerPort.set, Buffer.heldUnits, Buffer.heldDescs] at hh hp ⊢ <;> omega

theorem owes_refillDescs {b : Buffer} {st : Settings} {du dd : Origin → Nat} (v : CreditEnv) (p : Port) (h : b.owes st du dd) :
    (refillDescs v b p).owes st du dd := by
  unfold refillDescs
  extract_lets sh lack home pool src
  have hh : home ≤ (b.share.get p).descWriteFree := Nat.min_le_right _ _
  have hp : pool ≤ b.descPoolFree := by simp only [pool]; split; exact Nat.min_le_right _ _; omega
  refine owes_counts _ _ h rfl ?_ ?_ <;> intro o <;>
      cases p <;> rcases o with q | q | _ | _ <;> (try cases q) <;>
      simp [src, Buffer.unitsIn, Buffer.descsIn, Buffer.modShare, PerPort.get, PerPort.set, Buffer.heldUnits, Buffer.heldDescs] at hh hp ⊢ <;> omega

theorem owes_refillPort {b : Buffer} {st : Settings} {du dd : Origin → Nat} (v : CreditEnv) (p : Port) (h : b.owes st du dd) :
    (refillPort v b p).owes st du dd := by
  unfold refillPort
  split
  · extract_lets b1
    have h1 : b1.owes st du dd := by
      simp only [b1]; split
      · exact owes_refillUnits v p h
      · exact h
    split
    · exact owes_refillDescs v p h1
    · exact h1
  · exact h

theorem owes_refillPass {b : Buffer} {st : Settings} {du dd : Origin → Nat} (v : CreditEnv) (h : b.owes st du dd) :
    (refillPass v b).owes st du dd := owes_refillPort v _ (owes_refillPort v _ (owes_refillPort v _ h))

theorem owes_refillIdle {b : Buffer} {st : Settings} {du dd : Origin → Nat} (v : CreditEnv) (p : Port) (h : b.owes st du dd) :
    (refillIdle v p b).owes st du dd := owes_refillDescs v p (owes_refillUnits v p h)

theorem owes_settle {b : Buffer} {st : Settings} {du dd : Origin → Nat} (v : CreditEnv) (h : b.owes st du dd) :
    (settle v b).owes st du dd := owes_refillPass v (owes_fillPort v _ (owes_fillPort v _ (owes_fillPort v _ h)))

theorem owes_consume {b : Buffer} {st : Settings} {du dd : Origin → Nat} (p : Port) (k : Nat) (bytes : List Byte)
    (hw : windowsHold b p k = true) (h : b.owes st du dd) : (b.consume p k bytes).owes st du dd := by
  unfold Buffer.consume
  extract_lets sh home own
  simp only [windowsHold, Share.unitWindow, Share.descWindow, Bool.and_eq_true, decide_eq_true_eq] at hw
  have hh : home = min k (b.share.get p).writeGranted := rfl
  clear_value home
  have hw1 := of_decide_eq_true hw.1
  have hw2 := of_decide_eq_true hw.2
  refine owes_addDesc _ _ _ (owes_counts (c := b.modShare p fun h => { h with writeGranted := h.writeGranted - home, poolGranted := h.poolGranted - (k - home), descWriteGranted := if own then h.descWriteGranted - 1 else h.descWriteGranted, descPoolGranted := if own then h.descPoolGranted else h.descPoolGranted - 1 })
    (plus (plus du (.writeHome p) home) .pool (k - home)) (plus dd (if own then .writeHome p else .pool) 1) h rfl ?_ ?_) ?_ ?_
  · intro o
    cases p <;> rcases o with q | q | _ | _ <;> (try cases q) <;>
      simp [plus, Buffer.unitsIn, Buffer.modShare, PerPort.get, PerPort.set, Buffer.heldUnits] at hh hw1 ⊢ <;> omega
  · intro o
    by_cases ho : own
    · have ho' : 0 < (b.share.get p).descWriteGranted := ho
      cases p <;> rcases o with q | q | _ | _ <;> (try cases q) <;>
        simp [ho, plus, Buffer.descsIn, Buffer.modShare, PerPort.get, PerPort.set, Buffer.heldDescs] at ho' hw2 ⊢ <;> omega
    · have ho' : ¬ 0 < (b.share.get p).descWriteGranted := ho
      cases p <;> rcases o with q | q | _ | _ <;> (try cases q) <;>
        simp [ho, plus, Buffer.descsIn, Buffer.modShare, PerPort.get, PerPort.set, Buffer.heldDescs] at ho' hw2 ⊢ <;> omega
  · intro o; simp [plus]; omega
  · intro o; by_cases ho : own <;> simp [plus, ho]

theorem owes_askRead {b : Buffer} {st : Settings} {du dd : Origin → Nat} (v : CreditEnv) (p : Port) (bay : Bay) (h : b.owes st du dd) :
    (b.askRead v p bay).owes st du dd := by
  unfold Buffer.askRead
  split
  · rename_i hf
    extract_lets id b1
    apply owes_fillPort
    refine owes_same (b := b1) ?_ rfl rfl rfl rfl rfl rfl
    refine owes_addDesc _ _ _ (owes_counts (c := b.modShare p fun h => { h with descReadFree := h.descReadFree - 1 }) du (plus dd (.readHome p) 1) h rfl ?_ ?_) ?_ ?_
    · intro o; cases p <;> rcases o with q | q | _ | _ <;> (try cases q) <;>
        simp [Buffer.unitsIn, Buffer.modShare, PerPort.get, PerPort.set, Buffer.heldUnits]
    · intro o; cases p <;> rcases o with q | q | _ | _ <;> (try cases q) <;>
        simp [plus, Buffer.descsIn, Buffer.modShare, PerPort.get, PerPort.set, Buffer.heldDescs] at hf ⊢ <;> omega
    · intro o; simp
    · intro o; simp [plus]
  · exact owes_same h rfl rfl rfl rfl rfl rfl

theorem owes_askExpand {b : Buffer} {st : Settings} {du dd : Origin → Nat} (v : CreditEnv) (p : Port) (bay : Bay) (id n : Nat)
    (h : b.owes st du dd) : (b.askExpand v p bay id n).owes st du dd :=
  owes_fillPort v p (owes_same (c := { b with allocs := b.allocs ++ [⟨p, bay, .expand n, some id⟩] }) h rfl rfl rfl rfl rfl rfl)

theorem owes_cancelRead {b : Buffer} {st : Settings} {du dd : Origin → Nat} (v : CreditEnv) (bay : Bay) (h : b.owes st du dd) :
    (b.cancelRead v bay).owes st du dd := by
  have h1 : (b.dropRead bay).owes st du dd := owes_same h rfl rfl rfl rfl rfl rfl
  unfold Buffer.cancelRead
  split
  · split
    · exact owes_release v _ h1
    · exact h1
  · exact h

theorem owes_takeReserve {b : Buffer} {st : Settings} {du dd : Origin → Nat} (hw : b.reserveWhole = true) (h : b.owes st du dd) :
    b.takeReserve.owes st du dd := by
  simp only [Buffer.reserveWhole, Bool.and_eq_true, decide_eq_true_eq] at hw
  unfold Buffer.takeReserve
  refine owes_addDesc _ _ _ (owes_counts (c := { b with internalFree := b.internalFree - Config.internalUnits, descInternalFree := b.descInternalFree - 1 }) (plus du .internal Config.internalUnits) (plus dd .internal 1) h rfl ?_ ?_) ?_ ?_
  · intro o; rcases o with q | q | _ | _ <;> (try cases q) <;> simp [plus, Buffer.unitsIn, Buffer.heldUnits] <;> omega
  · intro o; rcases o with q | q | _ | _ <;> (try cases q) <;> simp [plus, Buffer.descsIn, Buffer.heldDescs] <;> omega
  · intro o; simp [plus]
  · intro o; simp [plus]

theorem owes_attach {b : Buffer} {st : Settings} {du dd : Origin → Nat} (v : CreditEnv) (p : Port) (h : b.owes st du dd) :
    (b.attach v p).owes st du dd := by
  refine owes_refillPass v (owes_refillIdle v p (owes_counts _ _ h rfl ?_ ?_)) <;> intro o <;>
      cases p <;> rcases o with q | q | _ | _ <;> (try cases q) <;>
      simp [Buffer.unitsIn, Buffer.descsIn, Buffer.modShare, PerPort.get, PerPort.set, Buffer.heldUnits, Buffer.heldDescs]

theorem owes_detach {b : Buffer} {st : Settings} {du dd : Origin → Nat} (v : CreditEnv) (p : Port) (h : b.owes st du dd) :
    (b.detach v p).owes st du dd := by
  unfold Buffer.detach
  extract_lets sh b1
  apply owes_releasePoolDescs
  apply owes_releaseUnits
  refine owes_counts _ _ h rfl ?_ ?_ <;> intro o <;>
      cases p <;> rcases o with q | q | _ | _ <;> (try cases q) <;>
      simp [plus, b1, sh, Buffer.unitsIn, Buffer.descsIn, Buffer.modShare, PerPort.get, PerPort.set, Buffer.heldUnits, Buffer.heldDescs] <;> omega

end Sys2Proof.Machine
end

