-- ==== Sys2Proof/Laws/Allotment.lean ====
section
/-! SUPPORT. The law of the segment buffer when the allotments change (R94, R95). -/

namespace Sys2Proof.Machine

/-- The allotments of a settings fit the buffer. -/
theorem sumsHeld_iff (st : Settings) : sumsHeld st = true ↔
    (st.writeUnits.p0 + st.writeUnits.p1 + st.writeUnits.p2 + (st.readUnits.p0 + st.readUnits.p1 + st.readUnits.p2) ≤ 1984
      ∧ st.writeDescs.p0 + st.writeDescs.p1 + st.writeDescs.p2 ≤ 228) := by
  rw [sumsHeld, Bool.and_eq_true, decide_eq_true_eq, decide_eq_true_eq]
  simp only [PerPort.total, Config.totalUnits, Config.internalUnits, Config.readDescs, Config.totalDescs, Config.internalDescs]
  omega

/-! ### What the lowers can give the pool -/

theorem joinAlloc_free (b : Buffer) (a : Alloc) (x : Origin) (n : Nat) :
    (b.joinAlloc a x n).poolFree = b.poolFree ∧ (b.joinAlloc a x n).descPoolFree = b.descPoolFree := by
  unfold Buffer.joinAlloc; split <;> exact ⟨rfl, rfl⟩

/-- A pool unit released leaves at most one more FREE, and no descriptor. -/
theorem releaseUnit_free (v : CreditEnv) (b : Buffer) :
    (releaseUnit v b .pool).poolFree ≤ b.poolFree + 1 ∧ (releaseUnit v b .pool).descPoolFree = b.descPoolFree := by
  have hg : ∀ (c : Buffer) (q : Port), (givePoolUnit c q).poolFree = c.poolFree ∧ (givePoolUnit c q).descPoolFree = c.descPoolFree := by
    intro c q
    unfold givePoolUnit
    split
    · exact joinAlloc_free _ _ _ _
    · exact ⟨rfl, rfl⟩
  simp only [releaseUnit]
  split
  · unfold handPoolUnit
    extract_lets b1 b2
    have h1 : b1.poolFree = b.poolFree ∧ b1.descPoolFree = b.descPoolFree := by
      simp only [b1]; (repeat' split) <;> exact ⟨rfl, rfl⟩
    have h2 := hg b1 b1.turnPort
    split <;> simp only [b2] <;> omega
  · exact ⟨Nat.le_refl _, rfl⟩

theorem releaseUnits_free (v : CreditEnv) (n : Nat) (b : Buffer) :
    (releaseUnits v b (List.replicate n .pool)).poolFree ≤ b.poolFree + n
    ∧ (releaseUnits v b (List.replicate n .pool)).descPoolFree = b.descPoolFree := by
  induction n generalizing b with
  | zero => exact ⟨Nat.le_refl _, rfl⟩
  | succ n ih =>
    rw [List.replicate_succ]
    have h := ih (releaseUnit v b .pool)
    have g := releaseUnit_free v b
    simp only [releaseUnits, List.foldl_cons] at h ⊢
    omega

theorem releasePoolDescs_free (v : CreditEnv) (n : Nat) (b : Buffer) :
    (releasePoolDescs v n b).descPoolFree ≤ b.descPoolFree + n ∧ (releasePoolDescs v n b).poolFree = b.poolFree := by
  induction n generalizing b with
  | zero => exact ⟨Nat.le_refl _, rfl⟩
  | succ n ih =>
    have h := ih (releasePoolDesc v b)
    have g : (releasePoolDesc v b).descPoolFree ≤ b.descPoolFree + 1 ∧ (releasePoolDesc v b).poolFree = b.poolFree := by
      unfold releasePoolDesc
      (repeat' split) <;> exact ⟨by simp [Buffer.modShare], rfl⟩
    simp only [releasePoolDescs]
    omega

/-- One port's lowers give the pool at most what they give up. -/
theorem lowerPort_free (v : CreditEnv) (new : Settings) (b : Buffer) (p : Port) :
    (lowerPort v new b p).poolFree ≤ b.poolFree + ((v.settings.writeUnits.get p - new.writeUnits.get p)
        + (v.settings.readUnits.get p - new.readUnits.get p))
    ∧ (lowerPort v new b p).descPoolFree ≤ b.descPoolFree + (v.settings.writeDescs.get p - new.writeDescs.get p) := by
  unfold lowerPort
  extract_lets dw dr dd b1
  have h := releasePoolDescs_free v dd (releaseUnits v b1 (List.replicate (dw + dr) .pool))
  have g := releaseUnits_free v (dw + dr) b1
  have e : b1.poolFree = b.poolFree ∧ b1.descPoolFree = b.descPoolFree := ⟨rfl, rfl⟩
  omega

/-! ### What a CONFIGURE that fits takes -/

theorem lowerAllowed_le {v : CreditEnv} {new : Settings} {b : Buffer} {p : Port} (h : lowerAllowed v new b p = true) :
    v.settings.writeUnits.get p - new.writeUnits.get p ≤ (b.share.get p).writeFree
    ∧ v.settings.readUnits.get p - new.readUnits.get p ≤ (b.share.get p).readFree
    ∧ v.settings.writeDescs.get p - new.writeDescs.get p ≤ (b.share.get p).descWriteFree := by
  simp only [lowerAllowed, Bool.or_eq_true, Bool.and_eq_true, decide_eq_true_eq] at h
  omega

/-- What moves is FREE in its origin when the change fits (R94, R95). -/
structure MovesFree (old new : Settings) (b : Buffer) : Prop where
  write : ∀ p, movedUnits old new (.writeHome p) ≤ (b.share.get p).writeFree
  read : ∀ p, movedUnits old new (.readHome p) ≤ (b.share.get p).readFree
  descs : ∀ p, movedDescs old new (.writeHome p) ≤ (b.share.get p).descWriteFree
  pool : movedUnits old new .pool ≤ b.poolFree
  poolDescs : movedDescs old new .pool ≤ b.descPoolFree

/-- What a pair of numbers loses one way and gains the other. -/
theorem sub_balance (a b : Nat) : b + (a - b) = a + (b - a) := by omega

theorem movesFree_of_fit {v : CreditEnv} {new : Settings} {b : Buffer} (hs : sumsHeld v.settings = true)
    (hn : sumsHeld new = true) (h : b.allotmentsFit v new = true) : MovesFree v.settings new b := by
  simp only [Buffer.allotmentsFit, Bool.and_eq_true, decide_eq_true_eq] at h
  obtain ⟨⟨⟨⟨h0, h1⟩, h2⟩, hu⟩, hd⟩ := h
  have l0 := lowerPort_free v new b .p0
  have l1 := lowerPort_free v new (lowerPort v new b .p0) .p1
  have l2 := lowerPort_free v new (lowerPort v new (lowerPort v new b .p0) .p1) .p2
  rw [sumsHeld_iff] at hs hn
  simp only [raiseUnits, raiseDescs, PerPort.get] at hu hd l0 l1 l2
  refine ⟨fun p => ?_, fun p => ?_, fun p => ?_, ?_, ?_⟩
  · cases p <;> simp only [movedUnits, Settings.unitAllotment] <;> first
      | exact (lowerAllowed_le h0).1 | exact (lowerAllowed_le h1).1 | exact (lowerAllowed_le h2).1
  · cases p <;> simp only [movedUnits, Settings.unitAllotment] <;> first
      | exact (lowerAllowed_le h0).2.1 | exact (lowerAllowed_le h1).2.1 | exact (lowerAllowed_le h2).2.1
  · cases p <;> simp only [movedDescs, Settings.descAllotment] <;> first
      | exact (lowerAllowed_le h0).2.2 | exact (lowerAllowed_le h1).2.2 | exact (lowerAllowed_le h2).2.2
  · have w0 := sub_balance v.settings.writeUnits.p0 new.writeUnits.p0
    have w1 := sub_balance v.settings.writeUnits.p1 new.writeUnits.p1
    have w2 := sub_balance v.settings.writeUnits.p2 new.writeUnits.p2
    have r0 := sub_balance v.settings.readUnits.p0 new.readUnits.p0
    have r1 := sub_balance v.settings.readUnits.p1 new.readUnits.p1
    have r2 := sub_balance v.settings.readUnits.p2 new.readUnits.p2
    have k := (l2.1.trans (Nat.add_le_add_right (l1.1.trans (Nat.add_le_add_right l0.1 _)) _))
    clear l0 l1 l2 h0 h1 h2 hd
    replace k := hu.trans k
    clear hu
    simp only [movedUnits, Settings.unitAllotment, Settings.poolUnits, PerPort.total, Config.totalUnits, Config.internalUnits]
    generalize v.settings.writeUnits.p0 - new.writeUnits.p0 = a0, v.settings.writeUnits.p1 - new.writeUnits.p1 = a1,
      v.settings.writeUnits.p2 - new.writeUnits.p2 = a2, v.settings.readUnits.p0 - new.readUnits.p0 = a3,
      v.settings.readUnits.p1 - new.readUnits.p1 = a4, v.settings.readUnits.p2 - new.readUnits.p2 = a5,
      new.writeUnits.p0 - v.settings.writeUnits.p0 = c0, new.writeUnits.p1 - v.settings.writeUnits.p1 = c1,
      new.writeUnits.p2 - v.settings.writeUnits.p2 = c2, new.readUnits.p0 - v.settings.readUnits.p0 = c3,
      new.readUnits.p1 - v.settings.readUnits.p1 = c4, new.readUnits.p2 - v.settings.readUnits.p2 = c5 at *
    omega
  · have d0 := sub_balance v.settings.writeDescs.p0 new.writeDescs.p0
    have d1 := sub_balance v.settings.writeDescs.p1 new.writeDescs.p1
    have d2 := sub_balance v.settings.writeDescs.p2 new.writeDescs.p2
    have k := (l2.2.trans (Nat.add_le_add_right (l1.2.trans (Nat.add_le_add_right l0.2 _)) _))
    clear l0 l1 l2 h0 h1 h2 hu
    replace k := hd.trans k
    clear hd
    simp only [movedDescs, Settings.descAllotment, Settings.poolDescs, PerPort.total, Config.totalDescs, Config.internalDescs,
      Config.readDescs]
    omega

/-! ### The movement -/

/-- What is set aside is on its way; the rest of the law stands. -/
theorem owes_setAside {old new : Settings} {b : Buffer} (hm : MovesFree old new b) (h : b.lawful old) :
    (b.setAside old new).owes old (movedUnits old new) (movedDescs old new) := by
  intro o
  have ho := h o
  have m0 := hm.write .p0; have m1 := hm.write .p1; have m2 := hm.write .p2
  have r0 := hm.read .p0; have r1 := hm.read .p1; have r2 := hm.read .p2
  have d0 := hm.descs .p0; have d1 := hm.descs .p1; have d2 := hm.descs .p2
  have mp := hm.pool; have dp := hm.poolDescs
  constructor
  · rcases o with q | q | _ | _ <;> (try cases q) <;>
      simp only [Buffer.setAside, Buffer.mapHomes, Buffer.unitsIn, PerPort.get, Buffer.heldUnits] at * <;>
      first
        | omega
        | (simp only [movedUnits, Settings.unitAllotment] at *; omega)
  · rcases o with q | q | _ | _ <;> (try cases q) <;>
      simp only [Buffer.setAside, Buffer.mapHomes, Buffer.descsIn, PerPort.get, Buffer.heldDescs] at * <;>
      first
        | omega
        | (simp only [movedDescs, Settings.descAllotment] at *; omega)

/-- The two sides of a change: what is left of the old allotments is what is kept of the new ones. -/
theorem owes_turned {old new : Settings} {b : Buffer} (h : b.owes old (movedUnits old new) (movedDescs old new)) :
    b.owes new (movedUnits new old) (movedDescs new old) := by
  intro o
  have := h o
  simp only [movedUnits, movedDescs] at *
  omega

/-- The write complete: the law of the new allotments. -/
theorem lawful_landMoved {v : CreditEnv} {new : Settings} {b : Buffer}
    (h : b.owes v.settings (movedUnits v.settings new) (movedDescs v.settings new)) : (b.landMoved v new).lawful new := by
  have h1 := owes_turned h
  have h2 : (releasePoolDescs v.lowered (movedDescs new v.settings .pool)
      (releaseUnits v.lowered b (List.replicate (movedUnits new v.settings .pool) .pool))).owes new
        (fun o => if o = .pool then 0 else movedUnits new v.settings o)
        (fun o => if o = .pool then 0 else movedDescs new v.settings o) := by
    apply owes_releasePoolDescs
    apply owes_releaseUnits
    intro o
    have ho := h1 o
    simp only [countOf_replicate, plus]
    cases o <;> simp_all
  intro o
  have ho := h2 o
  unfold Buffer.landMoved
  generalize releasePoolDescs v.lowered _ _ = c at *
  constructor
  · rcases o with q | q | _ | _ <;> (try cases q) <;>
      simp only [Buffer.mapHomes, Buffer.unitsIn, PerPort.get, Buffer.heldUnits, reduceCtorEq, if_false, if_true] at * <;>
      first
        | omega
        | (simp only [movedUnits, Settings.unitAllotment] at *; omega)
  · rcases o with q | q | _ | _ <;> (try cases q) <;>
      simp only [Buffer.mapHomes, Buffer.descsIn, PerPort.get, Buffer.heldDescs, reduceCtorEq, if_false, if_true] at * <;>
      first
        | omega
        | (simp only [movedDescs, Settings.descAllotment] at *; omega)

/-- What is set aside put back is the buffer as it was. -/
theorem lawful_whole {old new : Settings} {b : Buffer} (h : b.owes old (movedUnits old new) (movedDescs old new)) :
    (b.whole old new).lawful old := by
  intro o
  have ho := h o
  constructor
  · rcases o with q | q | _ | _ <;> (try cases q) <;>
      simp only [Buffer.whole, Buffer.mapHomes, Buffer.unitsIn, PerPort.get, Buffer.heldUnits] at * <;>
      first
        | omega
        | (simp only [movedUnits, Settings.unitAllotment] at *; omega)
  · rcases o with q | q | _ | _ <;> (try cases q) <;>
      simp only [Buffer.whole, Buffer.mapHomes, Buffer.descsIn, PerPort.get, Buffer.heldDescs] at * <;>
      first
        | omega
        | (simp only [movedDescs, Settings.descAllotment] at *; omega)

theorem lawful_congr {b : Buffer} {st st' : Settings} (h1 : st'.writeUnits = st.writeUnits) (h2 : st'.readUnits = st.readUnits)
    (h3 : st'.writeDescs = st.writeDescs) (h : b.lawful st) : b.lawful st' := by
  intro o
  have := h o
  cases o <;> simpa only [Settings.unitAllotment, Settings.descAllotment, Settings.poolUnits, Settings.poolDescs, h1, h2, h3] using this

end Sys2Proof.Machine
end

