-- ==== Sys2Proof/Laws/Requests.lean ====
section
/-! SUPPORT. The end of an event (R176), the ports alone, and how a tagged request is admitted (R173). -/

namespace Sys2Proof.Machine

/-! ### The links going on -/

theorem pump_eq (s : State) : pump s = { s with ports := ⟨s.ports.p0.pump, s.ports.p1.pump, s.ports.p2.pump⟩ } := rfl
@[simp] theorem pump_port (s : State) (p : Port) : (pump s).port p = (s.port p).pump := by cases p <;> rfl

@[simp] theorem pump_strap (s : State) : (pump s).strap = s.strap := rfl
@[simp] theorem pump_serviceOpen (s : State) : (pump s).serviceOpen = s.serviceOpen := rfl
@[simp] theorem pump_mailOpen (s : State) : (pump s).mailOpen = s.mailOpen := rfl
@[simp] theorem pump_store (s : State) : (pump s).store = s.store := rfl
@[simp] theorem pump_storeWrite (s : State) : (pump s).storeWrite = s.storeWrite := rfl
@[simp] theorem pump_configWaiting (s : State) : (pump s).configWaiting = s.configWaiting := rfl
@[simp] theorem pump_releaseWrites (s : State) : (pump s).releaseWrites = s.releaseWrites := rfl
@[simp] theorem pump_elements (s : State) : (pump s).elements = s.elements := rfl
@[simp] theorem pump_scratchPointer (s : State) : (pump s).scratchPointer = s.scratchPointer := rfl
@[simp] theorem pump_picker (s : State) : (pump s).picker = s.picker := rfl
@[simp] theorem pump_drives (s : State) : (pump s).drives = s.drives := rfl
@[simp] theorem pump_buffer (s : State) : (pump s).buffer = s.buffer := rfl
@[simp] theorem pump_streams (s : State) : (pump s).streams = s.streams := rfl
@[simp] theorem pump_engine (s : State) : (pump s).engine = s.engine := rfl
@[simp] theorem pump_restores (s : State) : (pump s).restores = s.restores := rfl
@[simp] theorem pump_verifies (s : State) : (pump s).verifies = s.verifies := rfl
@[simp] theorem pump_freeReads (s : State) : (pump s).freeReads = s.freeReads := rfl
@[simp] theorem pump_pending (s : State) : (pump s).pending = s.pending := rfl
@[simp] theorem pump_drive (s : State) (b : Bay) : (pump s).drive b = s.drive b := rfl
@[simp] theorem pump_stream (s : State) (b : Bay) : (pump s).stream b = s.stream b := rfl
@[simp] theorem pump_restore (s : State) (b : Bay) : (pump s).restore b = s.restore b := rfl
@[simp] theorem pump_verifyRun (s : State) (b : Bay) : (pump s).verifyRun b = s.verifyRun b := rfl

/-! ### One block read where it was updated -/

@[simp] theorem modPort_at (s : State) (p q : Port) (f : PortCtl → PortCtl) :
    (s.modPort p f).port q = if q = p then f (s.port p) else s.port q := by
  simp [State.modPort, State.port]
@[simp] theorem modDrive_at (s : State) (a b : Bay) (f : Drive → Drive) :
    (s.modDrive a f).drive b = if b = a then f (s.drive a) else s.drive b := by
  simp [State.modDrive, State.drive]
@[simp] theorem modStream_at (s : State) (a b : Bay) (f : Stream → Stream) :
    (s.modStream a f).stream b = if b = a then f (s.stream a) else s.stream b := by
  simp [State.modStream, State.stream]
@[simp] theorem setRestore_at (s : State) (a b : Bay) (r : Option RestoreRun) :
    (s.setRestore a r).restore b = if b = a then r else s.restore b := by
  simp only [State.setRestore, State.restore, PerBay.get_set]; split <;> rfl
@[simp] theorem setVerify_at (s : State) (a b : Bay) (r : Option VerifyRun) :
    (s.setVerify a r).verifyRun b = if b = a then r else s.verifyRun b := by
  simp only [State.setVerify, State.verifyRun, PerBay.get_set]; split <;> rfl
@[simp] theorem modRestore_at (s : State) (a b : Bay) (f : RestoreRun → RestoreRun) :
    (s.modRestore a f).restore b = if b = a then (s.restore a).map f else s.restore b := by
  simp only [State.modRestore, State.setRestore, State.restore, PerBay.get_set]; split <;> rfl
@[simp] theorem modVerify_at (s : State) (a b : Bay) (f : VerifyRun → VerifyRun) :
    (s.modVerify a f).verifyRun b = if b = a then (s.verifyRun a).map f else s.verifyRun b := by
  simp only [State.modVerify, State.setVerify, State.verifyRun, PerBay.get_set]; split <;> rfl

/-- Two updates of one bay's drive are one; and only the value at the drive matters. -/
theorem modDrive_modDrive (s : State) (b : Bay) (f g : Drive → Drive) :
    (s.modDrive b f).modDrive b g = s.modDrive b (fun d => g (f d)) := by cases b <;> rfl
theorem modDrive_congr (s : State) (b : Bay) (f g : Drive → Drive) (h : f (s.drive b) = g (s.drive b)) :
    s.modDrive b f = s.modDrive b g := by
  cases b <;> simp_all [State.modDrive, State.drive]
theorem modStream_modStream (s : State) (b : Bay) (f g : Stream → Stream) :
    (s.modStream b f).modStream b g = s.modStream b (fun d => g (f d)) := by cases b <;> rfl
theorem modStream_congr (s : State) (b : Bay) (f g : Stream → Stream) (h : f (s.stream b) = g (s.stream b)) :
    s.modStream b f = s.modStream b g := by
  cases b <;> simp_all [State.modStream, State.stream]

/-! ### The ports alone -/

@[simp] theorem exceptPorts_self (s : State) : s.exceptPorts s = s := rfl
@[simp] theorem exceptPorts_modPort (s t : State) (p : Port) (f : PortCtl → PortCtl) :
    (s.modPort p f).exceptPorts t = s.exceptPorts t := rfl
@[simp] theorem exceptPorts_pump (s t : State) : (pump s).exceptPorts t = s.exceptPorts t := rfl
@[simp] theorem exceptPorts_answer (s t : State) (p : Port) (tag : Byte) (k : ReqKind) (c : ReplyCode) (b : ReplyBody) (x : Bool) :
    (answer s p tag k c b x).exceptPorts t = s.exceptPorts t := rfl
@[simp] theorem exceptPorts_openTag (s t : State) (p : Port) (tag : Byte) (k : ReqKind) :
    (openTag s p tag k).exceptPorts t = s.exceptPorts t := rfl
@[simp] theorem exceptPorts_queueNotice (s t : State) (p : Port) (n : Notice) :
    (queueNotice s p n).exceptPorts t = s.exceptPorts t := rfl
@[simp] theorem exceptPorts_queueLimited (s t : State) (p : Port) (f : Control → Bool) (r : Reply) :
    (queueLimited s p f r).exceptPorts t = s.exceptPorts t := rfl
@[simp] theorem exceptPorts_queueTagInUse (s t : State) (p : Port) (k : ReqKind) (tag : Byte) :
    (queueTagInUse s p k tag).exceptPorts t = s.exceptPorts t := rfl

/-! ### Admission (R173) -/

/-- A request that is taken is its owning block's work on the state with the tag open. -/
theorem request_taken {s : State} {p : Port} {tag : Byte} (k : ReqKind) (f : State → State) (h : s.takes p tag) :
    request s p tag k f = .next (pump (f (openTag s p tag k))) := by
  obtain ⟨h1, h2, h3⟩ := h
  have : ¬ 7 < tag.toNat := by omega
  simp [request, admission, h1, h3, this, finish]

theorem admission_taken {s : State} {p : Port} {tag : Byte} (k : ReqKind) (h : s.takes p tag) :
    admission s p tag k = .taken (openTag s p tag k) := by
  obtain ⟨h1, h2, h3⟩ := h
  have : ¬ 7 < tag.toNat := by omega
  simp [admission, h1, h3, this]

/-- A request that goes no further touches the ports alone. -/
theorem admission_stopped {s t : State} {p : Port} {tag : Byte} {k : ReqKind} (h : admission s p tag k = .stopped t) :
    t.exceptPorts s = s := by
  unfold admission at h
  (repeat' split at h) <;> first | (cases h; done) | (injection h with h; subst h; simp [queueLooseBadRequest])

theorem admission_open {s t : State} {p : Port} {tag : Byte} {k : ReqKind} (h : admission s p tag k = .taken t) :
    t = openTag s p tag k := by
  unfold admission at h
  (repeat' split at h) <;> first | (cases h; done) | (injection h with h; subst h; rfl)

/-- All a tagged request can come to. -/
theorem request_cases {s t : State} {p : Port} {tag : Byte} {k : ReqKind} {f : State → State}
    (h : request s p tag k f = .next t) : t.exceptPorts s = s ∨ t = pump (f (openTag s p tag k)) := by
  simp only [request, finish] at h
  split at h
  · rename_i x hx
    rw [Host.Outcome.next.injEq] at h
    subst h
    exact .inl (by simpa using admission_stopped hx)
  · rename_i x hx
    rw [Host.Outcome.next.injEq] at h
    subst h
    exact .inr (by rw [admission_open hx])

theorem openTag_released (s : State) (p q : Port) (tag : Byte) (k : ReqKind) :
    ((openTag s p tag k).port q).released = (s.port q).released := by
  cases p <;> cases q <;> rfl

theorem unlessReleased_some (s : State) (p : Port) (tag : Byte) (k : ReqKind) (b : Bay) (f : State → State)
    (h : b ∉ (s.port p).released) : unlessReleased s p tag k (some b) f = f s := by
  simp [unlessReleased, h]

end Sys2Proof.Machine
end

