-- ==== Sys2Proof/Laws/Frames.lean ====
section
/-! SUPPORT. Frames: the blocks of the state that each operation leaves alone. -/

namespace Sys2Proof.Machine

/-- The pins, the queues outside the part and the few single fields that hardly any operation touches. -/
def State.side (s : State) :=
  (s.strap, s.serviceOpen, s.mailOpen, s.storeWrite, s.configWaiting, s.releaseWrites, s.scratchPointer,
    s.freeReads, s.pending)

@[simp] theorem State.side_mk (strap : Nat) (serviceOpen mailOpen : Bool) (store : Store) (storeWrite : Option ConfigRequest)
    (configWaiting : List ConfigRequest) (releaseWrites : List ReleaseWrite) (elements : List Element) (scratchPointer : Nat) (picker : Picker) (drives : PerBay Drive)
    (buffer : Buffer) (streams : PerBay Stream) (engine : Engine) (restores : PerBay RestoreRuns)
    (verifies : PerBay VerifyRuns) (ports : PerPort PortCtl) (freeReads : Nat) (pending : List Instr) :
    State.side ⟨strap, serviceOpen, mailOpen, store, storeWrite, configWaiting, releaseWrites, elements, scratchPointer, picker, drives,
      buffer, streams, engine, restores, verifies, ports, freeReads, pending⟩
      = (strap, serviceOpen, mailOpen, storeWrite, configWaiting, releaseWrites, scratchPointer, freeReads, pending) := rfl
@[simp] theorem State.side_fold (s : State) :
    (s.strap, s.serviceOpen, s.mailOpen, s.storeWrite, s.configWaiting, s.releaseWrites, s.scratchPointer,
    s.freeReads, s.pending) = s.side := rfl

/-! ### Bases -/

theorem foldl_same {α β : Type} (g : State → β) (f : State → α → State) (hf : ∀ t a, g (f t a) = g t) (l : List α) (s : State) :
    g (l.foldl f s) = g s := by
  induction l generalizing s with
  | nil => rfl
  | cons a l ih => rw [List.foldl_cons, ih, hf]

@[simp] theorem foldl_side {α : Type} (f : State → α → State) (l : List α) (s : State) (hf : ∀ t a, (f t a).side = t.side) :
    (l.foldl f s).side = s.side := foldl_same (·.side) f hf l s
@[simp] theorem ite_side (c : Prop) [Decidable c] (s t : State) : (if c then s else t).side = if c then s.side else t.side := by
  split <;> rfl
@[simp] theorem foldl_strap {α : Type} (f : State → α → State) (l : List α) (s : State) (hf : ∀ t a, (f t a).strap = t.strap) :
    (l.foldl f s).strap = s.strap := foldl_same (·.strap) f hf l s
@[simp] theorem ite_strap (c : Prop) [Decidable c] (s t : State) : (if c then s else t).strap = if c then s.strap else t.strap := by
  split <;> rfl
@[simp] theorem foldl_serviceOpen {α : Type} (f : State → α → State) (l : List α) (s : State) (hf : ∀ t a, (f t a).serviceOpen = t.serviceOpen) :
    (l.foldl f s).serviceOpen = s.serviceOpen := foldl_same (·.serviceOpen) f hf l s
@[simp] theorem ite_serviceOpen (c : Prop) [Decidable c] (s t : State) : (if c then s else t).serviceOpen = if c then s.serviceOpen else t.serviceOpen := by
  split <;> rfl
@[simp] theorem foldl_mailOpen {α : Type} (f : State → α → State) (l : List α) (s : State) (hf : ∀ t a, (f t a).mailOpen = t.mailOpen) :
    (l.foldl f s).mailOpen = s.mailOpen := foldl_same (·.mailOpen) f hf l s
@[simp] theorem ite_mailOpen (c : Prop) [Decidable c] (s t : State) : (if c then s else t).mailOpen = if c then s.mailOpen else t.mailOpen := by
  split <;> rfl
@[simp] theorem foldl_store {α : Type} (f : State → α → State) (l : List α) (s : State) (hf : ∀ t a, (f t a).store = t.store) :
    (l.foldl f s).store = s.store := foldl_same (·.store) f hf l s
@[simp] theorem ite_store (c : Prop) [Decidable c] (s t : State) : (if c then s else t).store = if c then s.store else t.store := by
  split <;> rfl
@[simp] theorem foldl_storeWrite {α : Type} (f : State → α → State) (l : List α) (s : State) (hf : ∀ t a, (f t a).storeWrite = t.storeWrite) :
    (l.foldl f s).storeWrite = s.storeWrite := foldl_same (·.storeWrite) f hf l s
@[simp] theorem ite_storeWrite (c : Prop) [Decidable c] (s t : State) : (if c then s else t).storeWrite = if c then s.storeWrite else t.storeWrite := by
  split <;> rfl
@[simp] theorem foldl_configWaiting {α : Type} (f : State → α → State) (l : List α) (s : State) (hf : ∀ t a, (f t a).configWaiting = t.configWaiting) :
    (l.foldl f s).configWaiting = s.configWaiting := foldl_same (·.configWaiting) f hf l s
@[simp] theorem ite_configWaiting (c : Prop) [Decidable c] (s t : State) : (if c then s else t).configWaiting = if c then s.configWaiting else t.configWaiting := by
  split <;> rfl
@[simp] theorem foldl_releaseWrites {α : Type} (f : State → α → State) (l : List α) (s : State) (hf : ∀ t a, (f t a).releaseWrites = t.releaseWrites) :
    (l.foldl f s).releaseWrites = s.releaseWrites := foldl_same (·.releaseWrites) f hf l s
@[simp] theorem ite_releaseWrites (c : Prop) [Decidable c] (s t : State) : (if c then s else t).releaseWrites = if c then s.releaseWrites else t.releaseWrites := by
  split <;> rfl
@[simp] theorem foldl_elements {α : Type} (f : State → α → State) (l : List α) (s : State) (hf : ∀ t a, (f t a).elements = t.elements) :
    (l.foldl f s).elements = s.elements := foldl_same (·.elements) f hf l s
@[simp] theorem ite_elements (c : Prop) [Decidable c] (s t : State) : (if c then s else t).elements = if c then s.elements else t.elements := by
  split <;> rfl
@[simp] theorem foldl_scratchPointer {α : Type} (f : State → α → State) (l : List α) (s : State) (hf : ∀ t a, (f t a).scratchPointer = t.scratchPointer) :
    (l.foldl f s).scratchPointer = s.scratchPointer := foldl_same (·.scratchPointer) f hf l s
@[simp] theorem ite_scratchPointer (c : Prop) [Decidable c] (s t : State) : (if c then s else t).scratchPointer = if c then s.scratchPointer else t.scratchPointer := by
  split <;> rfl
@[simp] theorem foldl_picker {α : Type} (f : State → α → State) (l : List α) (s : State) (hf : ∀ t a, (f t a).picker = t.picker) :
    (l.foldl f s).picker = s.picker := foldl_same (·.picker) f hf l s
@[simp] theorem ite_picker (c : Prop) [Decidable c] (s t : State) : (if c then s else t).picker = if c then s.picker else t.picker := by
  split <;> rfl
@[simp] theorem foldl_drives {α : Type} (f : State → α → State) (l : List α) (s : State) (hf : ∀ t a, (f t a).drives = t.drives) :
    (l.foldl f s).drives = s.drives := foldl_same (·.drives) f hf l s
@[simp] theorem ite_drives (c : Prop) [Decidable c] (s t : State) : (if c then s else t).drives = if c then s.drives else t.drives := by
  split <;> rfl
@[simp] theorem foldl_buffer {α : Type} (f : State → α → State) (l : List α) (s : State) (hf : ∀ t a, (f t a).buffer = t.buffer) :
    (l.foldl f s).buffer = s.buffer := foldl_same (·.buffer) f hf l s
@[simp] theorem ite_buffer (c : Prop) [Decidable c] (s t : State) : (if c then s else t).buffer = if c then s.buffer else t.buffer := by
  split <;> rfl
@[simp] theorem foldl_streams {α : Type} (f : State → α → State) (l : List α) (s : State) (hf : ∀ t a, (f t a).streams = t.streams) :
    (l.foldl f s).streams = s.streams := foldl_same (·.streams) f hf l s
@[simp] theorem ite_streams (c : Prop) [Decidable c] (s t : State) : (if c then s else t).streams = if c then s.streams else t.streams := by
  split <;> rfl
@[simp] theorem foldl_engine {α : Type} (f : State → α → State) (l : List α) (s : State) (hf : ∀ t a, (f t a).engine = t.engine) :
    (l.foldl f s).engine = s.engine := foldl_same (·.engine) f hf l s
@[simp] theorem ite_engine (c : Prop) [Decidable c] (s t : State) : (if c then s else t).engine = if c then s.engine else t.engine := by
  split <;> rfl
@[simp] theorem foldl_restores {α : Type} (f : State → α → State) (l : List α) (s : State) (hf : ∀ t a, (f t a).restores = t.restores) :
    (l.foldl f s).restores = s.restores := foldl_same (·.restores) f hf l s
@[simp] theorem ite_restores (c : Prop) [Decidable c] (s t : State) : (if c then s else t).restores = if c then s.restores else t.restores := by
  split <;> rfl
@[simp] theorem foldl_verifies {α : Type} (f : State → α → State) (l : List α) (s : State) (hf : ∀ t a, (f t a).verifies = t.verifies) :
    (l.foldl f s).verifies = s.verifies := foldl_same (·.verifies) f hf l s
@[simp] theorem ite_verifies (c : Prop) [Decidable c] (s t : State) : (if c then s else t).verifies = if c then s.verifies else t.verifies := by
  split <;> rfl
@[simp] theorem foldl_ports {α : Type} (f : State → α → State) (l : List α) (s : State) (hf : ∀ t a, (f t a).ports = t.ports) :
    (l.foldl f s).ports = s.ports := foldl_same (·.ports) f hf l s
@[simp] theorem ite_ports (c : Prop) [Decidable c] (s t : State) : (if c then s else t).ports = if c then s.ports else t.ports := by
  split <;> rfl
@[simp] theorem foldl_freeReads {α : Type} (f : State → α → State) (l : List α) (s : State) (hf : ∀ t a, (f t a).freeReads = t.freeReads) :
    (l.foldl f s).freeReads = s.freeReads := foldl_same (·.freeReads) f hf l s
@[simp] theorem ite_freeReads (c : Prop) [Decidable c] (s t : State) : (if c then s else t).freeReads = if c then s.freeReads else t.freeReads := by
  split <;> rfl
@[simp] theorem foldl_pending {α : Type} (f : State → α → State) (l : List α) (s : State) (hf : ∀ t a, (f t a).pending = t.pending) :
    (l.foldl f s).pending = s.pending := foldl_same (·.pending) f hf l s
@[simp] theorem ite_pending (c : Prop) [Decidable c] (s t : State) : (if c then s else t).pending = if c then s.pending else t.pending := by
  split <;> rfl
@[simp] theorem State.modDrive_side (s : State) (b : Bay) (f : Drive → Drive) : (s.modDrive b f).side = s.side := rfl
@[simp] theorem State.modStream_side (s : State) (b : Bay) (f : Stream → Stream) : (s.modStream b f).side = s.side := rfl
@[simp] theorem State.modPort_side (s : State) (b : Port) (f : PortCtl → PortCtl) : (s.modPort b f).side = s.side := rfl
@[simp] theorem State.modPicker_side (s : State) (f : Picker → Picker) : (s.modPicker f).side = s.side := rfl
@[simp] theorem State.modEngine_side (s : State) (f : Engine → Engine) : (s.modEngine f).side = s.side := rfl
@[simp] theorem State.setRestore_side (s : State) (b : Bay) (r : Option RestoreRun) : (s.setRestore b r).side = s.side := rfl
@[simp] theorem State.setRestoreRuns_side (s : State) (b : Bay) (x : RestoreRuns) : (s.setRestoreRuns b x).side = s.side := rfl
@[simp] theorem State.setVerifyRuns_side (s : State) (b : Bay) (x : VerifyRuns) : (s.setVerifyRuns b x).side = s.side := rfl
@[simp] theorem State.setVerify_side (s : State) (b : Bay) (r : Option VerifyRun) : (s.setVerify b r).side = s.side := rfl
@[simp] theorem State.modRestore_frame (s : State) (b : Bay) (f : RestoreRun → RestoreRun) :
    (s.modRestore b f).side = s.side ∧ (s.modRestore b f).store = s.store ∧ (s.modRestore b f).elements = s.elements ∧
    (s.modRestore b f).picker = s.picker ∧ (s.modRestore b f).drives = s.drives ∧ (s.modRestore b f).buffer = s.buffer ∧
    (s.modRestore b f).streams = s.streams ∧ (s.modRestore b f).engine = s.engine ∧ (s.modRestore b f).verifies = s.verifies ∧
    (s.modRestore b f).ports = s.ports := by
  simp [State.modRestore]
@[simp] theorem State.modVerify_frame (s : State) (b : Bay) (f : VerifyRun → VerifyRun) :
    (s.modVerify b f).side = s.side ∧ (s.modVerify b f).store = s.store ∧ (s.modVerify b f).elements = s.elements ∧
    (s.modVerify b f).picker = s.picker ∧ (s.modVerify b f).drives = s.drives ∧ (s.modVerify b f).buffer = s.buffer ∧
    (s.modVerify b f).streams = s.streams ∧ (s.modVerify b f).engine = s.engine ∧ (s.modVerify b f).restores = s.restores ∧
    (s.modVerify b f).ports = s.ports := by
  simp [State.modVerify]

/-! ### Operations done for a run left behind, or for the run a descriptor belongs to -/

theorem onLeftRestore_same {β : Type} (g : State → β) (s : State) (b : Bay) (k : Nat) (f : State → State)
    (h1 : ∀ t a r, g (t.setRestore a r) = g t) (h2 : ∀ t a x, g (t.setRestoreRuns a x) = g t) (hf : ∀ t, g (f t) = g t) :
    g (onLeftRestore s b k f) = g s := by
  unfold onLeftRestore; split
  · dsimp only; rw [h2, hf, h1]
  · rfl
theorem onRunOf_same {β : Type} (g : State → β) (s : State) (b : Bay) (id : Option Nat) (f : State → State)
    (h1 : ∀ t a r, g (t.setRestore a r) = g t) (h2 : ∀ t a x, g (t.setRestoreRuns a x) = g t) (hf : ∀ t, g (f t) = g t) :
    g (onRunOf s b id f) = g s := by
  unfold onRunOf
  (repeat' split) <;> simp only [hf, onLeftRestore_same g _ _ _ f h1 h2 hf]
theorem onLeftRestores_same {β : Type} (g : State → β) (s : State) (b : Bay) (p : RestoreRun → Bool) (f : State → State)
    (h1 : ∀ t a r, g (t.setRestore a r) = g t) (h2 : ∀ t a x, g (t.setRestoreRuns a x) = g t) (hf : ∀ t, g (f t) = g t) :
    g (onLeftRestores s b p f) = g s := by
  exact foldl_same g _ (fun t k => by split; · exact onLeftRestore_same g _ _ _ f h1 h2 hf
                                      · rfl) _ _
@[simp] theorem onLeftRestore_side (s : State) (b : Bay) (k : Nat) (f : State → State)
    (hf : ∀ t, (f t).side = t.side) : (onLeftRestore s b k f).side = s.side := 
  onLeftRestore_same (·.side) s b _ f (fun _ _ _ => rfl) (fun _ _ _ => rfl) hf
@[simp] theorem onLeftRestore_store (s : State) (b : Bay) (k : Nat) (f : State → State)
    (hf : ∀ t, (f t).store = t.store) : (onLeftRestore s b k f).store = s.store := 
  onLeftRestore_same (·.store) s b _ f (fun _ _ _ => rfl) (fun _ _ _ => rfl) hf
@[simp] theorem onLeftRestore_elements (s : State) (b : Bay) (k : Nat) (f : State → State)
    (hf : ∀ t, (f t).elements = t.elements) : (onLeftRestore s b k f).elements = s.elements := 
  onLeftRestore_same (·.elements) s b _ f (fun _ _ _ => rfl) (fun _ _ _ => rfl) hf
@[simp] theorem onLeftRestore_picker (s : State) (b : Bay) (k : Nat) (f : State → State)
    (hf : ∀ t, (f t).picker = t.picker) : (onLeftRestore s b k f).picker = s.picker := 
  onLeftRestore_same (·.picker) s b _ f (fun _ _ _ => rfl) (fun _ _ _ => rfl) hf
@[simp] theorem onLeftRestore_drives (s : State) (b : Bay) (k : Nat) (f : State → State)
    (hf : ∀ t, (f t).drives = t.drives) : (onLeftRestore s b k f).drives = s.drives := 
  onLeftRestore_same (·.drives) s b _ f (fun _ _ _ => rfl) (fun _ _ _ => rfl) hf
@[simp] theorem onLeftRestore_buffer (s : State) (b : Bay) (k : Nat) (f : State → State)
    (hf : ∀ t, (f t).buffer = t.buffer) : (onLeftRestore s b k f).buffer = s.buffer := 
  onLeftRestore_same (·.buffer) s b _ f (fun _ _ _ => rfl) (fun _ _ _ => rfl) hf
@[simp] theorem onLeftRestore_streams (s : State) (b : Bay) (k : Nat) (f : State → State)
    (hf : ∀ t, (f t).streams = t.streams) : (onLeftRestore s b k f).streams = s.streams := 
  onLeftRestore_same (·.streams) s b _ f (fun _ _ _ => rfl) (fun _ _ _ => rfl) hf
@[simp] theorem onLeftRestore_engine (s : State) (b : Bay) (k : Nat) (f : State → State)
    (hf : ∀ t, (f t).engine = t.engine) : (onLeftRestore s b k f).engine = s.engine := 
  onLeftRestore_same (·.engine) s b _ f (fun _ _ _ => rfl) (fun _ _ _ => rfl) hf
@[simp] theorem onLeftRestore_verifies (s : State) (b : Bay) (k : Nat) (f : State → State)
    (hf : ∀ t, (f t).verifies = t.verifies) : (onLeftRestore s b k f).verifies = s.verifies := 
  onLeftRestore_same (·.verifies) s b _ f (fun _ _ _ => rfl) (fun _ _ _ => rfl) hf
@[simp] theorem onLeftRestore_ports (s : State) (b : Bay) (k : Nat) (f : State → State)
    (hf : ∀ t, (f t).ports = t.ports) : (onLeftRestore s b k f).ports = s.ports := 
  onLeftRestore_same (·.ports) s b _ f (fun _ _ _ => rfl) (fun _ _ _ => rfl) hf
@[simp] theorem onRunOf_side (s : State) (b : Bay) (id : Option Nat) (f : State → State)
    (hf : ∀ t, (f t).side = t.side) : (onRunOf s b id f).side = s.side := 
  onRunOf_same (·.side) s b _ f (fun _ _ _ => rfl) (fun _ _ _ => rfl) hf
@[simp] theorem onRunOf_store (s : State) (b : Bay) (id : Option Nat) (f : State → State)
    (hf : ∀ t, (f t).store = t.store) : (onRunOf s b id f).store = s.store := 
  onRunOf_same (·.store) s b _ f (fun _ _ _ => rfl) (fun _ _ _ => rfl) hf
@[simp] theorem onRunOf_elements (s : State) (b : Bay) (id : Option Nat) (f : State → State)
    (hf : ∀ t, (f t).elements = t.elements) : (onRunOf s b id f).elements = s.elements := 
  onRunOf_same (·.elements) s b _ f (fun _ _ _ => rfl) (fun _ _ _ => rfl) hf
@[simp] theorem onRunOf_picker (s : State) (b : Bay) (id : Option Nat) (f : State → State)
    (hf : ∀ t, (f t).picker = t.picker) : (onRunOf s b id f).picker = s.picker := 
  onRunOf_same (·.picker) s b _ f (fun _ _ _ => rfl) (fun _ _ _ => rfl) hf
@[simp] theorem onRunOf_drives (s : State) (b : Bay) (id : Option Nat) (f : State → State)
    (hf : ∀ t, (f t).drives = t.drives) : (onRunOf s b id f).drives = s.drives := 
  onRunOf_same (·.drives) s b _ f (fun _ _ _ => rfl) (fun _ _ _ => rfl) hf
@[simp] theorem onRunOf_buffer (s : State) (b : Bay) (id : Option Nat) (f : State → State)
    (hf : ∀ t, (f t).buffer = t.buffer) : (onRunOf s b id f).buffer = s.buffer := 
  onRunOf_same (·.buffer) s b _ f (fun _ _ _ => rfl) (fun _ _ _ => rfl) hf
@[simp] theorem onRunOf_streams (s : State) (b : Bay) (id : Option Nat) (f : State → State)
    (hf : ∀ t, (f t).streams = t.streams) : (onRunOf s b id f).streams = s.streams := 
  onRunOf_same (·.streams) s b _ f (fun _ _ _ => rfl) (fun _ _ _ => rfl) hf
@[simp] theorem onRunOf_engine (s : State) (b : Bay) (id : Option Nat) (f : State → State)
    (hf : ∀ t, (f t).engine = t.engine) : (onRunOf s b id f).engine = s.engine := 
  onRunOf_same (·.engine) s b _ f (fun _ _ _ => rfl) (fun _ _ _ => rfl) hf
@[simp] theorem onRunOf_verifies (s : State) (b : Bay) (id : Option Nat) (f : State → State)
    (hf : ∀ t, (f t).verifies = t.verifies) : (onRunOf s b id f).verifies = s.verifies := 
  onRunOf_same (·.verifies) s b _ f (fun _ _ _ => rfl) (fun _ _ _ => rfl) hf
@[simp] theorem onRunOf_ports (s : State) (b : Bay) (id : Option Nat) (f : State → State)
    (hf : ∀ t, (f t).ports = t.ports) : (onRunOf s b id f).ports = s.ports := 
  onRunOf_same (·.ports) s b _ f (fun _ _ _ => rfl) (fun _ _ _ => rfl) hf
@[simp] theorem onLeftRestores_side (s : State) (b : Bay) (p : RestoreRun → Bool) (f : State → State)
    (hf : ∀ t, (f t).side = t.side) : (onLeftRestores s b p f).side = s.side := 
  onLeftRestores_same (·.side) s b _ f (fun _ _ _ => rfl) (fun _ _ _ => rfl) hf
@[simp] theorem onLeftRestores_store (s : State) (b : Bay) (p : RestoreRun → Bool) (f : State → State)
    (hf : ∀ t, (f t).store = t.store) : (onLeftRestores s b p f).store = s.store := 
  onLeftRestores_same (·.store) s b _ f (fun _ _ _ => rfl) (fun _ _ _ => rfl) hf
@[simp] theorem onLeftRestores_elements (s : State) (b : Bay) (p : RestoreRun → Bool) (f : State → State)
    (hf : ∀ t, (f t).elements = t.elements) : (onLeftRestores s b p f).elements = s.elements := 
  onLeftRestores_same (·.elements) s b _ f (fun _ _ _ => rfl) (fun _ _ _ => rfl) hf
@[simp] theorem onLeftRestores_picker (s : State) (b : Bay) (p : RestoreRun → Bool) (f : State → State)
    (hf : ∀ t, (f t).picker = t.picker) : (onLeftRestores s b p f).picker = s.picker := 
  onLeftRestores_same (·.picker) s b _ f (fun _ _ _ => rfl) (fun _ _ _ => rfl) hf
@[simp] theorem onLeftRestores_drives (s : State) (b : Bay) (p : RestoreRun → Bool) (f : State → State)
    (hf : ∀ t, (f t).drives = t.drives) : (onLeftRestores s b p f).drives = s.drives := 
  onLeftRestores_same (·.drives) s b _ f (fun _ _ _ => rfl) (fun _ _ _ => rfl) hf
@[simp] theorem onLeftRestores_buffer (s : State) (b : Bay) (p : RestoreRun → Bool) (f : State → State)
    (hf : ∀ t, (f t).buffer = t.buffer) : (onLeftRestores s b p f).buffer = s.buffer := 
  onLeftRestores_same (·.buffer) s b _ f (fun _ _ _ => rfl) (fun _ _ _ => rfl) hf
@[simp] theorem onLeftRestores_streams (s : State) (b : Bay) (p : RestoreRun → Bool) (f : State → State)
    (hf : ∀ t, (f t).streams = t.streams) : (onLeftRestores s b p f).streams = s.streams := 
  onLeftRestores_same (·.streams) s b _ f (fun _ _ _ => rfl) (fun _ _ _ => rfl) hf
@[simp] theorem onLeftRestores_engine (s : State) (b : Bay) (p : RestoreRun → Bool) (f : State → State)
    (hf : ∀ t, (f t).engine = t.engine) : (onLeftRestores s b p f).engine = s.engine := 
  onLeftRestores_same (·.engine) s b _ f (fun _ _ _ => rfl) (fun _ _ _ => rfl) hf
@[simp] theorem onLeftRestores_verifies (s : State) (b : Bay) (p : RestoreRun → Bool) (f : State → State)
    (hf : ∀ t, (f t).verifies = t.verifies) : (onLeftRestores s b p f).verifies = s.verifies := 
  onLeftRestores_same (·.verifies) s b _ f (fun _ _ _ => rfl) (fun _ _ _ => rfl) hf
@[simp] theorem onLeftRestores_ports (s : State) (b : Bay) (p : RestoreRun → Bool) (f : State → State)
    (hf : ∀ t, (f t).ports = t.ports) : (onLeftRestores s b p f).ports = s.ports := 
  onLeftRestores_same (·.ports) s b _ f (fun _ _ _ => rfl) (fun _ _ _ => rfl) hf
theorem onLeftVerify_same {β : Type} (g : State → β) (s : State) (b : Bay) (k : Nat) (f : State → State)
    (h1 : ∀ t a r, g (t.setVerify a r) = g t) (h2 : ∀ t a x, g (t.setVerifyRuns a x) = g t) (hf : ∀ t, g (f t) = g t) :
    g (onLeftVerify s b k f) = g s := by
  unfold onLeftVerify; split
  · dsimp only; rw [h2, hf, h1]
  · rfl
theorem onVerifyOf_same {β : Type} (g : State → β) (s : State) (b : Bay) (id : Nat) (f : State → State)
    (h1 : ∀ t a r, g (t.setVerify a r) = g t) (h2 : ∀ t a x, g (t.setVerifyRuns a x) = g t) (hf : ∀ t, g (f t) = g t) :
    g (onVerifyOf s b id f) = g s := by
  unfold onVerifyOf
  (repeat' split) <;> simp only [hf, onLeftVerify_same g _ _ _ f h1 h2 hf]
@[simp] theorem onLeftVerify_side (s : State) (b : Bay) (k : Nat) (f : State → State)
    (hf : ∀ t, (f t).side = t.side) : (onLeftVerify s b k f).side = s.side := 
  onLeftVerify_same (·.side) s b _ f (fun _ _ _ => rfl) (fun _ _ _ => rfl) hf
@[simp] theorem onLeftVerify_store (s : State) (b : Bay) (k : Nat) (f : State → State)
    (hf : ∀ t, (f t).store = t.store) : (onLeftVerify s b k f).store = s.store := 
  onLeftVerify_same (·.store) s b _ f (fun _ _ _ => rfl) (fun _ _ _ => rfl) hf
@[simp] theorem onLeftVerify_elements (s : State) (b : Bay) (k : Nat) (f : State → State)
    (hf : ∀ t, (f t).elements = t.elements) : (onLeftVerify s b k f).elements = s.elements := 
  onLeftVerify_same (·.elements) s b _ f (fun _ _ _ => rfl) (fun _ _ _ => rfl) hf
@[simp] theorem onLeftVerify_picker (s : State) (b : Bay) (k : Nat) (f : State → State)
    (hf : ∀ t, (f t).picker = t.picker) : (onLeftVerify s b k f).picker = s.picker := 
  onLeftVerify_same (·.picker) s b _ f (fun _ _ _ => rfl) (fun _ _ _ => rfl) hf
@[simp] theorem onLeftVerify_drives (s : State) (b : Bay) (k : Nat) (f : State → State)
    (hf : ∀ t, (f t).drives = t.drives) : (onLeftVerify s b k f).drives = s.drives := 
  onLeftVerify_same (·.drives) s b _ f (fun _ _ _ => rfl) (fun _ _ _ => rfl) hf
@[simp] theorem onLeftVerify_buffer (s : State) (b : Bay) (k : Nat) (f : State → State)
    (hf : ∀ t, (f t).buffer = t.buffer) : (onLeftVerify s b k f).buffer = s.buffer := 
  onLeftVerify_same (·.buffer) s b _ f (fun _ _ _ => rfl) (fun _ _ _ => rfl) hf
@[simp] theorem onLeftVerify_streams (s : State) (b : Bay) (k : Nat) (f : State → State)
    (hf : ∀ t, (f t).streams = t.streams) : (onLeftVerify s b k f).streams = s.streams := 
  onLeftVerify_same (·.streams) s b _ f (fun _ _ _ => rfl) (fun _ _ _ => rfl) hf
@[simp] theorem onLeftVerify_engine (s : State) (b : Bay) (k : Nat) (f : State → State)
    (hf : ∀ t, (f t).engine = t.engine) : (onLeftVerify s b k f).engine = s.engine := 
  onLeftVerify_same (·.engine) s b _ f (fun _ _ _ => rfl) (fun _ _ _ => rfl) hf
@[simp] theorem onLeftVerify_restores (s : State) (b : Bay) (k : Nat) (f : State → State)
    (hf : ∀ t, (f t).restores = t.restores) : (onLeftVerify s b k f).restores = s.restores := 
  onLeftVerify_same (·.restores) s b _ f (fun _ _ _ => rfl) (fun _ _ _ => rfl) hf
@[simp] theorem onLeftVerify_ports (s : State) (b : Bay) (k : Nat) (f : State → State)
    (hf : ∀ t, (f t).ports = t.ports) : (onLeftVerify s b k f).ports = s.ports := 
  onLeftVerify_same (·.ports) s b _ f (fun _ _ _ => rfl) (fun _ _ _ => rfl) hf
@[simp] theorem onVerifyOf_side (s : State) (b : Bay) (id : Nat) (f : State → State)
    (hf : ∀ t, (f t).side = t.side) : (onVerifyOf s b id f).side = s.side := 
  onVerifyOf_same (·.side) s b _ f (fun _ _ _ => rfl) (fun _ _ _ => rfl) hf
@[simp] theorem onVerifyOf_store (s : State) (b : Bay) (id : Nat) (f : State → State)
    (hf : ∀ t, (f t).store = t.store) : (onVerifyOf s b id f).store = s.store := 
  onVerifyOf_same (·.store) s b _ f (fun _ _ _ => rfl) (fun _ _ _ => rfl) hf
@[simp] theorem onVerifyOf_elements (s : State) (b : Bay) (id : Nat) (f : State → State)
    (hf : ∀ t, (f t).elements = t.elements) : (onVerifyOf s b id f).elements = s.elements := 
  onVerifyOf_same (·.elements) s b _ f (fun _ _ _ => rfl) (fun _ _ _ => rfl) hf
@[simp] theorem onVerifyOf_picker (s : State) (b : Bay) (id : Nat) (f : State → State)
    (hf : ∀ t, (f t).picker = t.picker) : (onVerifyOf s b id f).picker = s.picker := 
  onVerifyOf_same (·.picker) s b _ f (fun _ _ _ => rfl) (fun _ _ _ => rfl) hf
@[simp] theorem onVerifyOf_drives (s : State) (b : Bay) (id : Nat) (f : State → State)
    (hf : ∀ t, (f t).drives = t.drives) : (onVerifyOf s b id f).drives = s.drives := 
  onVerifyOf_same (·.drives) s b _ f (fun _ _ _ => rfl) (fun _ _ _ => rfl) hf
@[simp] theorem onVerifyOf_buffer (s : State) (b : Bay) (id : Nat) (f : State → State)
    (hf : ∀ t, (f t).buffer = t.buffer) : (onVerifyOf s b id f).buffer = s.buffer := 
  onVerifyOf_same (·.buffer) s b _ f (fun _ _ _ => rfl) (fun _ _ _ => rfl) hf
@[simp] theorem onVerifyOf_streams (s : State) (b : Bay) (id : Nat) (f : State → State)
    (hf : ∀ t, (f t).streams = t.streams) : (onVerifyOf s b id f).streams = s.streams := 
  onVerifyOf_same (·.streams) s b _ f (fun _ _ _ => rfl) (fun _ _ _ => rfl) hf
@[simp] theorem onVerifyOf_engine (s : State) (b : Bay) (id : Nat) (f : State → State)
    (hf : ∀ t, (f t).engine = t.engine) : (onVerifyOf s b id f).engine = s.engine := 
  onVerifyOf_same (·.engine) s b _ f (fun _ _ _ => rfl) (fun _ _ _ => rfl) hf
@[simp] theorem onVerifyOf_restores (s : State) (b : Bay) (id : Nat) (f : State → State)
    (hf : ∀ t, (f t).restores = t.restores) : (onVerifyOf s b id f).restores = s.restores := 
  onVerifyOf_same (·.restores) s b _ f (fun _ _ _ => rfl) (fun _ _ _ => rfl) hf
@[simp] theorem onVerifyOf_ports (s : State) (b : Bay) (id : Nat) (f : State → State)
    (hf : ∀ t, (f t).ports = t.ports) : (onVerifyOf s b id f).ports = s.ports := 
  onVerifyOf_same (·.ports) s b _ f (fun _ _ _ => rfl) (fun _ _ _ => rfl) hf

/-! ### The operations -/
@[simp] theorem frame_queueNotice (s : State) (p : Port) (n : Notice) :
    (queueNotice s p n).side = s.side ∧ (queueNotice s p n).store = s.store ∧ (queueNotice s p n).elements = s.elements ∧
    (queueNotice s p n).picker = s.picker ∧ (queueNotice s p n).drives = s.drives ∧ (queueNotice s p n).buffer = s.buffer ∧
    (queueNotice s p n).streams = s.streams ∧ (queueNotice s p n).engine = s.engine ∧ (queueNotice s p n).restores = s.restores ∧
    (queueNotice s p n).verifies = s.verifies := by
  simp [queueNotice]
@[simp] theorem frame_queueNoticeAll (s : State) (n : Notice) :
    (queueNoticeAll s n).side = s.side ∧ (queueNoticeAll s n).store = s.store ∧ (queueNoticeAll s n).elements = s.elements ∧
    (queueNoticeAll s n).picker = s.picker ∧ (queueNoticeAll s n).drives = s.drives ∧ (queueNoticeAll s n).buffer = s.buffer ∧
    (queueNoticeAll s n).streams = s.streams ∧ (queueNoticeAll s n).engine = s.engine ∧
    (queueNoticeAll s n).restores = s.restores ∧ (queueNoticeAll s n).verifies = s.verifies := by
  simp [queueNoticeAll]
@[simp] theorem frame_queueReply (s : State) (p : Port) (r : Reply) :
    (queueReply s p r).side = s.side ∧ (queueReply s p r).store = s.store ∧ (queueReply s p r).elements = s.elements ∧
    (queueReply s p r).picker = s.picker ∧ (queueReply s p r).drives = s.drives ∧ (queueReply s p r).buffer = s.buffer ∧
    (queueReply s p r).streams = s.streams ∧ (queueReply s p r).engine = s.engine ∧ (queueReply s p r).restores = s.restores ∧
    (queueReply s p r).verifies = s.verifies := by
  simp [queueReply]
@[simp] theorem frame_queueFrames (s : State) (p : Port) (fs : List DataFrame) :
    (queueFrames s p fs).side = s.side ∧ (queueFrames s p fs).store = s.store ∧ (queueFrames s p fs).elements = s.elements ∧
    (queueFrames s p fs).picker = s.picker ∧ (queueFrames s p fs).drives = s.drives ∧ (queueFrames s p fs).buffer = s.buffer ∧
    (queueFrames s p fs).streams = s.streams ∧ (queueFrames s p fs).engine = s.engine ∧ (queueFrames s p fs).restores = s.restores ∧
    (queueFrames s p fs).verifies = s.verifies := by
  simp [queueFrames]
@[simp] theorem frame_queueLimited (s : State) (p : Port) (sort : Control → Bool) (r : Reply) :
    (queueLimited s p sort r).side = s.side ∧ (queueLimited s p sort r).store = s.store ∧
    (queueLimited s p sort r).elements = s.elements ∧ (queueLimited s p sort r).picker = s.picker ∧
    (queueLimited s p sort r).drives = s.drives ∧ (queueLimited s p sort r).buffer = s.buffer ∧
    (queueLimited s p sort r).streams = s.streams ∧ (queueLimited s p sort r).engine = s.engine ∧
    (queueLimited s p sort r).restores = s.restores ∧ (queueLimited s p sort r).verifies = s.verifies := by
  simp [queueLimited]
@[simp] theorem frame_queueWriteRefused (s : State) (p : Port) (kind : ReqKind) (stream : Byte) (code : ReplyCode) (record : Option Nat) :
    (queueWriteRefused s p kind stream code record).side = s.side ∧
    (queueWriteRefused s p kind stream code record).store = s.store ∧
    (queueWriteRefused s p kind stream code record).elements = s.elements ∧
    (queueWriteRefused s p kind stream code record).picker = s.picker ∧
    (queueWriteRefused s p kind stream code record).drives = s.drives ∧
    (queueWriteRefused s p kind stream code record).buffer = s.buffer ∧
    (queueWriteRefused s p kind stream code record).streams = s.streams ∧
    (queueWriteRefused s p kind stream code record).engine = s.engine ∧
    (queueWriteRefused s p kind stream code record).restores = s.restores ∧
    (queueWriteRefused s p kind stream code record).verifies = s.verifies := by
  simp [queueWriteRefused]
@[simp] theorem frame_queueLooseBadRequest (s : State) (p : Port) (kind tag : Byte) :
    (queueLooseBadRequest s p kind tag).side = s.side ∧ (queueLooseBadRequest s p kind tag).store = s.store ∧
    (queueLooseBadRequest s p kind tag).elements = s.elements ∧ (queueLooseBadRequest s p kind tag).picker = s.picker ∧
    (queueLooseBadRequest s p kind tag).drives = s.drives ∧ (queueLooseBadRequest s p kind tag).buffer = s.buffer ∧
    (queueLooseBadRequest s p kind tag).streams = s.streams ∧ (queueLooseBadRequest s p kind tag).engine = s.engine ∧
    (queueLooseBadRequest s p kind tag).restores = s.restores ∧ (queueLooseBadRequest s p kind tag).verifies = s.verifies := by
  simp [queueLooseBadRequest]
@[simp] theorem frame_queueTagInUse (s : State) (p : Port) (kind : ReqKind) (tag : Byte) :
    (queueTagInUse s p kind tag).side = s.side ∧ (queueTagInUse s p kind tag).store = s.store ∧
    (queueTagInUse s p kind tag).elements = s.elements ∧ (queueTagInUse s p kind tag).picker = s.picker ∧
    (queueTagInUse s p kind tag).drives = s.drives ∧ (queueTagInUse s p kind tag).buffer = s.buffer ∧
    (queueTagInUse s p kind tag).streams = s.streams ∧ (queueTagInUse s p kind tag).engine = s.engine ∧
    (queueTagInUse s p kind tag).restores = s.restores ∧ (queueTagInUse s p kind tag).verifies = s.verifies := by
  simp [queueTagInUse]
@[simp] theorem frame_answer (s : State) (p : Port) (tag : Byte) (kind : ReqKind) (code : ReplyCode) (body : ReplyBody) (clamped : Bool) :
    (answer s p tag kind code body clamped).side = s.side ∧ (answer s p tag kind code body clamped).store = s.store ∧
    (answer s p tag kind code body clamped).elements = s.elements ∧ (answer s p tag kind code body clamped).picker = s.picker ∧
    (answer s p tag kind code body clamped).drives = s.drives ∧ (answer s p tag kind code body clamped).buffer = s.buffer ∧
    (answer s p tag kind code body clamped).streams = s.streams ∧ (answer s p tag kind code body clamped).engine = s.engine ∧
    (answer s p tag kind code body clamped).restores = s.restores ∧ (answer s p tag kind code body clamped).verifies = s.verifies := by
  simp [answer]
@[simp] theorem frame_answerHeld (s : State) (p : Port) (tag : Option Byte) (kind : ReqKind) (code : ReplyCode) (body : ReplyBody) (clamped : Bool) :
    (answerHeld s p tag kind code body clamped).side = s.side ∧ (answerHeld s p tag kind code body clamped).store = s.store ∧
    (answerHeld s p tag kind code body clamped).elements = s.elements ∧
    (answerHeld s p tag kind code body clamped).picker = s.picker ∧
    (answerHeld s p tag kind code body clamped).drives = s.drives ∧
    (answerHeld s p tag kind code body clamped).buffer = s.buffer ∧
    (answerHeld s p tag kind code body clamped).streams = s.streams ∧
    (answerHeld s p tag kind code body clamped).engine = s.engine ∧
    (answerHeld s p tag kind code body clamped).restores = s.restores ∧
    (answerHeld s p tag kind code body clamped).verifies = s.verifies := by
  unfold answerHeld; split <;> simp
@[simp] theorem frame_refuse (s : State) (p : Port) (tag : Byte) (kind : ReqKind) (code : ReplyCode) :
    (refuse s p tag kind code).side = s.side ∧ (refuse s p tag kind code).store = s.store ∧
    (refuse s p tag kind code).elements = s.elements ∧ (refuse s p tag kind code).picker = s.picker ∧
    (refuse s p tag kind code).drives = s.drives ∧ (refuse s p tag kind code).buffer = s.buffer ∧
    (refuse s p tag kind code).streams = s.streams ∧ (refuse s p tag kind code).engine = s.engine ∧
    (refuse s p tag kind code).restores = s.restores ∧ (refuse s p tag kind code).verifies = s.verifies := by
  simp [refuse]
@[simp] theorem frame_setCondition (s : State) (c : LibCondition) :
    (setCondition s c).side = s.side ∧ (setCondition s c).store = s.store ∧ (setCondition s c).elements = s.elements ∧
    (setCondition s c).drives = s.drives ∧ (setCondition s c).buffer = s.buffer ∧ (setCondition s c).streams = s.streams ∧
    (setCondition s c).engine = s.engine ∧ (setCondition s c).restores = s.restores ∧ (setCondition s c).verifies = s.verifies := by
  simp [setCondition]
@[simp] theorem frame_modElement (s : State) (pea : Nat) (f : Element → Element) :
    (modElement s pea f).side = s.side ∧ (modElement s pea f).store = s.store ∧ (modElement s pea f).picker = s.picker ∧
    (modElement s pea f).drives = s.drives ∧ (modElement s pea f).buffer = s.buffer ∧ (modElement s pea f).streams = s.streams ∧
    (modElement s pea f).engine = s.engine ∧ (modElement s pea f).restores = s.restores ∧
    (modElement s pea f).verifies = s.verifies ∧ (modElement s pea f).ports = s.ports := by
  simp [modElement]
@[simp] theorem frame_setElem (s : State) (pea : Nat) (st : ElemState) :
    (setElem s pea st).side = s.side ∧ (setElem s pea st).store = s.store ∧ (setElem s pea st).picker = s.picker ∧
    (setElem s pea st).drives = s.drives ∧ (setElem s pea st).buffer = s.buffer ∧ (setElem s pea st).streams = s.streams ∧
    (setElem s pea st).engine = s.engine ∧ (setElem s pea st).restores = s.restores ∧ (setElem s pea st).verifies = s.verifies ∧
    (setElem s pea st).ports = s.ports := by
  simp [setElem]
@[simp] theorem frame_setClaim (s : State) (pea num : Nat) :
    (setClaim s pea num).side = s.side ∧ (setClaim s pea num).store = s.store ∧ (setClaim s pea num).picker = s.picker ∧
    (setClaim s pea num).drives = s.drives ∧ (setClaim s pea num).buffer = s.buffer ∧ (setClaim s pea num).streams = s.streams ∧
    (setClaim s pea num).engine = s.engine ∧ (setClaim s pea num).restores = s.restores ∧
    (setClaim s pea num).verifies = s.verifies ∧ (setClaim s pea num).ports = s.ports := by
  simp [setClaim]
@[simp] theorem frame_clearClaims (s : State) (num : Nat) :
    (clearClaims s num).side = s.side ∧ (clearClaims s num).store = s.store ∧ (clearClaims s num).picker = s.picker ∧
    (clearClaims s num).drives = s.drives ∧ (clearClaims s num).buffer = s.buffer ∧ (clearClaims s num).streams = s.streams ∧
    (clearClaims s num).engine = s.engine ∧ (clearClaims s num).restores = s.restores ∧
    (clearClaims s num).verifies = s.verifies ∧ (clearClaims s num).ports = s.ports := by
  simp [clearClaims]
@[simp] theorem frame_setVolumes (s : State) (vs : List Volume) :
    (setVolumes s vs).side = s.side ∧ (setVolumes s vs).elements = s.elements ∧ (setVolumes s vs).picker = s.picker ∧
    (setVolumes s vs).drives = s.drives ∧ (setVolumes s vs).buffer = s.buffer ∧ (setVolumes s vs).streams = s.streams ∧
    (setVolumes s vs).engine = s.engine ∧ (setVolumes s vs).restores = s.restores ∧ (setVolumes s vs).verifies = s.verifies ∧
    (setVolumes s vs).ports = s.ports := by
  simp [setVolumes]
@[simp] theorem frame_mapVolumes (s : State) (f : Volume → Volume) :
    (mapVolumes s f).side = s.side ∧ (mapVolumes s f).elements = s.elements ∧ (mapVolumes s f).picker = s.picker ∧
    (mapVolumes s f).drives = s.drives ∧ (mapVolumes s f).buffer = s.buffer ∧ (mapVolumes s f).streams = s.streams ∧
    (mapVolumes s f).engine = s.engine ∧ (mapVolumes s f).restores = s.restores ∧ (mapVolumes s f).verifies = s.verifies ∧
    (mapVolumes s f).ports = s.ports := by
  simp [mapVolumes]
@[simp] theorem frame_modVolume (s : State) (l : Label) (f : Volume → Volume) :
    (modVolume s l f).side = s.side ∧ (modVolume s l f).elements = s.elements ∧ (modVolume s l f).picker = s.picker ∧
    (modVolume s l f).drives = s.drives ∧ (modVolume s l f).buffer = s.buffer ∧ (modVolume s l f).streams = s.streams ∧
    (modVolume s l f).engine = s.engine ∧ (modVolume s l f).restores = s.restores ∧ (modVolume s l f).verifies = s.verifies ∧
    (modVolume s l f).ports = s.ports := by
  simp [modVolume]
@[simp] theorem frame_modDriveVolume (s : State) (b : Bay) (f : Volume → Volume) :
    (modDriveVolume s b f).side = s.side ∧ (modDriveVolume s b f).elements = s.elements ∧
    (modDriveVolume s b f).picker = s.picker ∧ (modDriveVolume s b f).drives = s.drives ∧
    (modDriveVolume s b f).buffer = s.buffer ∧ (modDriveVolume s b f).streams = s.streams ∧
    (modDriveVolume s b f).engine = s.engine ∧ (modDriveVolume s b f).restores = s.restores ∧
    (modDriveVolume s b f).verifies = s.verifies ∧ (modDriveVolume s b f).ports = s.ports := by
  unfold modDriveVolume; split <;> simp
@[simp] theorem frame_renumberExports (s : State) :
    (renumberExports s).side = s.side ∧ (renumberExports s).elements = s.elements ∧ (renumberExports s).picker = s.picker ∧
    (renumberExports s).drives = s.drives ∧ (renumberExports s).buffer = s.buffer ∧ (renumberExports s).streams = s.streams ∧
    (renumberExports s).engine = s.engine ∧ (renumberExports s).restores = s.restores ∧
    (renumberExports s).verifies = s.verifies ∧ (renumberExports s).ports = s.ports := by
  simp [renumberExports]
@[simp] theorem frame_exportVolume (s : State) (l : Label) :
    (exportVolume s l).side = s.side ∧ (exportVolume s l).elements = s.elements ∧ (exportVolume s l).picker = s.picker ∧
    (exportVolume s l).drives = s.drives ∧ (exportVolume s l).buffer = s.buffer ∧ (exportVolume s l).streams = s.streams ∧
    (exportVolume s l).engine = s.engine ∧ (exportVolume s l).restores = s.restores ∧ (exportVolume s l).verifies = s.verifies ∧
    (exportVolume s l).ports = s.ports := by
  simp [exportVolume]
@[simp] theorem frame_displaceFrom (s : State) (pea : Nat) (keep : Option Label) :
    (displaceFrom s pea keep).side = s.side ∧ (displaceFrom s pea keep).elements = s.elements ∧
    (displaceFrom s pea keep).picker = s.picker ∧ (displaceFrom s pea keep).drives = s.drives ∧
    (displaceFrom s pea keep).buffer = s.buffer ∧ (displaceFrom s pea keep).streams = s.streams ∧
    (displaceFrom s pea keep).engine = s.engine ∧ (displaceFrom s pea keep).restores = s.restores ∧
    (displaceFrom s pea keep).verifies = s.verifies ∧ (displaceFrom s pea keep).ports = s.ports := by
  simp [displaceFrom]
@[simp] theorem frame_foundEmpty (s : State) (pea : Nat) (byAudit : Bool) :
    (foundEmpty s pea byAudit).side = s.side ∧ (foundEmpty s pea byAudit).picker = s.picker ∧
    (foundEmpty s pea byAudit).drives = s.drives ∧ (foundEmpty s pea byAudit).buffer = s.buffer ∧
    (foundEmpty s pea byAudit).streams = s.streams ∧ (foundEmpty s pea byAudit).engine = s.engine ∧
    (foundEmpty s pea byAudit).restores = s.restores ∧ (foundEmpty s pea byAudit).verifies = s.verifies ∧
    (foundEmpty s pea byAudit).ports = s.ports := by
  simp [foundEmpty]
@[simp] theorem frame_fetchTaken (s : State) (pea : Nat) (read : Option Label) :
    (fetchTaken s pea read).side = s.side ∧ (fetchTaken s pea read).picker = s.picker ∧ (fetchTaken s pea read).drives = s.drives ∧
    (fetchTaken s pea read).buffer = s.buffer ∧ (fetchTaken s pea read).streams = s.streams ∧ (fetchTaken s pea read).engine = s.engine ∧
    (fetchTaken s pea read).restores = s.restores ∧ (fetchTaken s pea read).verifies = s.verifies ∧ (fetchTaken s pea read).ports = s.ports := by
  unfold fetchTaken; dsimp only; split <;> simp
@[simp] theorem frame_placeTaken (s : State) (pea : Nat) :
    (placeTaken s pea).side = s.side ∧ (placeTaken s pea).picker = s.picker ∧ (placeTaken s pea).drives = s.drives ∧
    (placeTaken s pea).buffer = s.buffer ∧ (placeTaken s pea).streams = s.streams ∧ (placeTaken s pea).engine = s.engine ∧
    (placeTaken s pea).restores = s.restores ∧ (placeTaken s pea).verifies = s.verifies ∧ (placeTaken s pea).ports = s.ports := by
  unfold placeTaken; split <;> simp
@[simp] theorem frame_placeObstructed (s : State) (pea : Nat) :
    (placeObstructed s pea).side = s.side ∧ (placeObstructed s pea).picker = s.picker ∧
    (placeObstructed s pea).drives = s.drives ∧ (placeObstructed s pea).buffer = s.buffer ∧
    (placeObstructed s pea).streams = s.streams ∧ (placeObstructed s pea).engine = s.engine ∧
    (placeObstructed s pea).restores = s.restores ∧ (placeObstructed s pea).verifies = s.verifies ∧
    (placeObstructed s pea).ports = s.ports := by
  simp [placeObstructed]
@[simp] theorem frame_creditNotice (old : Buffer) (s : State) (p : Port) :
    (creditNotice old s p).side = s.side ∧ (creditNotice old s p).store = s.store ∧
    (creditNotice old s p).elements = s.elements ∧ (creditNotice old s p).picker = s.picker ∧
    (creditNotice old s p).drives = s.drives ∧ (creditNotice old s p).buffer = s.buffer ∧
    (creditNotice old s p).streams = s.streams ∧ (creditNotice old s p).engine = s.engine ∧
    (creditNotice old s p).restores = s.restores ∧ (creditNotice old s p).verifies = s.verifies := by
  simp [creditNotice]
@[simp] theorem frame_onBuffer (s : State) (f : CreditEnv → Buffer → Buffer) :
    (onBuffer s f).side = s.side ∧ (onBuffer s f).store = s.store ∧ (onBuffer s f).elements = s.elements ∧
    (onBuffer s f).picker = s.picker ∧ (onBuffer s f).drives = s.drives ∧ (onBuffer s f).streams = s.streams ∧
    (onBuffer s f).engine = s.engine ∧ (onBuffer s f).restores = s.restores ∧ (onBuffer s f).verifies = s.verifies := by
  simp [onBuffer]
@[simp] theorem frame_releaseDesc (s : State) (id : Nat) :
    (releaseDesc s id).side = s.side ∧ (releaseDesc s id).store = s.store ∧ (releaseDesc s id).elements = s.elements ∧
    (releaseDesc s id).picker = s.picker ∧ (releaseDesc s id).drives = s.drives ∧ (releaseDesc s id).streams = s.streams ∧
    (releaseDesc s id).engine = s.engine ∧ (releaseDesc s id).restores = s.restores ∧ (releaseDesc s id).verifies = s.verifies := by
  simp [releaseDesc]
@[simp] theorem frame_trimDesc (s : State) (id n : Nat) :
    (trimDesc s id n).side = s.side ∧ (trimDesc s id n).store = s.store ∧ (trimDesc s id n).elements = s.elements ∧
    (trimDesc s id n).picker = s.picker ∧ (trimDesc s id n).drives = s.drives ∧ (trimDesc s id n).streams = s.streams ∧
    (trimDesc s id n).engine = s.engine ∧ (trimDesc s id n).restores = s.restores ∧ (trimDesc s id n).verifies = s.verifies := by
  simp [trimDesc]
@[simp] theorem frame_placeBytes (s : State) (id : Nat) (bytes : List Byte) :
    (placeBytes s id bytes).side = s.side ∧ (placeBytes s id bytes).store = s.store ∧
    (placeBytes s id bytes).elements = s.elements ∧ (placeBytes s id bytes).picker = s.picker ∧
    (placeBytes s id bytes).drives = s.drives ∧ (placeBytes s id bytes).streams = s.streams ∧
    (placeBytes s id bytes).engine = s.engine ∧ (placeBytes s id bytes).restores = s.restores ∧
    (placeBytes s id bytes).verifies = s.verifies ∧ (placeBytes s id bytes).ports = s.ports := by
  simp [placeBytes]
@[simp] theorem frame_issueLocate (s : State) (b : Bay) (a : Nat) :
    (issueLocate s b a).side = s.side ∧ (issueLocate s b a).store = s.store ∧ (issueLocate s b a).elements = s.elements ∧
    (issueLocate s b a).picker = s.picker ∧ (issueLocate s b a).buffer = s.buffer ∧ (issueLocate s b a).streams = s.streams ∧
    (issueLocate s b a).engine = s.engine ∧ (issueLocate s b a).restores = s.restores ∧
    (issueLocate s b a).verifies = s.verifies ∧ (issueLocate s b a).ports = s.ports := by
  simp [issueLocate]
@[simp] theorem frame_setAside (s : State) (b : Bay) :
    (setAside s b).side = s.side ∧ (setAside s b).store = s.store ∧ (setAside s b).elements = s.elements ∧
    (setAside s b).picker = s.picker ∧ (setAside s b).drives = s.drives ∧ (setAside s b).buffer = s.buffer ∧
    (setAside s b).streams = s.streams ∧ (setAside s b).engine = s.engine ∧ (setAside s b).ports = s.ports := by
  simp [setAside]
@[simp] theorem frame_offerItem (s : State) (i : Item) :
    (offerItem s i).side = s.side ∧ (offerItem s i).store = s.store ∧ (offerItem s i).elements = s.elements ∧
    (offerItem s i).picker = s.picker ∧ (offerItem s i).drives = s.drives ∧ (offerItem s i).buffer = s.buffer ∧
    (offerItem s i).streams = s.streams ∧ (offerItem s i).restores = s.restores ∧ (offerItem s i).verifies = s.verifies ∧
    (offerItem s i).ports = s.ports := by
  simp [offerItem]
@[simp] theorem frame_withdrawItem (s : State) (b : Bay) (id : Nat) :
    (withdrawItem s b id).side = s.side ∧ (withdrawItem s b id).store = s.store ∧ (withdrawItem s b id).elements = s.elements ∧
    (withdrawItem s b id).picker = s.picker ∧ (withdrawItem s b id).drives = s.drives ∧ (withdrawItem s b id).buffer = s.buffer ∧
    (withdrawItem s b id).streams = s.streams ∧ (withdrawItem s b id).restores = s.restores ∧
    (withdrawItem s b id).verifies = s.verifies ∧ (withdrawItem s b id).ports = s.ports := by
  simp [withdrawItem]
@[simp] theorem frame_abandonInHand (s : State) (id : Nat) :
    (abandonInHand s id).side = s.side ∧ (abandonInHand s id).store = s.store ∧ (abandonInHand s id).elements = s.elements ∧
    (abandonInHand s id).picker = s.picker ∧ (abandonInHand s id).drives = s.drives ∧ (abandonInHand s id).buffer = s.buffer ∧
    (abandonInHand s id).streams = s.streams ∧ (abandonInHand s id).restores = s.restores ∧
    (abandonInHand s id).verifies = s.verifies ∧ (abandonInHand s id).ports = s.ports := by
  simp [abandonInHand]
@[simp] theorem frame_toStreamPort (s : State) (b : Bay) (n : Notice) :
    (toStreamPort s b n).side = s.side ∧ (toStreamPort s b n).store = s.store ∧ (toStreamPort s b n).elements = s.elements ∧
    (toStreamPort s b n).picker = s.picker ∧ (toStreamPort s b n).drives = s.drives ∧ (toStreamPort s b n).buffer = s.buffer ∧
    (toStreamPort s b n).streams = s.streams ∧ (toStreamPort s b n).engine = s.engine ∧
    (toStreamPort s b n).restores = s.restores ∧ (toStreamPort s b n).verifies = s.verifies := by
  unfold toStreamPort; split <;> simp
@[simp] theorem frame_commitNotice (s : State) (b : Bay) :
    (commitNotice s b).side = s.side ∧ (commitNotice s b).store = s.store ∧ (commitNotice s b).elements = s.elements ∧
    (commitNotice s b).picker = s.picker ∧ (commitNotice s b).drives = s.drives ∧ (commitNotice s b).buffer = s.buffer ∧
    (commitNotice s b).engine = s.engine ∧ (commitNotice s b).restores = s.restores ∧ (commitNotice s b).verifies = s.verifies := by
  simp [commitNotice]
@[simp] theorem frame_testCommitNotice (s : State) (b : Bay) :
    (testCommitNotice s b).side = s.side ∧ (testCommitNotice s b).store = s.store ∧
    (testCommitNotice s b).elements = s.elements ∧ (testCommitNotice s b).picker = s.picker ∧
    (testCommitNotice s b).drives = s.drives ∧ (testCommitNotice s b).buffer = s.buffer ∧
    (testCommitNotice s b).engine = s.engine ∧ (testCommitNotice s b).restores = s.restores ∧
    (testCommitNotice s b).verifies = s.verifies := by
  simp [testCommitNotice]
@[simp] theorem frame_answerSync (s : State) (b : Bay) (tag : Byte) (code : ReplyCode) :
    (answerSync s b tag code).side = s.side ∧ (answerSync s b tag code).store = s.store ∧
    (answerSync s b tag code).elements = s.elements ∧ (answerSync s b tag code).picker = s.picker ∧
    (answerSync s b tag code).drives = s.drives ∧ (answerSync s b tag code).buffer = s.buffer ∧
    (answerSync s b tag code).engine = s.engine ∧ (answerSync s b tag code).restores = s.restores ∧
    (answerSync s b tag code).verifies = s.verifies := by
  unfold answerSync; dsimp only; split <;> simp
@[simp] theorem frame_testSyncs (s : State) (b : Bay) :
    (testSyncs s b).side = s.side ∧ (testSyncs s b).store = s.store ∧ (testSyncs s b).elements = s.elements ∧
    (testSyncs s b).picker = s.picker ∧ (testSyncs s b).drives = s.drives ∧ (testSyncs s b).buffer = s.buffer ∧
    (testSyncs s b).engine = s.engine ∧ (testSyncs s b).restores = s.restores ∧ (testSyncs s b).verifies = s.verifies := by
  simp [testSyncs]
@[simp] theorem frame_giveUpRecord (b : Bay) (s : State) (r : Rec) :
    (giveUpRecord b s r).side = s.side ∧ (giveUpRecord b s r).store = s.store ∧ (giveUpRecord b s r).elements = s.elements ∧
    (giveUpRecord b s r).picker = s.picker ∧ (giveUpRecord b s r).drives = s.drives ∧
    (giveUpRecord b s r).restores = s.restores ∧ (giveUpRecord b s r).verifies = s.verifies := by
  simp [giveUpRecord]
@[simp] theorem frame_giveUpRecords (s : State) (b : Bay) (f : Rec → Bool) :
    (giveUpRecords s b f).side = s.side ∧ (giveUpRecords s b f).store = s.store ∧ (giveUpRecords s b f).elements = s.elements ∧
    (giveUpRecords s b f).picker = s.picker ∧ (giveUpRecords s b f).drives = s.drives ∧
    (giveUpRecords s b f).restores = s.restores ∧ (giveUpRecords s b f).verifies = s.verifies := by
  simp [giveUpRecords]
@[simp] theorem frame_mediumEnd (s : State) (b : Bay) (u : Nat) :
    (mediumEnd s b u).side = s.side ∧ (mediumEnd s b u).store = s.store ∧ (mediumEnd s b u).elements = s.elements ∧
    (mediumEnd s b u).picker = s.picker ∧ (mediumEnd s b u).drives = s.drives ∧ (mediumEnd s b u).restores = s.restores ∧
    (mediumEnd s b u).verifies = s.verifies := by
  simp [mediumEnd]
@[simp] theorem frame_clearStreamActivity (s : State) (b : Bay) :
    (clearStreamActivity s b).side = s.side ∧ (clearStreamActivity s b).store = s.store ∧
    (clearStreamActivity s b).elements = s.elements ∧ (clearStreamActivity s b).picker = s.picker ∧
    (clearStreamActivity s b).buffer = s.buffer ∧ (clearStreamActivity s b).streams = s.streams ∧
    (clearStreamActivity s b).engine = s.engine ∧ (clearStreamActivity s b).restores = s.restores ∧
    (clearStreamActivity s b).verifies = s.verifies ∧ (clearStreamActivity s b).ports = s.ports := by
  simp [clearStreamActivity]
@[simp] theorem frame_answerClosing (b : Bay) (s : State) (q : Closing) :
    (answerClosing b s q).side = s.side ∧ (answerClosing b s q).store = s.store ∧ (answerClosing b s q).elements = s.elements ∧
    (answerClosing b s q).picker = s.picker ∧ (answerClosing b s q).drives = s.drives ∧ (answerClosing b s q).buffer = s.buffer ∧
    (answerClosing b s q).engine = s.engine ∧ (answerClosing b s q).restores = s.restores ∧
    (answerClosing b s q).verifies = s.verifies := by
  unfold answerClosing; dsimp only; split <;> simp
@[simp] theorem frame_closeStream (s : State) (b : Bay) :
    (closeStream s b).side = s.side ∧ (closeStream s b).store = s.store ∧ (closeStream s b).elements = s.elements ∧
    (closeStream s b).picker = s.picker ∧ (closeStream s b).buffer = s.buffer ∧ (closeStream s b).engine = s.engine ∧
    (closeStream s b).restores = s.restores ∧ (closeStream s b).verifies = s.verifies := by
  simp [closeStream]
@[simp] theorem frame_loseRecord (b : Bay) (s : State) (r : Rec) :
    (loseRecord b s r).side = s.side ∧ (loseRecord b s r).store = s.store ∧ (loseRecord b s r).elements = s.elements ∧
    (loseRecord b s r).picker = s.picker ∧ (loseRecord b s r).drives = s.drives ∧ (loseRecord b s r).streams = s.streams ∧
    (loseRecord b s r).restores = s.restores ∧ (loseRecord b s r).verifies = s.verifies := by
  simp [loseRecord]
@[simp] theorem frame_streamFault (s : State) (b : Bay) (code : FaultCode) :
    (streamFault s b code).side = s.side ∧ (streamFault s b code).elements = s.elements ∧
    (streamFault s b code).picker = s.picker ∧ (streamFault s b code).restores = s.restores ∧
    (streamFault s b code).verifies = s.verifies := by
  simp [streamFault]
@[simp] theorem frame_offerEngine (s : State) (b : Bay) :
    (offerEngine s b).side = s.side ∧ (offerEngine s b).store = s.store ∧ (offerEngine s b).elements = s.elements ∧
    (offerEngine s b).picker = s.picker ∧ (offerEngine s b).drives = s.drives ∧ (offerEngine s b).buffer = s.buffer ∧
    (offerEngine s b).restores = s.restores ∧ (offerEngine s b).verifies = s.verifies ∧ (offerEngine s b).ports = s.ports := by
  unfold offerEngine; dsimp only; (repeat' split) <;> simp
@[simp] theorem frame_earlyWarning (s : State) (b : Bay) (num : Nat) :
    (earlyWarning s b num).side = s.side ∧ (earlyWarning s b num).store = s.store ∧
    (earlyWarning s b num).elements = s.elements ∧ (earlyWarning s b num).picker = s.picker ∧
    (earlyWarning s b num).drives = s.drives ∧ (earlyWarning s b num).buffer = s.buffer ∧
    (earlyWarning s b num).engine = s.engine ∧ (earlyWarning s b num).restores = s.restores ∧
    (earlyWarning s b num).verifies = s.verifies := by
  simp [earlyWarning]
@[simp] theorem frame_sendBlock (s : State) (b : Bay) (r : Rec) (block : Nat) :
    (sendBlock s b r block).side = s.side ∧ (sendBlock s b r block).store = s.store ∧
    (sendBlock s b r block).elements = s.elements ∧ (sendBlock s b r block).picker = s.picker ∧
    (sendBlock s b r block).buffer = s.buffer ∧ (sendBlock s b r block).engine = s.engine ∧
    (sendBlock s b r block).restores = s.restores ∧ (sendBlock s b r block).verifies = s.verifies := by
  simp [sendBlock]
/-- The WRITE that a send issues carries the header of the record's first write (R186), and the bay takes nothing else. -/
theorem drive_sendBlock (s : State) (b : Bay) (r : Rec) (block : Nat) :
    (sendBlock s b r block).drive b = (s.drive b).issueWrite
      ⟨block, r.kind = .mark, r.frames, r.num, r.header.getD (recordHeader s b r block)⟩ := by
  simp [sendBlock, State.drive, State.modDrive]
theorem frame_offerOnce {s t : State} {b : Bay} (h : offerOnce s b = some t) :
    t.side = s.side ∧ t.store = s.store ∧ t.elements = s.elements ∧ t.picker = s.picker ∧ t.restores = s.restores ∧
    t.verifies = s.verifies := by
  unfold offerOnce at h
  dsimp only at h
  (repeat' split at h) <;> first | (cases h; done) | (injection h with h; subst h; simp)
@[simp] theorem frame_offerRun (n : Nat) (s : State) (b : Bay) :
    (offerRun n s b).side = s.side ∧ (offerRun n s b).store = s.store ∧ (offerRun n s b).elements = s.elements ∧
    (offerRun n s b).picker = s.picker ∧ (offerRun n s b).restores = s.restores ∧ (offerRun n s b).verifies = s.verifies := by
  induction n generalizing s with
  | zero => simp [offerRun]
  | succ n ih =>
    simp only [offerRun]
    split
    · rename_i t h
      have := frame_offerOnce h
      simp [ih, this]
    · simp
@[simp] theorem frame_offerBlocks (s : State) (b : Bay) :
    (offerBlocks s b).side = s.side ∧ (offerBlocks s b).store = s.store ∧ (offerBlocks s b).elements = s.elements ∧
    (offerBlocks s b).picker = s.picker ∧ (offerBlocks s b).restores = s.restores ∧ (offerBlocks s b).verifies = s.verifies := by
  simp [offerBlocks]
@[simp] theorem frame_discardStream (s : State) (b : Bay) (q : Closing) :
    (discardStream s b q).side = s.side ∧ (discardStream s b q).store = s.store ∧ (discardStream s b q).elements = s.elements ∧
    (discardStream s b q).picker = s.picker ∧ (discardStream s b q).drives = s.drives ∧
    (discardStream s b q).restores = s.restores ∧ (discardStream s b q).verifies = s.verifies := by
  simp [discardStream]
@[simp] theorem frame_openVolume (s : State) (b : Bay) (p : Port) (f : Nat) :
    (openVolume s b p f).side = s.side ∧ (openVolume s b p f).elements = s.elements ∧ (openVolume s b p f).picker = s.picker ∧
    (openVolume s b p f).drives = s.drives ∧ (openVolume s b p f).buffer = s.buffer ∧ (openVolume s b p f).streams = s.streams ∧
    (openVolume s b p f).engine = s.engine ∧ (openVolume s b p f).restores = s.restores ∧
    (openVolume s b p f).verifies = s.verifies ∧ (openVolume s b p f).ports = s.ports := by
  simp [openVolume]
@[simp] theorem frame_openingDone (s : State) (b : Bay) (f : Nat) :
    (openingDone s b f).side = s.side ∧ (openingDone s b f).elements = s.elements ∧ (openingDone s b f).picker = s.picker ∧
    (openingDone s b f).buffer = s.buffer ∧ (openingDone s b f).engine = s.engine ∧ (openingDone s b f).restores = s.restores ∧
    (openingDone s b f).verifies = s.verifies := by
  unfold openingDone; split <;> simp
@[simp] theorem frame_openingEnds (s : State) (b : Bay) (code : ReplyCode) :
    (openingEnds s b code).side = s.side ∧ (openingEnds s b code).store = s.store ∧
    (openingEnds s b code).elements = s.elements ∧ (openingEnds s b code).picker = s.picker ∧
    (openingEnds s b code).drives = s.drives ∧ (openingEnds s b code).buffer = s.buffer ∧
    (openingEnds s b code).engine = s.engine ∧ (openingEnds s b code).restores = s.restores ∧
    (openingEnds s b code).verifies = s.verifies := by
  unfold openingEnds; dsimp only; split <;> simp
@[simp] theorem frame_streamLinkLoss (s : State) (b : Bay) :
    (streamLinkLoss s b).side = s.side ∧ (streamLinkLoss s b).store = s.store ∧ (streamLinkLoss s b).elements = s.elements ∧
    (streamLinkLoss s b).picker = s.picker ∧ (streamLinkLoss s b).restores = s.restores ∧
    (streamLinkLoss s b).verifies = s.verifies := by
  unfold streamLinkLoss; dsimp only; split <;> simp
@[simp] theorem frame_untagClosing (s : State) (p : Port) (b : Bay) :
    (untagClosing s p b).side = s.side ∧ (untagClosing s p b).store = s.store ∧ (untagClosing s p b).elements = s.elements ∧
    (untagClosing s p b).picker = s.picker ∧ (untagClosing s p b).drives = s.drives ∧ (untagClosing s p b).buffer = s.buffer ∧
    (untagClosing s p b).engine = s.engine ∧ (untagClosing s p b).restores = s.restores ∧
    (untagClosing s p b).verifies = s.verifies ∧ (untagClosing s p b).ports = s.ports := by
  simp [untagClosing]
@[simp] theorem frame_portStreamsLoss (s : State) (p : Port) :
    (portStreamsLoss s p).side = s.side ∧ (portStreamsLoss s p).store = s.store ∧ (portStreamsLoss s p).elements = s.elements ∧
    (portStreamsLoss s p).picker = s.picker ∧ (portStreamsLoss s p).restores = s.restores ∧
    (portStreamsLoss s p).verifies = s.verifies := by
  simp [portStreamsLoss]
@[simp] theorem frame_addStaged (s : State) (b : Bay) (e : Staged) :
    (addStaged s b e).side = s.side ∧ (addStaged s b e).store = s.store ∧ (addStaged s b e).elements = s.elements ∧
    (addStaged s b e).picker = s.picker ∧ (addStaged s b e).drives = s.drives ∧ (addStaged s b e).buffer = s.buffer ∧
    (addStaged s b e).streams = s.streams ∧ (addStaged s b e).engine = s.engine ∧ (addStaged s b e).verifies = s.verifies ∧
    (addStaged s b e).ports = s.ports := by
  simp [addStaged]
@[simp] theorem frame_modStaged (s : State) (b : Bay) (block : Nat) (f : Staged → Staged) :
    (modStaged s b block f).side = s.side ∧ (modStaged s b block f).store = s.store ∧
    (modStaged s b block f).elements = s.elements ∧ (modStaged s b block f).picker = s.picker ∧
    (modStaged s b block f).drives = s.drives ∧ (modStaged s b block f).buffer = s.buffer ∧
    (modStaged s b block f).streams = s.streams ∧ (modStaged s b block f).engine = s.engine ∧
    (modStaged s b block f).verifies = s.verifies ∧ (modStaged s b block f).ports = s.ports := by
  simp [modStaged]
@[simp] theorem frame_dropStaged (s : State) (b : Bay) (block : Nat) :
    (dropStaged s b block).side = s.side ∧ (dropStaged s b block).store = s.store ∧
    (dropStaged s b block).elements = s.elements ∧ (dropStaged s b block).picker = s.picker ∧
    (dropStaged s b block).drives = s.drives ∧ (dropStaged s b block).buffer = s.buffer ∧
    (dropStaged s b block).streams = s.streams ∧ (dropStaged s b block).engine = s.engine ∧
    (dropStaged s b block).verifies = s.verifies ∧ (dropStaged s b block).ports = s.ports := by
  simp [dropStaged]
@[simp] theorem frame_releaseOpt (s : State) (id : Option Nat) :
    (releaseOpt s id).side = s.side ∧ (releaseOpt s id).store = s.store ∧ (releaseOpt s id).elements = s.elements ∧
    (releaseOpt s id).picker = s.picker ∧ (releaseOpt s id).drives = s.drives ∧ (releaseOpt s id).streams = s.streams ∧
    (releaseOpt s id).engine = s.engine ∧ (releaseOpt s id).restores = s.restores ∧ (releaseOpt s id).verifies = s.verifies := by
  unfold releaseOpt; split <;> simp
@[simp] theorem frame_giveUpDesc (s : State) (b : Bay) (id : Nat) :
    (giveUpDesc s b id).side = s.side ∧ (giveUpDesc s b id).store = s.store ∧ (giveUpDesc s b id).elements = s.elements ∧
    (giveUpDesc s b id).picker = s.picker ∧ (giveUpDesc s b id).drives = s.drives ∧ (giveUpDesc s b id).streams = s.streams ∧
    (giveUpDesc s b id).restores = s.restores ∧ (giveUpDesc s b id).verifies = s.verifies := by
  simp [giveUpDesc]
@[simp] theorem frame_giveUpStaged (b : Bay) (s : State) (e : Staged) :
    (giveUpStaged b s e).side = s.side ∧ (giveUpStaged b s e).store = s.store ∧ (giveUpStaged b s e).elements = s.elements ∧
    (giveUpStaged b s e).picker = s.picker ∧ (giveUpStaged b s e).drives = s.drives ∧ (giveUpStaged b s e).streams = s.streams ∧
    (giveUpStaged b s e).verifies = s.verifies := by
  unfold giveUpStaged; split <;> simp
@[simp] theorem frame_giveUpStagedIf (s : State) (b : Bay) (f : Staged → Bool) :
    (giveUpStagedIf s b f).side = s.side ∧ (giveUpStagedIf s b f).store = s.store ∧
    (giveUpStagedIf s b f).elements = s.elements ∧ (giveUpStagedIf s b f).picker = s.picker ∧
    (giveUpStagedIf s b f).drives = s.drives ∧ (giveUpStagedIf s b f).streams = s.streams ∧
    (giveUpStagedIf s b f).verifies = s.verifies := by
  unfold giveUpStagedIf; split <;> simp
@[simp] theorem frame_giveUpIndex (s : State) (b : Bay) :
    (giveUpIndex s b).side = s.side ∧ (giveUpIndex s b).store = s.store ∧ (giveUpIndex s b).elements = s.elements ∧
    (giveUpIndex s b).picker = s.picker ∧ (giveUpIndex s b).drives = s.drives ∧ (giveUpIndex s b).streams = s.streams ∧
    (giveUpIndex s b).verifies = s.verifies := by
  unfold giveUpIndex; (repeat' split) <;> simp
@[simp] theorem frame_takeEnding (s : State) (b : Bay) (code : ReplyCode) (block : Option Nat) :
    (takeEnding s b code block).side = s.side ∧ (takeEnding s b code block).store = s.store ∧
    (takeEnding s b code block).elements = s.elements ∧ (takeEnding s b code block).picker = s.picker ∧
    (takeEnding s b code block).drives = s.drives ∧ (takeEnding s b code block).streams = s.streams ∧
    (takeEnding s b code block).verifies = s.verifies := by
  unfold takeEnding; split <;> simp
@[simp] theorem frame_reportFailure (s : State) (l : Label) (block : Nat) :
    (reportFailure s l block).side = s.side ∧ (reportFailure s l block).elements = s.elements ∧
    (reportFailure s l block).picker = s.picker ∧ (reportFailure s l block).drives = s.drives ∧
    (reportFailure s l block).buffer = s.buffer ∧ (reportFailure s l block).streams = s.streams ∧
    (reportFailure s l block).engine = s.engine ∧ (reportFailure s l block).restores = s.restores ∧
    (reportFailure s l block).verifies = s.verifies ∧ (reportFailure s l block).ports = s.ports := by
  simp [reportFailure]
@[simp] theorem frame_askNext (s : State) (b : Bay) :
    (askNext s b).side = s.side ∧ (askNext s b).store = s.store ∧ (askNext s b).elements = s.elements ∧
    (askNext s b).picker = s.picker ∧ (askNext s b).drives = s.drives ∧ (askNext s b).streams = s.streams ∧
    (askNext s b).engine = s.engine ∧ (askNext s b).verifies = s.verifies := by
  unfold askNext; split <;> simp
@[simp] theorem frame_offerStaged (s : State) (b : Bay) :
    (offerStaged s b).side = s.side ∧ (offerStaged s b).store = s.store ∧ (offerStaged s b).elements = s.elements ∧
    (offerStaged s b).picker = s.picker ∧ (offerStaged s b).drives = s.drives ∧ (offerStaged s b).buffer = s.buffer ∧
    (offerStaged s b).streams = s.streams ∧ (offerStaged s b).verifies = s.verifies ∧ (offerStaged s b).ports = s.ports := by
  unfold offerStaged; (repeat' split) <;> simp
@[simp] theorem frame_offerDue (s : State) (b : Bay) :
    (offerDue s b).side = s.side ∧ (offerDue s b).store = s.store ∧ (offerDue s b).elements = s.elements ∧
    (offerDue s b).picker = s.picker ∧ (offerDue s b).drives = s.drives ∧ (offerDue s b).buffer = s.buffer ∧
    (offerDue s b).streams = s.streams ∧ (offerDue s b).verifies = s.verifies ∧ (offerDue s b).ports = s.ports := by
  simp [offerDue]
@[simp] theorem frame_handReady (s : State) (b : Bay) :
    (handReady s b).side = s.side ∧ (handReady s b).store = s.store ∧ (handReady s b).elements = s.elements ∧
    (handReady s b).picker = s.picker ∧ (handReady s b).drives = s.drives ∧ (handReady s b).buffer = s.buffer ∧
    (handReady s b).streams = s.streams ∧ (handReady s b).engine = s.engine ∧ (handReady s b).verifies = s.verifies := by
  unfold handReady; split <;> simp
@[simp] theorem frame_restoreAdvance (s : State) (b : Bay) :
    (restoreAdvance s b).side = s.side ∧ (restoreAdvance s b).store = s.store ∧ (restoreAdvance s b).elements = s.elements ∧
    (restoreAdvance s b).picker = s.picker ∧ (restoreAdvance s b).drives = s.drives ∧ (restoreAdvance s b).streams = s.streams ∧
    (restoreAdvance s b).verifies = s.verifies := by
  simp [restoreAdvance]
@[simp] theorem frame_restoreArrived (s : State) (b : Bay) :
    (restoreArrived s b).side = s.side ∧ (restoreArrived s b).store = s.store ∧ (restoreArrived s b).elements = s.elements ∧
    (restoreArrived s b).picker = s.picker ∧ (restoreArrived s b).drives = s.drives ∧ (restoreArrived s b).streams = s.streams ∧
    (restoreArrived s b).verifies = s.verifies := by
  unfold restoreArrived; split <;> simp
@[simp] theorem frame_restorePosition (s : State) (b : Bay) :
    (restorePosition s b).side = s.side ∧ (restorePosition s b).store = s.store ∧ (restorePosition s b).elements = s.elements ∧
    (restorePosition s b).picker = s.picker ∧ (restorePosition s b).streams = s.streams ∧
    (restorePosition s b).verifies = s.verifies := by
  unfold restorePosition; split <;> simp
@[simp] theorem frame_indexData (s : State) (b : Bay) (r : RestoreRun) (x : IndexRead) (h : TapeHeader) (stored : List Byte) :
    (indexData s b r x h stored).side = s.side ∧ (indexData s b r x h stored).elements = s.elements ∧
    (indexData s b r x h stored).picker = s.picker ∧ (indexData s b r x h stored).drives = s.drives ∧
    (indexData s b r x h stored).streams = s.streams ∧ (indexData s b r x h stored).verifies = s.verifies := by
  unfold indexData; (repeat' split) <;> simp
@[simp] theorem frame_endingAfter (s : State) (b : Bay) (block : Nat) (mark : Bool) :
    (endingAfter s b block mark).side = s.side ∧ (endingAfter s b block mark).store = s.store ∧
    (endingAfter s b block mark).elements = s.elements ∧ (endingAfter s b block mark).picker = s.picker ∧
    (endingAfter s b block mark).drives = s.drives ∧ (endingAfter s b block mark).streams = s.streams ∧
    (endingAfter s b block mark).verifies = s.verifies := by
  unfold endingAfter; split <;> simp
@[simp] theorem frame_stagedData (s : State) (b : Bay) (r : RestoreRun) (e : Staged) (id : Nat) (h : TapeHeader) (stored : List Byte) :
    (stagedData s b r e id h stored).side = s.side ∧ (stagedData s b r e id h stored).elements = s.elements ∧
    (stagedData s b r e id h stored).picker = s.picker ∧ (stagedData s b r e id h stored).drives = s.drives ∧
    (stagedData s b r e id h stored).streams = s.streams ∧ (stagedData s b r e id h stored).verifies = s.verifies := by
  simp [stagedData]
@[simp] theorem frame_restoreData (s : State) (b : Bay) (h : TapeHeader) (stored : List Byte) :
    (restoreData s b h stored).side = s.side ∧ (restoreData s b h stored).elements = s.elements ∧
    (restoreData s b h stored).picker = s.picker ∧ (restoreData s b h stored).drives = s.drives ∧
    (restoreData s b h stored).streams = s.streams ∧ (restoreData s b h stored).verifies = s.verifies := by
  unfold restoreData; (repeat' split) <;> simp
@[simp] theorem frame_restoreReadFailed (s : State) (b : Bay) (block : Nat) :
    (restoreReadFailed s b block).side = s.side ∧ (restoreReadFailed s b block).store = s.store ∧
    (restoreReadFailed s b block).elements = s.elements ∧ (restoreReadFailed s b block).picker = s.picker ∧
    (restoreReadFailed s b block).drives = s.drives ∧ (restoreReadFailed s b block).streams = s.streams ∧
    (restoreReadFailed s b block).verifies = s.verifies := by
  unfold restoreReadFailed; (repeat' split) <;> simp
@[simp] theorem frame_restoreDriveFault (s : State) (b : Bay) :
    (restoreDriveFault s b).side = s.side ∧ (restoreDriveFault s b).store = s.store ∧
    (restoreDriveFault s b).elements = s.elements ∧ (restoreDriveFault s b).picker = s.picker ∧
    (restoreDriveFault s b).drives = s.drives ∧ (restoreDriveFault s b).streams = s.streams ∧
    (restoreDriveFault s b).verifies = s.verifies := by
  simp [restoreDriveFault]
@[simp] theorem frame_withdrawFrames (s : State) (b : Bay) (p : Port) :
    (withdrawFrames s b p).side = s.side ∧ (withdrawFrames s b p).store = s.store ∧
    (withdrawFrames s b p).elements = s.elements ∧ (withdrawFrames s b p).picker = s.picker ∧
    (withdrawFrames s b p).drives = s.drives ∧ (withdrawFrames s b p).streams = s.streams ∧
    (withdrawFrames s b p).verifies = s.verifies := by
  simp [withdrawFrames]
@[simp] theorem frame_restoreAbort (s : State) (b : Bay) :
    (restoreAbort s b).side = s.side ∧ (restoreAbort s b).store = s.store ∧ (restoreAbort s b).elements = s.elements ∧
    (restoreAbort s b).picker = s.picker ∧ (restoreAbort s b).drives = s.drives ∧ (restoreAbort s b).streams = s.streams ∧
    (restoreAbort s b).verifies = s.verifies := by
  unfold restoreAbort; split <;> simp
@[simp] theorem frame_restoreLinkLoss (s : State) (b : Bay) :
    (restoreLinkLoss s b).side = s.side ∧ (restoreLinkLoss s b).store = s.store ∧ (restoreLinkLoss s b).elements = s.elements ∧
    (restoreLinkLoss s b).picker = s.picker ∧ (restoreLinkLoss s b).drives = s.drives ∧
    (restoreLinkLoss s b).streams = s.streams ∧ (restoreLinkLoss s b).verifies = s.verifies := by
  simp [restoreLinkLoss]
@[simp] theorem frame_bayRestoresLoss (p : Port) (s : State) (b : Bay) :
    (bayRestoresLoss p s b).side = s.side ∧ (bayRestoresLoss p s b).store = s.store ∧
    (bayRestoresLoss p s b).elements = s.elements ∧ (bayRestoresLoss p s b).picker = s.picker ∧
    (bayRestoresLoss p s b).drives = s.drives ∧ (bayRestoresLoss p s b).streams = s.streams ∧
    (bayRestoresLoss p s b).verifies = s.verifies := by
  simp [bayRestoresLoss]
@[simp] theorem frame_dropRestoreAborts (s : State) (p : Port) (b : Bay) :
    (dropRestoreAborts s p b).side = s.side ∧ (dropRestoreAborts s p b).store = s.store ∧
    (dropRestoreAborts s p b).elements = s.elements ∧ (dropRestoreAborts s p b).picker = s.picker ∧
    (dropRestoreAborts s p b).drives = s.drives ∧ (dropRestoreAborts s p b).buffer = s.buffer ∧
    (dropRestoreAborts s p b).streams = s.streams ∧ (dropRestoreAborts s p b).engine = s.engine ∧
    (dropRestoreAborts s p b).verifies = s.verifies ∧ (dropRestoreAborts s p b).ports = s.ports := by
  simp [dropRestoreAborts]
@[simp] theorem frame_portRestoresLoss (s : State) (p : Port) :
    (portRestoresLoss s p).side = s.side ∧ (portRestoresLoss s p).store = s.store ∧
    (portRestoresLoss s p).elements = s.elements ∧ (portRestoresLoss s p).picker = s.picker ∧
    (portRestoresLoss s p).drives = s.drives ∧ (portRestoresLoss s p).streams = s.streams ∧
    (portRestoresLoss s p).verifies = s.verifies := by
  simp [portRestoresLoss]
@[simp] theorem frame_recordDelivered (s : State) (b : Bay) (block : Nat) (id : Option Nat) :
    (recordDelivered s b block id).side = s.side ∧ (recordDelivered s b block id).store = s.store ∧
    (recordDelivered s b block id).elements = s.elements ∧ (recordDelivered s b block id).picker = s.picker ∧
    (recordDelivered s b block id).streams = s.streams ∧ (recordDelivered s b block id).verifies = s.verifies := by
  unfold recordDelivered; (repeat' split) <;> simp
@[simp] theorem frame_clearRunActivity (s : State) (b : Bay) :
    (clearRunActivity s b).side = s.side ∧ (clearRunActivity s b).store = s.store ∧
    (clearRunActivity s b).elements = s.elements ∧ (clearRunActivity s b).picker = s.picker ∧
    (clearRunActivity s b).buffer = s.buffer ∧ (clearRunActivity s b).streams = s.streams ∧
    (clearRunActivity s b).engine = s.engine ∧ (clearRunActivity s b).restores = s.restores ∧
    (clearRunActivity s b).verifies = s.verifies ∧ (clearRunActivity s b).ports = s.ports := by
  simp [clearRunActivity]
@[simp] theorem frame_answerAborts (s : State) (as : List RunAbort) :
    (answerAborts s as).side = s.side ∧ (answerAborts s as).store = s.store ∧
    (answerAborts s as).elements = s.elements ∧ (answerAborts s as).picker = s.picker ∧
    (answerAborts s as).drives = s.drives ∧ (answerAborts s as).buffer = s.buffer ∧
    (answerAborts s as).streams = s.streams ∧ (answerAborts s as).engine = s.engine ∧
    (answerAborts s as).restores = s.restores ∧ (answerAborts s as).verifies = s.verifies := by
  simp [answerAborts]
@[simp] theorem frame_answerRestore (s : State) (b : Bay) (r : RestoreRun) :
    (answerRestore s b r).side = s.side ∧ (answerRestore s b r).store = s.store ∧ (answerRestore s b r).elements = s.elements ∧
    (answerRestore s b r).picker = s.picker ∧ (answerRestore s b r).drives = s.drives ∧ (answerRestore s b r).buffer = s.buffer ∧
    (answerRestore s b r).streams = s.streams ∧ (answerRestore s b r).engine = s.engine ∧
    (answerRestore s b r).restores = s.restores ∧ (answerRestore s b r).verifies = s.verifies := by
  simp [answerRestore]
@[simp] theorem frame_closeRestore (s : State) (b : Bay) (r : RestoreRun) :
    (closeRestore s b r).side = s.side ∧ (closeRestore s b r).store = s.store ∧ (closeRestore s b r).elements = s.elements ∧
    (closeRestore s b r).picker = s.picker ∧ (closeRestore s b r).buffer = s.buffer ∧ (closeRestore s b r).streams = s.streams ∧
    (closeRestore s b r).engine = s.engine ∧ (closeRestore s b r).verifies = s.verifies := by
  simp [closeRestore]
@[simp] theorem frame_verifyEnds (s : State) (b : Bay) (code : ReplyCode) (block : Option Nat) :
    (verifyEnds s b code block).side = s.side ∧ (verifyEnds s b code block).store = s.store ∧
    (verifyEnds s b code block).elements = s.elements ∧ (verifyEnds s b code block).picker = s.picker ∧
    (verifyEnds s b code block).drives = s.drives ∧ (verifyEnds s b code block).buffer = s.buffer ∧
    (verifyEnds s b code block).streams = s.streams ∧ (verifyEnds s b code block).engine = s.engine ∧
    (verifyEnds s b code block).restores = s.restores ∧ (verifyEnds s b code block).ports = s.ports := by
  simp [verifyEnds]
@[simp] theorem frame_verifyReserve (s : State) (b : Bay) :
    (verifyReserve s b).side = s.side ∧ (verifyReserve s b).store = s.store ∧ (verifyReserve s b).elements = s.elements ∧
    (verifyReserve s b).picker = s.picker ∧ (verifyReserve s b).drives = s.drives ∧ (verifyReserve s b).streams = s.streams ∧
    (verifyReserve s b).engine = s.engine ∧ (verifyReserve s b).restores = s.restores := by
  simp [verifyReserve]
@[simp] theorem frame_verifyRelease (s : State) (b : Bay) :
    (verifyRelease s b).side = s.side ∧ (verifyRelease s b).store = s.store ∧ (verifyRelease s b).elements = s.elements ∧
    (verifyRelease s b).picker = s.picker ∧ (verifyRelease s b).drives = s.drives ∧ (verifyRelease s b).streams = s.streams ∧
    (verifyRelease s b).engine = s.engine ∧ (verifyRelease s b).restores = s.restores := by
  unfold verifyRelease; (repeat' split) <;> simp
@[simp] theorem frame_verifyResult (s : State) (b : Bay) (r : VerifyRun) (block : Nat) (res : CheckResult) :
    (verifyResult s b r block res).side = s.side ∧ (verifyResult s b r block res).elements = s.elements ∧
    (verifyResult s b r block res).picker = s.picker ∧ (verifyResult s b r block res).drives = s.drives ∧
    (verifyResult s b r block res).streams = s.streams ∧ (verifyResult s b r block res).engine = s.engine ∧
    (verifyResult s b r block res).restores = s.restores := by
  unfold verifyResult; split <;> simp
@[simp] theorem frame_verifyBlock (s : State) (b : Bay) (r : VerifyRun) (n id : Nat) (h : TapeHeader) (stored : List Byte) :
    (verifyBlock s b r n id h stored).side = s.side ∧ (verifyBlock s b r n id h stored).elements = s.elements ∧
    (verifyBlock s b r n id h stored).picker = s.picker ∧ (verifyBlock s b r n id h stored).drives = s.drives ∧
    (verifyBlock s b r n id h stored).streams = s.streams ∧ (verifyBlock s b r n id h stored).restores = s.restores := by
  simp [verifyBlock]
@[simp] theorem frame_verifyData (s : State) (b : Bay) (h : TapeHeader) (stored : List Byte) :
    (verifyData s b h stored).side = s.side ∧ (verifyData s b h stored).elements = s.elements ∧
    (verifyData s b h stored).picker = s.picker ∧ (verifyData s b h stored).drives = s.drives ∧
    (verifyData s b h stored).streams = s.streams ∧ (verifyData s b h stored).restores = s.restores := by
  unfold verifyData; (repeat' split) <;> simp
@[simp] theorem frame_verifyReadFailed (s : State) (b : Bay) (block : Nat) :
    (verifyReadFailed s b block).side = s.side ∧ (verifyReadFailed s b block).store = s.store ∧
    (verifyReadFailed s b block).elements = s.elements ∧ (verifyReadFailed s b block).picker = s.picker ∧
    (verifyReadFailed s b block).drives = s.drives ∧ (verifyReadFailed s b block).streams = s.streams ∧
    (verifyReadFailed s b block).engine = s.engine ∧ (verifyReadFailed s b block).restores = s.restores := by
  simp [verifyReadFailed]
@[simp] theorem frame_verifyDriveFault (s : State) (b : Bay) :
    (verifyDriveFault s b).side = s.side ∧ (verifyDriveFault s b).store = s.store ∧
    (verifyDriveFault s b).elements = s.elements ∧ (verifyDriveFault s b).picker = s.picker ∧
    (verifyDriveFault s b).drives = s.drives ∧ (verifyDriveFault s b).streams = s.streams ∧
    (verifyDriveFault s b).engine = s.engine ∧ (verifyDriveFault s b).restores = s.restores := by
  unfold verifyDriveFault; split <;> simp
@[simp] theorem frame_verifyArrived (s : State) (b : Bay) :
    (verifyArrived s b).side = s.side ∧ (verifyArrived s b).store = s.store ∧ (verifyArrived s b).elements = s.elements ∧
    (verifyArrived s b).picker = s.picker ∧ (verifyArrived s b).drives = s.drives ∧ (verifyArrived s b).streams = s.streams ∧
    (verifyArrived s b).engine = s.engine ∧ (verifyArrived s b).restores = s.restores := by
  unfold verifyArrived; split <;> simp
@[simp] theorem frame_verifyPosition (s : State) (b : Bay) :
    (verifyPosition s b).side = s.side ∧ (verifyPosition s b).store = s.store ∧ (verifyPosition s b).elements = s.elements ∧
    (verifyPosition s b).picker = s.picker ∧ (verifyPosition s b).streams = s.streams ∧ (verifyPosition s b).engine = s.engine ∧
    (verifyPosition s b).restores = s.restores := by
  unfold verifyPosition; split <;> simp
@[simp] theorem frame_verifyAbort (s : State) (b : Bay) :
    (verifyAbort s b).side = s.side ∧ (verifyAbort s b).store = s.store ∧ (verifyAbort s b).elements = s.elements ∧
    (verifyAbort s b).picker = s.picker ∧ (verifyAbort s b).drives = s.drives ∧ (verifyAbort s b).streams = s.streams ∧
    (verifyAbort s b).restores = s.restores := by
  unfold verifyAbort; (repeat' split) <;> simp
@[simp] theorem frame_verifyLinkLoss (s : State) (b : Bay) :
    (verifyLinkLoss s b).side = s.side ∧ (verifyLinkLoss s b).store = s.store ∧ (verifyLinkLoss s b).elements = s.elements ∧
    (verifyLinkLoss s b).picker = s.picker ∧ (verifyLinkLoss s b).drives = s.drives ∧ (verifyLinkLoss s b).streams = s.streams ∧
    (verifyLinkLoss s b).restores = s.restores := by
  simp [verifyLinkLoss]
@[simp] theorem frame_bayVerifiesLoss (p : Port) (s : State) (b : Bay) :
    (bayVerifiesLoss p s b).side = s.side ∧ (bayVerifiesLoss p s b).store = s.store ∧
    (bayVerifiesLoss p s b).elements = s.elements ∧ (bayVerifiesLoss p s b).picker = s.picker ∧
    (bayVerifiesLoss p s b).drives = s.drives ∧ (bayVerifiesLoss p s b).streams = s.streams ∧
    (bayVerifiesLoss p s b).restores = s.restores := by
  simp [bayVerifiesLoss]
@[simp] theorem frame_dropVerifyAborts (s : State) (p : Port) (b : Bay) :
    (dropVerifyAborts s p b).side = s.side ∧ (dropVerifyAborts s p b).store = s.store ∧
    (dropVerifyAborts s p b).elements = s.elements ∧ (dropVerifyAborts s p b).picker = s.picker ∧
    (dropVerifyAborts s p b).drives = s.drives ∧ (dropVerifyAborts s p b).buffer = s.buffer ∧
    (dropVerifyAborts s p b).streams = s.streams ∧ (dropVerifyAborts s p b).engine = s.engine ∧
    (dropVerifyAborts s p b).restores = s.restores ∧ (dropVerifyAborts s p b).ports = s.ports := by
  simp [dropVerifyAborts]
@[simp] theorem frame_portVerifiesLoss (s : State) (p : Port) :
    (portVerifiesLoss s p).side = s.side ∧ (portVerifiesLoss s p).store = s.store ∧
    (portVerifiesLoss s p).elements = s.elements ∧ (portVerifiesLoss s p).picker = s.picker ∧
    (portVerifiesLoss s p).drives = s.drives ∧ (portVerifiesLoss s p).streams = s.streams ∧
    (portVerifiesLoss s p).restores = s.restores := by
  simp [portVerifiesLoss]
@[simp] theorem frame_answerVerify (s : State) (b : Bay) (r : VerifyRun) :
    (answerVerify s b r).side = s.side ∧ (answerVerify s b r).store = s.store ∧ (answerVerify s b r).elements = s.elements ∧
    (answerVerify s b r).picker = s.picker ∧ (answerVerify s b r).drives = s.drives ∧ (answerVerify s b r).buffer = s.buffer ∧
    (answerVerify s b r).streams = s.streams ∧ (answerVerify s b r).engine = s.engine ∧ (answerVerify s b r).restores = s.restores ∧
    (answerVerify s b r).verifies = s.verifies := by
  simp [answerVerify]
@[simp] theorem frame_closeVerify (s : State) (b : Bay) (r : VerifyRun) :
    (closeVerify s b r).side = s.side ∧ (closeVerify s b r).store = s.store ∧ (closeVerify s b r).elements = s.elements ∧
    (closeVerify s b r).picker = s.picker ∧ (closeVerify s b r).buffer = s.buffer ∧ (closeVerify s b r).streams = s.streams ∧
    (closeVerify s b r).engine = s.engine ∧ (closeVerify s b r).restores = s.restores := by
  simp [closeVerify]
@[simp] theorem frame_modEntry (s : State) (num : Nat) (f : MoveEntry → MoveEntry) :
    (modEntry s num f).side = s.side ∧ (modEntry s num f).store = s.store ∧ (modEntry s num f).elements = s.elements ∧
    (modEntry s num f).drives = s.drives ∧ (modEntry s num f).buffer = s.buffer ∧ (modEntry s num f).streams = s.streams ∧
    (modEntry s num f).engine = s.engine ∧ (modEntry s num f).restores = s.restores ∧ (modEntry s num f).verifies = s.verifies ∧
    (modEntry s num f).ports = s.ports := by
  simp [modEntry]
@[simp] theorem frame_acceptEntry (s : State) (q : Requester) (kind : MoveKind) (source : Nat) (dest : Option Nat) (expected : Option Label) (phase : Phase) :
    (acceptEntry s q kind source dest expected phase).side = s.side ∧
    (acceptEntry s q kind source dest expected phase).store = s.store ∧
    (acceptEntry s q kind source dest expected phase).drives = s.drives ∧
    (acceptEntry s q kind source dest expected phase).buffer = s.buffer ∧
    (acceptEntry s q kind source dest expected phase).streams = s.streams ∧
    (acceptEntry s q kind source dest expected phase).engine = s.engine ∧
    (acceptEntry s q kind source dest expected phase).restores = s.restores ∧
    (acceptEntry s q kind source dest expected phase).verifies = s.verifies ∧
    (acceptEntry s q kind source dest expected phase).ports = s.ports := by
  unfold acceptEntry; split <;> simp
@[simp] theorem frame_queueOwedUnload (s : State) (b : Bay) :
    (queueOwedUnload s b).side = s.side ∧ (queueOwedUnload s b).store = s.store ∧ (queueOwedUnload s b).drives = s.drives ∧
    (queueOwedUnload s b).buffer = s.buffer ∧ (queueOwedUnload s b).streams = s.streams ∧
    (queueOwedUnload s b).engine = s.engine ∧ (queueOwedUnload s b).restores = s.restores ∧
    (queueOwedUnload s b).verifies = s.verifies ∧ (queueOwedUnload s b).ports = s.ports := by
  simp [queueOwedUnload]
@[simp] theorem frame_queueOwedUnloads (s : State) :
    (queueOwedUnloads s).side = s.side ∧ (queueOwedUnloads s).store = s.store ∧ (queueOwedUnloads s).drives = s.drives ∧
    (queueOwedUnloads s).buffer = s.buffer ∧ (queueOwedUnloads s).streams = s.streams ∧ (queueOwedUnloads s).engine = s.engine ∧
    (queueOwedUnloads s).restores = s.restores ∧ (queueOwedUnloads s).verifies = s.verifies ∧
    (queueOwedUnloads s).ports = s.ports := by
  simp [queueOwedUnloads]
@[simp] theorem frame_markOwed (s : State) (b : Bay) :
    (markOwed s b).side = s.side ∧ (markOwed s b).store = s.store ∧ (markOwed s b).drives = s.drives ∧
    (markOwed s b).buffer = s.buffer ∧ (markOwed s b).streams = s.streams ∧ (markOwed s b).engine = s.engine ∧
    (markOwed s b).restores = s.restores ∧ (markOwed s b).verifies = s.verifies ∧ (markOwed s b).ports = s.ports := by
  simp [markOwed]
/-- A bay marked already is not marked anew (R50). -/
theorem markOwed_of_marked (s : State) (b : Bay) (h : s.picker.unloadOwed.get b = true) : markOwed s b = s := by
  simp [markOwed, h]
@[simp] theorem frame_queueReturn (s : State) (pea : Nat) (l : Label) (owner : Option Port) :
    (queueReturn s pea l owner).side = s.side ∧ (queueReturn s pea l owner).store = s.store ∧
    (queueReturn s pea l owner).drives = s.drives ∧ (queueReturn s pea l owner).buffer = s.buffer ∧
    (queueReturn s pea l owner).streams = s.streams ∧ (queueReturn s pea l owner).engine = s.engine ∧
    (queueReturn s pea l owner).restores = s.restores ∧ (queueReturn s pea l owner).verifies = s.verifies ∧
    (queueReturn s pea l owner).ports = s.ports := by
  unfold queueReturn; dsimp only; split <;> simp
@[simp] theorem frame_leaveReleased (s : State) (b : Bay) :
    (leaveReleased s b).side = s.side ∧ (leaveReleased s b).store = s.store ∧ (leaveReleased s b).elements = s.elements ∧
    (leaveReleased s b).picker = s.picker ∧ (leaveReleased s b).drives = s.drives ∧ (leaveReleased s b).buffer = s.buffer ∧
    (leaveReleased s b).streams = s.streams ∧ (leaveReleased s b).engine = s.engine ∧ (leaveReleased s b).restores = s.restores ∧
    (leaveReleased s b).verifies = s.verifies := by
  simp [leaveReleased]
@[simp] theorem frame_dropClaim (s : State) (b : Bay) :
    (dropClaim s b).side = s.side ∧ (dropClaim s b).store = s.store ∧ (dropClaim s b).elements = s.elements ∧
    (dropClaim s b).picker = s.picker ∧ (dropClaim s b).buffer = s.buffer ∧ (dropClaim s b).streams = s.streams ∧
    (dropClaim s b).engine = s.engine ∧ (dropClaim s b).restores = s.restores ∧ (dropClaim s b).verifies = s.verifies ∧
    (dropClaim s b).ports = s.ports := by
  simp [dropClaim]
@[simp] theorem frame_clearOwed (s : State) (b : Bay) :
    (clearOwed s b).side = s.side ∧ (clearOwed s b).store = s.store ∧ (clearOwed s b).elements = s.elements ∧
    (clearOwed s b).drives = s.drives ∧ (clearOwed s b).buffer = s.buffer ∧ (clearOwed s b).streams = s.streams ∧
    (clearOwed s b).engine = s.engine ∧ (clearOwed s b).restores = s.restores ∧ (clearOwed s b).verifies = s.verifies ∧
    (clearOwed s b).ports = s.ports := by
  simp [clearOwed]
@[simp] theorem frame_removeEntry (s : State) (num : Nat) :
    (removeEntry s num).side = s.side ∧ (removeEntry s num).store = s.store ∧ (removeEntry s num).drives = s.drives ∧
    (removeEntry s num).buffer = s.buffer ∧ (removeEntry s num).streams = s.streams ∧ (removeEntry s num).engine = s.engine ∧
    (removeEntry s num).restores = s.restores ∧ (removeEntry s num).verifies = s.verifies ∧ (removeEntry s num).ports = s.ports := by
  simp [removeEntry]
@[simp] theorem frame_settleClaims (s : State) (e : MoveEntry) (code : ReplyCode) :
    (settleClaims s e code).side = s.side ∧ (settleClaims s e code).store = s.store ∧
    (settleClaims s e code).elements = s.elements ∧ (settleClaims s e code).buffer = s.buffer ∧
    (settleClaims s e code).streams = s.streams ∧ (settleClaims s e code).engine = s.engine ∧
    (settleClaims s e code).restores = s.restores ∧ (settleClaims s e code).verifies = s.verifies := by
  unfold settleClaims; (repeat' split) <;> simp
@[simp] theorem frame_moveReply (s : State) (e : MoveEntry) (code : ReplyCode) :
    (moveReply s e code).side = s.side ∧ (moveReply s e code).store = s.store ∧ (moveReply s e code).elements = s.elements ∧
    (moveReply s e code).picker = s.picker ∧ (moveReply s e code).drives = s.drives ∧ (moveReply s e code).buffer = s.buffer ∧
    (moveReply s e code).streams = s.streams ∧ (moveReply s e code).engine = s.engine ∧
    (moveReply s e code).restores = s.restores ∧ (moveReply s e code).verifies = s.verifies := by
  unfold moveReply; split <;> simp
@[simp] theorem frame_completeMove (s : State) (e : MoveEntry) (code : ReplyCode) :
    (completeMove s e code).side = s.side ∧ (completeMove s e code).store = s.store ∧ (completeMove s e code).buffer = s.buffer ∧
    (completeMove s e code).streams = s.streams ∧ (completeMove s e code).engine = s.engine ∧
    (completeMove s e code).restores = s.restores ∧ (completeMove s e code).verifies = s.verifies := by
  simp [completeMove]
@[simp] theorem frame_withdrawEntry (s : State) (e : MoveEntry) :
    (withdrawEntry s e).side = s.side ∧ (withdrawEntry s e).store = s.store ∧ (withdrawEntry s e).buffer = s.buffer ∧
    (withdrawEntry s e).streams = s.streams ∧ (withdrawEntry s e).engine = s.engine ∧ (withdrawEntry s e).restores = s.restores ∧
    (withdrawEntry s e).verifies = s.verifies ∧ (withdrawEntry s e).ports = s.ports := by
  unfold withdrawEntry; (repeat' split) <;> simp
@[simp] theorem frame_portMovesLoss (s : State) (p : Port) :
    (portMovesLoss s p).side = s.side ∧ (portMovesLoss s p).store = s.store ∧ (portMovesLoss s p).buffer = s.buffer ∧
    (portMovesLoss s p).streams = s.streams ∧ (portMovesLoss s p).engine = s.engine ∧ (portMovesLoss s p).restores = s.restores ∧
    (portMovesLoss s p).verifies = s.verifies ∧ (portMovesLoss s p).ports = s.ports := by
  simp [portMovesLoss]
@[simp] theorem frame_markPending (s : State) (pea : Nat) :
    (markPending s pea).side = s.side ∧ (markPending s pea).store = s.store ∧ (markPending s pea).elements = s.elements ∧
    (markPending s pea).drives = s.drives ∧ (markPending s pea).buffer = s.buffer ∧ (markPending s pea).streams = s.streams ∧
    (markPending s pea).engine = s.engine ∧ (markPending s pea).restores = s.restores ∧
    (markPending s pea).verifies = s.verifies ∧ (markPending s pea).ports = s.ports := by
  simp [markPending]
@[simp] theorem frame_setLocation (s : State) (l : Label) (pea : Nat) :
    (setLocation s l pea).side = s.side ∧ (setLocation s l pea).elements = s.elements ∧ (setLocation s l pea).picker = s.picker ∧
    (setLocation s l pea).drives = s.drives ∧ (setLocation s l pea).buffer = s.buffer ∧
    (setLocation s l pea).streams = s.streams ∧ (setLocation s l pea).engine = s.engine ∧
    (setLocation s l pea).restores = s.restores ∧ (setLocation s l pea).verifies = s.verifies ∧
    (setLocation s l pea).ports = s.ports := by
  simp [setLocation]
@[simp] theorem frame_vacate (s : State) (old : Location) (pea : Nat) :
    (vacate s old pea).side = s.side ∧ (vacate s old pea).store = s.store ∧ (vacate s old pea).drives = s.drives ∧
    (vacate s old pea).buffer = s.buffer ∧ (vacate s old pea).streams = s.streams ∧ (vacate s old pea).engine = s.engine ∧
    (vacate s old pea).restores = s.restores ∧ (vacate s old pea).verifies = s.verifies ∧ (vacate s old pea).ports = s.ports := by
  unfold vacate; split <;> simp
@[simp] theorem frame_reconcile (s : State) (pea : Nat) (read : Option Label) (readDone : List Nat) :
    (reconcile s pea read readDone).side = s.side ∧ (reconcile s pea read readDone).drives = s.drives ∧
    (reconcile s pea read readDone).buffer = s.buffer ∧ (reconcile s pea read readDone).streams = s.streams ∧
    (reconcile s pea read readDone).engine = s.engine ∧ (reconcile s pea read readDone).restores = s.restores ∧
    (reconcile s pea read readDone).verifies = s.verifies ∧ (reconcile s pea read readDone).ports = s.ports := by
  unfold reconcile; dsimp only; (repeat' split) <;> simp
@[simp] theorem frame_bayUnknown (s : State) (b : Bay) :
    (bayUnknown s b).side = s.side ∧ (bayUnknown s b).picker = s.picker ∧ (bayUnknown s b).drives = s.drives ∧
    (bayUnknown s b).buffer = s.buffer ∧ (bayUnknown s b).streams = s.streams ∧ (bayUnknown s b).engine = s.engine ∧
    (bayUnknown s b).restores = s.restores ∧ (bayUnknown s b).verifies = s.verifies ∧ (bayUnknown s b).ports = s.ports := by
  simp [bayUnknown]
@[simp] theorem frame_issueMotion (s : State) (m : Motion) (st : PickerState) :
    (issueMotion s m st).side = s.side ∧ (issueMotion s m st).store = s.store ∧ (issueMotion s m st).elements = s.elements ∧
    (issueMotion s m st).drives = s.drives ∧ (issueMotion s m st).buffer = s.buffer ∧ (issueMotion s m st).streams = s.streams ∧
    (issueMotion s m st).engine = s.engine ∧ (issueMotion s m st).restores = s.restores ∧
    (issueMotion s m st).verifies = s.verifies ∧ (issueMotion s m st).ports = s.ports := by
  simp [issueMotion]
@[simp] theorem frame_motionReported (s : State) :
    (motionReported s).side = s.side ∧ (motionReported s).store = s.store ∧ (motionReported s).elements = s.elements ∧
    (motionReported s).drives = s.drives ∧ (motionReported s).buffer = s.buffer ∧ (motionReported s).streams = s.streams ∧
    (motionReported s).engine = s.engine ∧ (motionReported s).restores = s.restores ∧ (motionReported s).verifies = s.verifies ∧
    (motionReported s).ports = s.ports := by
  simp [motionReported]
@[simp] theorem frame_answerAll (s : State) (kind : ReqKind) (code : ReplyCode) (ws : List (Port × Byte)) :
    (answerAll s kind code ws).side = s.side ∧ (answerAll s kind code ws).store = s.store ∧
    (answerAll s kind code ws).elements = s.elements ∧ (answerAll s kind code ws).picker = s.picker ∧
    (answerAll s kind code ws).drives = s.drives ∧ (answerAll s kind code ws).buffer = s.buffer ∧
    (answerAll s kind code ws).streams = s.streams ∧ (answerAll s kind code ws).engine = s.engine ∧
    (answerAll s kind code ws).restores = s.restores ∧ (answerAll s kind code ws).verifies = s.verifies := by
  simp [answerAll]
@[simp] theorem frame_oweImport (s : State) :
    (oweImport s).side = s.side ∧ (oweImport s).store = s.store ∧ (oweImport s).elements = s.elements ∧
    (oweImport s).drives = s.drives ∧ (oweImport s).buffer = s.buffer ∧ (oweImport s).streams = s.streams ∧
    (oweImport s).engine = s.engine ∧ (oweImport s).restores = s.restores ∧ (oweImport s).verifies = s.verifies ∧
    (oweImport s).ports = s.ports := by
  unfold oweImport; split <;> simp
@[simp] theorem frame_importNotice (s : State) (a : AuditRun) :
    (importNotice s a).side = s.side ∧ (importNotice s a).store = s.store ∧ (importNotice s a).elements = s.elements ∧
    (importNotice s a).picker = s.picker ∧ (importNotice s a).drives = s.drives ∧ (importNotice s a).buffer = s.buffer ∧
    (importNotice s a).streams = s.streams ∧ (importNotice s a).engine = s.engine ∧ (importNotice s a).restores = s.restores ∧
    (importNotice s a).verifies = s.verifies := by
  simp [importNotice]
@[simp] theorem frame_completeFull (s : State) (a : AuditRun) :
    (completeFull s a).side = s.side ∧ (completeFull s a).store = s.store ∧ (completeFull s a).drives = s.drives ∧
    (completeFull s a).buffer = s.buffer ∧ (completeFull s a).streams = s.streams ∧ (completeFull s a).engine = s.engine ∧
    (completeFull s a).restores = s.restores ∧ (completeFull s a).verifies = s.verifies := by
  simp [completeFull]
@[simp] theorem frame_completeMail (s : State) (a : AuditRun) :
    (completeMail s a).side = s.side ∧ (completeMail s a).store = s.store ∧ (completeMail s a).drives = s.drives ∧
    (completeMail s a).buffer = s.buffer ∧ (completeMail s a).streams = s.streams ∧ (completeMail s a).engine = s.engine ∧
    (completeMail s a).restores = s.restores ∧ (completeMail s a).verifies = s.verifies := by
  simp [completeMail]
@[simp] theorem frame_issueQuery (s : State) (b : Bay) :
    (issueQuery s b).side = s.side ∧ (issueQuery s b).store = s.store ∧ (issueQuery s b).elements = s.elements ∧
    (issueQuery s b).picker = s.picker ∧ (issueQuery s b).buffer = s.buffer ∧ (issueQuery s b).streams = s.streams ∧
    (issueQuery s b).engine = s.engine ∧ (issueQuery s b).restores = s.restores ∧ (issueQuery s b).verifies = s.verifies ∧
    (issueQuery s b).ports = s.ports := by
  simp [issueQuery]
@[simp] theorem frame_askBays (a : AuditRun) (bs : List Bay) (s : State) :
    (askBays a bs s).side = s.side ∧ (askBays a bs s).buffer = s.buffer ∧ (askBays a bs s).streams = s.streams ∧
    (askBays a bs s).engine = s.engine ∧ (askBays a bs s).restores = s.restores ∧ (askBays a bs s).verifies = s.verifies := by
  induction bs generalizing s with
  | nil => simp [askBays]
  | cons b bs ih =>
    simp only [askBays]
    split <;> simp [ih]
@[simp] theorem frame_auditNext (s : State) :
    (auditNext s).side = s.side ∧ (auditNext s).buffer = s.buffer ∧ (auditNext s).streams = s.streams ∧
    (auditNext s).engine = s.engine ∧ (auditNext s).restores = s.restores ∧ (auditNext s).verifies = s.verifies := by
  unfold auditNext; (repeat' split) <;> simp
@[simp] theorem frame_startFullAudit (s : State) :
    (startFullAudit s).side = s.side ∧ (startFullAudit s).buffer = s.buffer ∧ (startFullAudit s).streams = s.streams ∧
    (startFullAudit s).engine = s.engine ∧ (startFullAudit s).restores = s.restores ∧ (startFullAudit s).verifies = s.verifies := by
  simp [startFullAudit]
@[simp] theorem frame_startMailAudit (s : State) :
    (startMailAudit s).side = s.side ∧ (startMailAudit s).buffer = s.buffer ∧ (startMailAudit s).streams = s.streams ∧
    (startMailAudit s).engine = s.engine ∧ (startMailAudit s).restores = s.restores ∧ (startMailAudit s).verifies = s.verifies := by
  simp [startMailAudit]
@[simp] theorem frame_takeReading (s : State) (a : AuditRun) (pea : Nat) (r : Reading) :
    (takeReading s a pea r).side = s.side ∧ (takeReading s a pea r).drives = s.drives ∧
    (takeReading s a pea r).buffer = s.buffer ∧ (takeReading s a pea r).streams = s.streams ∧
    (takeReading s a pea r).engine = s.engine ∧ (takeReading s a pea r).restores = s.restores ∧
    (takeReading s a pea r).verifies = s.verifies ∧ (takeReading s a pea r).ports = s.ports := by
  unfold takeReading; split <;> simp
@[simp] theorem frame_bayAnswered (s : State) (b : Bay) :
    (bayAnswered s b).side = s.side ∧ (bayAnswered s b).buffer = s.buffer ∧ (bayAnswered s b).streams = s.streams ∧
    (bayAnswered s b).engine = s.engine ∧ (bayAnswered s b).restores = s.restores ∧ (bayAnswered s b).verifies = s.verifies := by
  unfold bayAnswered; split <;> simp
@[simp] theorem frame_setPhase (s : State) (num : Nat) (ph : Phase) :
    (setPhase s num ph).side = s.side ∧ (setPhase s num ph).store = s.store ∧ (setPhase s num ph).elements = s.elements ∧
    (setPhase s num ph).drives = s.drives ∧ (setPhase s num ph).buffer = s.buffer ∧ (setPhase s num ph).streams = s.streams ∧
    (setPhase s num ph).engine = s.engine ∧ (setPhase s num ph).restores = s.restores ∧
    (setPhase s num ph).verifies = s.verifies ∧ (setPhase s num ph).ports = s.ports := by
  simp [setPhase]
@[simp] theorem frame_issueOrHold (s : State) (m : Motion) :
    (issueOrHold s m).side = s.side ∧ (issueOrHold s m).store = s.store ∧ (issueOrHold s m).elements = s.elements ∧
    (issueOrHold s m).drives = s.drives ∧ (issueOrHold s m).buffer = s.buffer ∧ (issueOrHold s m).streams = s.streams ∧
    (issueOrHold s m).engine = s.engine ∧ (issueOrHold s m).restores = s.restores ∧ (issueOrHold s m).verifies = s.verifies ∧
    (issueOrHold s m).ports = s.ports := by
  simp [issueOrHold]
@[simp] theorem frame_freePicker (s : State) :
    (freePicker s).side = s.side ∧ (freePicker s).buffer = s.buffer ∧ (freePicker s).streams = s.streams ∧
    (freePicker s).engine = s.engine ∧ (freePicker s).restores = s.restores ∧ (freePicker s).verifies = s.verifies := by
  simp [freePicker]
@[simp] theorem frame_startCarry (s : State) (e : MoveEntry) :
    (startCarry s e).side = s.side ∧ (startCarry s e).store = s.store ∧ (startCarry s e).elements = s.elements ∧
    (startCarry s e).drives = s.drives ∧ (startCarry s e).buffer = s.buffer ∧ (startCarry s e).streams = s.streams ∧
    (startCarry s e).engine = s.engine ∧ (startCarry s e).restores = s.restores ∧ (startCarry s e).verifies = s.verifies ∧
    (startCarry s e).ports = s.ports := by
  simp [startCarry]
@[simp] theorem frame_startPlace (s : State) (e : MoveEntry) :
    (startPlace s e).side = s.side ∧ (startPlace s e).store = s.store ∧ (startPlace s e).elements = s.elements ∧
    (startPlace s e).drives = s.drives ∧ (startPlace s e).buffer = s.buffer ∧ (startPlace s e).streams = s.streams ∧
    (startPlace s e).engine = s.engine ∧ (startPlace s e).restores = s.restores ∧ (startPlace s e).verifies = s.verifies ∧
    (startPlace s e).ports = s.ports := by
  simp [startPlace]
@[simp] theorem frame_startFetch (s : State) (e : MoveEntry) (pea : Nat) :
    (startFetch s e pea).side = s.side ∧ (startFetch s e pea).store = s.store ∧ (startFetch s e pea).elements = s.elements ∧
    (startFetch s e pea).drives = s.drives ∧ (startFetch s e pea).buffer = s.buffer ∧ (startFetch s e pea).streams = s.streams ∧
    (startFetch s e pea).engine = s.engine ∧ (startFetch s e pea).restores = s.restores ∧
    (startFetch s e pea).verifies = s.verifies ∧ (startFetch s e pea).ports = s.ports := by
  simp [startFetch]
@[simp] theorem frame_stopAudit (s : State) :
    (stopAudit s).side = s.side ∧ (stopAudit s).store = s.store ∧ (stopAudit s).elements = s.elements ∧
    (stopAudit s).drives = s.drives ∧ (stopAudit s).buffer = s.buffer ∧ (stopAudit s).streams = s.streams ∧
    (stopAudit s).engine = s.engine ∧ (stopAudit s).restores = s.restores ∧ (stopAudit s).verifies = s.verifies := by
  unfold stopAudit; split <;> simp
@[simp] theorem frame_faultPicker (s : State) (r : Option Recovery) :
    (faultPicker s r).side = s.side ∧ (faultPicker s r).store = s.store ∧ (faultPicker s r).elements = s.elements ∧
    (faultPicker s r).drives = s.drives ∧ (faultPicker s r).buffer = s.buffer ∧ (faultPicker s r).streams = s.streams ∧
    (faultPicker s r).engine = s.engine ∧ (faultPicker s r).restores = s.restores ∧ (faultPicker s r).verifies = s.verifies := by
  simp [faultPicker]
@[simp] theorem frame_firstFault (s : State) :
    (firstFault s).side = s.side ∧ (firstFault s).store = s.store ∧ (firstFault s).buffer = s.buffer ∧
    (firstFault s).streams = s.streams ∧ (firstFault s).engine = s.engine ∧ (firstFault s).restores = s.restores ∧
    (firstFault s).verifies = s.verifies := by
  unfold firstFault; split <;> simp
@[simp] theorem frame_clearOwedMarks (s : State) :
    (clearOwedMarks s).side = s.side ∧ (clearOwedMarks s).store = s.store ∧ (clearOwedMarks s).elements = s.elements ∧
    (clearOwedMarks s).drives = s.drives ∧ (clearOwedMarks s).buffer = s.buffer ∧ (clearOwedMarks s).streams = s.streams ∧
    (clearOwedMarks s).engine = s.engine ∧ (clearOwedMarks s).restores = s.restores ∧ (clearOwedMarks s).verifies = s.verifies := by
  simp [clearOwedMarks]
@[simp] theorem frame_disablePicker (s : State) :
    (disablePicker s).side = s.side ∧ (disablePicker s).store = s.store ∧ (disablePicker s).buffer = s.buffer ∧
    (disablePicker s).streams = s.streams ∧ (disablePicker s).engine = s.engine ∧ (disablePicker s).restores = s.restores ∧
    (disablePicker s).verifies = s.verifies := by
  simp [disablePicker]
@[simp] theorem frame_recoveryDone (s : State) (e : MoveEntry) :
    (recoveryDone s e).side = s.side ∧ (recoveryDone s e).store = s.store ∧ (recoveryDone s e).drives = s.drives ∧
    (recoveryDone s e).buffer = s.buffer ∧ (recoveryDone s e).streams = s.streams ∧ (recoveryDone s e).engine = s.engine ∧
    (recoveryDone s e).restores = s.restores ∧ (recoveryDone s e).verifies = s.verifies ∧ (recoveryDone s e).ports = s.ports := by
  simp [recoveryDone]
@[simp] theorem frame_recoveryObstructed (s : State) (e : MoveEntry) (pea : Nat) :
    (recoveryObstructed s e pea).side = s.side ∧ (recoveryObstructed s e pea).buffer = s.buffer ∧
    (recoveryObstructed s e pea).streams = s.streams ∧ (recoveryObstructed s e pea).engine = s.engine ∧
    (recoveryObstructed s e pea).restores = s.restores ∧ (recoveryObstructed s e pea).verifies = s.verifies := by
  unfold recoveryObstructed; dsimp only; split <;> simp
@[simp] theorem frame_fetchReported (s : State) (e : MoveEntry) (pea : Nat) (gripped : Bool) (read : Option Label) :
    (fetchReported s e pea gripped read).side = s.side ∧ (fetchReported s e pea gripped read).buffer = s.buffer ∧
    (fetchReported s e pea gripped read).streams = s.streams ∧ (fetchReported s e pea gripped read).engine = s.engine ∧
    (fetchReported s e pea gripped read).restores = s.restores ∧ (fetchReported s e pea gripped read).verifies = s.verifies := by
  simp [fetchReported]
@[simp] theorem frame_freeClaim (s : State) (pea : Nat) :
    (freeClaim s pea).side = s.side ∧ (freeClaim s pea).store = s.store ∧ (freeClaim s pea).picker = s.picker ∧
    (freeClaim s pea).drives = s.drives ∧ (freeClaim s pea).buffer = s.buffer ∧ (freeClaim s pea).streams = s.streams ∧
    (freeClaim s pea).engine = s.engine ∧ (freeClaim s pea).restores = s.restores ∧ (freeClaim s pea).verifies = s.verifies ∧
    (freeClaim s pea).ports = s.ports := by
  simp [freeClaim]
@[simp] theorem frame_putBackReported (s : State) (e : MoveEntry) (pea : Nat) (read : Option Label) :
    (putBackReported s e pea read).side = s.side ∧ (putBackReported s e pea read).buffer = s.buffer ∧
    (putBackReported s e pea read).streams = s.streams ∧ (putBackReported s e pea read).engine = s.engine ∧
    (putBackReported s e pea read).restores = s.restores ∧ (putBackReported s e pea read).verifies = s.verifies := by
  simp [putBackReported]
@[simp] theorem frame_startThread (s : State) (e : MoveEntry) (b : Bay) :
    (startThread s e b).side = s.side ∧ (startThread s e b).store = s.store ∧ (startThread s e b).elements = s.elements ∧
    (startThread s e b).buffer = s.buffer ∧ (startThread s e b).streams = s.streams ∧ (startThread s e b).engine = s.engine ∧
    (startThread s e b).restores = s.restores ∧ (startThread s e b).verifies = s.verifies ∧ (startThread s e b).ports = s.ports := by
  simp [startThread]
@[simp] theorem frame_placeBlocked (s : State) (e : MoveEntry) (pea : Nat) :
    (placeBlocked s e pea).side = s.side ∧ (placeBlocked s e pea).drives = s.drives ∧ (placeBlocked s e pea).buffer = s.buffer ∧
    (placeBlocked s e pea).streams = s.streams ∧ (placeBlocked s e pea).engine = s.engine ∧
    (placeBlocked s e pea).restores = s.restores ∧ (placeBlocked s e pea).verifies = s.verifies ∧
    (placeBlocked s e pea).ports = s.ports := by
  simp [placeBlocked]
@[simp] theorem frame_placeBlockedTwice (s : State) (e : MoveEntry) (pea : Nat) :
    (placeBlockedTwice s e pea).side = s.side ∧ (placeBlockedTwice s e pea).buffer = s.buffer ∧
    (placeBlockedTwice s e pea).streams = s.streams ∧ (placeBlockedTwice s e pea).engine = s.engine ∧
    (placeBlockedTwice s e pea).restores = s.restores ∧ (placeBlockedTwice s e pea).verifies = s.verifies := by
  simp [placeBlockedTwice]
@[simp] theorem frame_placeReported (s : State) (e : MoveEntry) (pea : Nat) (obstructed : Bool) :
    (placeReported s e pea obstructed).side = s.side ∧ (placeReported s e pea obstructed).buffer = s.buffer ∧
    (placeReported s e pea obstructed).streams = s.streams ∧ (placeReported s e pea obstructed).engine = s.engine ∧
    (placeReported s e pea obstructed).restores = s.restores ∧ (placeReported s e pea obstructed).verifies = s.verifies := by
  unfold placeReported; (repeat' split) <;> simp
@[simp] theorem frame_resumeHeld (s : State) :
    (resumeHeld s).side = s.side ∧ (resumeHeld s).buffer = s.buffer ∧ (resumeHeld s).streams = s.streams ∧
    (resumeHeld s).engine = s.engine ∧ (resumeHeld s).restores = s.restores ∧ (resumeHeld s).verifies = s.verifies := by
  unfold resumeHeld; (repeat' split) <;> simp
@[simp] theorem frame_afterAudit (s : State) :
    (afterAudit s).side = s.side ∧ (afterAudit s).buffer = s.buffer ∧ (afterAudit s).streams = s.streams ∧
    (afterAudit s).engine = s.engine ∧ (afterAudit s).restores = s.restores ∧ (afterAudit s).verifies = s.verifies := by
  simp [afterAudit]
@[simp] theorem frame_setReplied (s : State) (e : MoveEntry) :
    (setReplied s e).side = s.side ∧ (setReplied s e).store = s.store ∧ (setReplied s e).elements = s.elements ∧
    (setReplied s e).drives = s.drives ∧ (setReplied s e).buffer = s.buffer ∧ (setReplied s e).streams = s.streams ∧
    (setReplied s e).engine = s.engine ∧ (setReplied s e).restores = s.restores ∧ (setReplied s e).verifies = s.verifies ∧
    (setReplied s e).ports = s.ports := by
  simp [setReplied]
@[simp] theorem frame_threadFailed (s : State) (b : Bay) :
    (threadFailed s b).side = s.side ∧ (threadFailed s b).store = s.store ∧ (threadFailed s b).elements = s.elements ∧
    (threadFailed s b).drives = s.drives ∧ (threadFailed s b).buffer = s.buffer ∧ (threadFailed s b).streams = s.streams ∧
    (threadFailed s b).engine = s.engine ∧ (threadFailed s b).restores = s.restores ∧ (threadFailed s b).verifies = s.verifies ∧
    (threadFailed s b).ports = s.ports := by
  unfold threadFailed; split <;> simp
@[simp] theorem frame_unloadEjected (s : State) (e : MoveEntry) :
    (unloadEjected s e).side = s.side ∧ (unloadEjected s e).store = s.store ∧ (unloadEjected s e).buffer = s.buffer ∧
    (unloadEjected s e).streams = s.streams ∧ (unloadEjected s e).engine = s.engine ∧ (unloadEjected s e).restores = s.restores ∧
    (unloadEjected s e).verifies = s.verifies := by
  unfold unloadEjected; (repeat' split) <;> simp
@[simp] theorem frame_moveDriveFault (s : State) (b : Bay) :
    (moveDriveFault s b).side = s.side ∧ (moveDriveFault s b).store = s.store ∧ (moveDriveFault s b).buffer = s.buffer ∧
    (moveDriveFault s b).streams = s.streams ∧ (moveDriveFault s b).engine = s.engine ∧
    (moveDriveFault s b).restores = s.restores ∧ (moveDriveFault s b).verifies = s.verifies := by
  unfold moveDriveFault; dsimp only; (repeat' split) <;> simp
@[simp] theorem frame_startUnload (s : State) (e : MoveEntry) (b : Bay) :
    (startUnload s e b).side = s.side ∧ (startUnload s e b).store = s.store ∧ (startUnload s e b).buffer = s.buffer ∧
    (startUnload s e b).streams = s.streams ∧ (startUnload s e b).engine = s.engine ∧ (startUnload s e b).restores = s.restores ∧
    (startUnload s e b).verifies = s.verifies := by
  simp [startUnload]
@[simp] theorem frame_startEntry (s : State) (e : MoveEntry) :
    (startEntry s e).side = s.side ∧ (startEntry s e).store = s.store ∧ (startEntry s e).buffer = s.buffer ∧
    (startEntry s e).streams = s.streams ∧ (startEntry s e).engine = s.engine ∧ (startEntry s e).restores = s.restores ∧
    (startEntry s e).verifies = s.verifies := by
  unfold startEntry; (repeat' split) <;> simp
@[simp] theorem frame_takeReplied (s : State) (e : MoveEntry) :
    (takeReplied s e).side = s.side ∧ (takeReplied s e).store = s.store ∧ (takeReplied s e).elements = s.elements ∧
    (takeReplied s e).drives = s.drives ∧ (takeReplied s e).buffer = s.buffer ∧ (takeReplied s e).streams = s.streams ∧
    (takeReplied s e).engine = s.engine ∧ (takeReplied s e).restores = s.restores ∧ (takeReplied s e).verifies = s.verifies ∧
    (takeReplied s e).ports = s.ports := by
  simp [takeReplied]
@[simp] theorem frame_nextWork (s : State) :
    (nextWork s).side = s.side ∧ (nextWork s).buffer = s.buffer ∧ (nextWork s).streams = s.streams ∧
    (nextWork s).engine = s.engine ∧ (nextWork s).restores = s.restores ∧ (nextWork s).verifies = s.verifies := by
  unfold nextWork; dsimp only; (repeat' split) <;> simp
@[simp] theorem frame_activityDown (s : State) (b : Bay) (a : Activity) :
    (activityDown s b a).side = s.side ∧ (activityDown s b a).elements = s.elements ∧ (activityDown s b a).picker = s.picker := by
  unfold activityDown; split <;> simp
@[simp] theorem frame_auditSilent (s : State) (b : Bay) :
    (auditSilent s b).side = s.side ∧ (auditSilent s b).buffer = s.buffer ∧ (auditSilent s b).streams = s.streams ∧
    (auditSilent s b).engine = s.engine ∧ (auditSilent s b).restores = s.restores ∧ (auditSilent s b).verifies = s.verifies := by
  simp [auditSilent]
@[simp] theorem frame_bayDown (s : State) (b : Bay) (st : DriveState) :
    (bayDown s b st).side = s.side := by
  simp [bayDown]
@[simp] theorem frame_orderBroken (s : State) (b : Bay) :
    (orderBroken s b).side = s.side := by
  simp [orderBroken]
@[simp] theorem frame_configDone (s : State) (q : ConfigRequest) :
    (configDone s q).side = s.side ∧ (configDone s q).store = s.store ∧ (configDone s q).elements = s.elements ∧
    (configDone s q).picker = s.picker ∧ (configDone s q).drives = s.drives ∧ (configDone s q).buffer = s.buffer ∧
    (configDone s q).streams = s.streams ∧ (configDone s q).engine = s.engine ∧ (configDone s q).restores = s.restores ∧
    (configDone s q).verifies = s.verifies := by
  simp [configDone]
@[simp] theorem frame_settleMisplaced (s : State) :
    (settleMisplaced s).side = s.side ∧ (settleMisplaced s).store = s.store ∧ (settleMisplaced s).picker = s.picker ∧
    (settleMisplaced s).drives = s.drives ∧ (settleMisplaced s).buffer = s.buffer ∧ (settleMisplaced s).streams = s.streams ∧
    (settleMisplaced s).engine = s.engine ∧ (settleMisplaced s).restores = s.restores ∧
    (settleMisplaced s).verifies = s.verifies ∧ (settleMisplaced s).ports = s.ports := by
  simp [settleMisplaced]
@[simp] theorem frame_linkUp (s : State) (p : Port) :
    (linkUp s p).side = s.side ∧ (linkUp s p).store = s.store ∧ (linkUp s p).elements = s.elements ∧
    (linkUp s p).picker = s.picker ∧ (linkUp s p).drives = s.drives ∧ (linkUp s p).streams = s.streams ∧
    (linkUp s p).engine = s.engine ∧ (linkUp s p).restores = s.restores ∧ (linkUp s p).verifies = s.verifies := by
  simp [linkUp]
@[simp] theorem frame_beginHold (s : State) (p : Port) :
    (beginHold s p).side = s.side ∧ (beginHold s p).store = s.store ∧ (beginHold s p).elements = s.elements ∧
    (beginHold s p).picker = s.picker ∧ (beginHold s p).drives = s.drives ∧ (beginHold s p).buffer = s.buffer ∧
    (beginHold s p).streams = s.streams ∧ (beginHold s p).engine = s.engine ∧ (beginHold s p).restores = s.restores ∧
    (beginHold s p).verifies = s.verifies := by
  simp [beginHold]
@[simp] theorem frame_holdExpired (s : State) (p : Port) :
    (holdExpired s p).side = s.side ∧ (holdExpired s p).store = s.store ∧ (holdExpired s p).elements = s.elements ∧
    (holdExpired s p).picker = s.picker ∧ (holdExpired s p).drives = s.drives ∧ (holdExpired s p).buffer = s.buffer ∧
    (holdExpired s p).streams = s.streams ∧ (holdExpired s p).engine = s.engine ∧ (holdExpired s p).restores = s.restores ∧
    (holdExpired s p).verifies = s.verifies := by
  simp [holdExpired]
@[simp] theorem frame_markIfOwed (s : State) (p : Port) (b : Bay) :
    (markIfOwed s p b).side = s.side ∧ (markIfOwed s p b).store = s.store ∧ (markIfOwed s p b).drives = s.drives ∧
    (markIfOwed s p b).buffer = s.buffer ∧ (markIfOwed s p b).streams = s.streams ∧ (markIfOwed s p b).engine = s.engine ∧
    (markIfOwed s p b).restores = s.restores ∧ (markIfOwed s p b).verifies = s.verifies ∧ (markIfOwed s p b).ports = s.ports := by
  simp [markIfOwed]
@[simp] theorem frame_holdExpiry (s : State) (p : Port) :
    (holdExpiry s p).side = s.side ∧ (holdExpiry s p).store = s.store ∧ (holdExpiry s p).drives = s.drives ∧
    (holdExpiry s p).buffer = s.buffer ∧ (holdExpiry s p).streams = s.streams ∧ (holdExpiry s p).engine = s.engine ∧
    (holdExpiry s p).restores = s.restores ∧ (holdExpiry s p).verifies = s.verifies := by
  simp [holdExpiry]
/-- Of the ports, the expiry of a claim hold changes the released-bay list, the timer and what it governs. -/
@[simp] theorem holdExpiry_ports (s : State) (p : Port) : (holdExpiry s p).ports = (holdExpired s p).ports := by
  simp [holdExpiry]
/-- R179: a timer that governs none of the port's claims ends, and nothing else: no bay is listed or marked, no UNLOAD queued. -/
theorem holdExpiry_governing_none (s : State) (p : Port) (h : ∀ b, holdGoverns s p b = false) :
    holdExpiry s p = s.modPort p fun c => { c with claimTimer := .stopped, holding := .all false } := by
  simp [holdExpiry, holdExpired, h]
@[simp] theorem frame_takeDrive (s : State) (p : Port) (b : Option Bay) :
    (takeDrive s p b).side = s.side ∧ (takeDrive s p b).store = s.store ∧ (takeDrive s p b).elements = s.elements ∧
    (takeDrive s p b).picker = s.picker ∧ (takeDrive s p b).buffer = s.buffer ∧ (takeDrive s p b).streams = s.streams ∧
    (takeDrive s p b).engine = s.engine ∧ (takeDrive s p b).restores = s.restores ∧ (takeDrive s p b).verifies = s.verifies ∧
    (takeDrive s p b).ports = s.ports := by
  unfold takeDrive; split <;> simp
@[simp] theorem frame_acceptRecover (s : State) (p : Port) (tag : Byte) (dest : Option Nat) :
    (acceptRecover s p tag dest).side = s.side ∧ (acceptRecover s p tag dest).store = s.store ∧
    (acceptRecover s p tag dest).drives = s.drives ∧ (acceptRecover s p tag dest).buffer = s.buffer ∧
    (acceptRecover s p tag dest).streams = s.streams ∧ (acceptRecover s p tag dest).engine = s.engine ∧
    (acceptRecover s p tag dest).restores = s.restores ∧ (acceptRecover s p tag dest).verifies = s.verifies ∧
    (acceptRecover s p tag dest).ports = s.ports := by
  simp [acceptRecover]
@[simp] theorem frame_nothingGripped (s : State) :
    (nothingGripped s).side = s.side ∧ (nothingGripped s).drives = s.drives ∧ (nothingGripped s).buffer = s.buffer ∧
    (nothingGripped s).streams = s.streams ∧ (nothingGripped s).engine = s.engine ∧ (nothingGripped s).restores = s.restores ∧
    (nothingGripped s).verifies = s.verifies ∧ (nothingGripped s).ports = s.ports := by
  simp [nothingGripped]
@[simp] theorem frame_settleReleased (s : State) (v : Volume) :
    (settleReleased s v).side = s.side ∧ (settleReleased s v).store = s.store ∧ (settleReleased s v).picker = s.picker ∧
    (settleReleased s v).drives = s.drives ∧ (settleReleased s v).buffer = s.buffer ∧ (settleReleased s v).streams = s.streams ∧
    (settleReleased s v).engine = s.engine ∧ (settleReleased s v).restores = s.restores ∧
    (settleReleased s v).verifies = s.verifies ∧ (settleReleased s v).ports = s.ports := by
  unfold settleReleased; split <;> simp
@[simp] theorem frame_beginRelease (s : State) (p : Port) (tag : Byte) (v : Volume) :
    (beginRelease s p tag v).strap = s.strap ∧ (beginRelease s p tag v).serviceOpen = s.serviceOpen ∧
    (beginRelease s p tag v).mailOpen = s.mailOpen ∧ (beginRelease s p tag v).storeWrite = s.storeWrite ∧
    (beginRelease s p tag v).configWaiting = s.configWaiting ∧ (beginRelease s p tag v).scratchPointer = s.scratchPointer ∧
    (beginRelease s p tag v).freeReads = s.freeReads ∧ (beginRelease s p tag v).pending = s.pending ∧
    (beginRelease s p tag v).picker = s.picker ∧ (beginRelease s p tag v).drives = s.drives ∧
    (beginRelease s p tag v).buffer = s.buffer ∧ (beginRelease s p tag v).streams = s.streams ∧
    (beginRelease s p tag v).engine = s.engine ∧ (beginRelease s p tag v).restores = s.restores ∧
    (beginRelease s p tag v).verifies = s.verifies ∧ (beginRelease s p tag v).ports = s.ports := by
  unfold beginRelease settleReleased
  dsimp only
  split <;> exact ⟨rfl, rfl, rfl, rfl, rfl, rfl, rfl, rfl, rfl, rfl, rfl, rfl, rfl, rfl, rfl, rfl⟩
/-- The end of a release's write changes nothing but its place in the store and the port's traffic. -/
theorem frame_releaseWritten (s : State) (r : ReleaseWrite) (rest : List ReleaseWrite) :
    { releaseWritten s r rest with releaseWrites := s.releaseWrites, ports := s.ports } = s := by
  unfold releaseWritten answerHeld
  split <;> rfl
@[simp] theorem frame_acceptOpen (s : State) (p : Port) (tag : Byte) (b : Bay) (v : Volume) (mode shrink : Byte) (n : Nat) :
    (acceptOpen s p tag b v mode shrink n).side = s.side ∧ (acceptOpen s p tag b v mode shrink n).elements = s.elements ∧
    (acceptOpen s p tag b v mode shrink n).picker = s.picker ∧ (acceptOpen s p tag b v mode shrink n).buffer = s.buffer ∧
    (acceptOpen s p tag b v mode shrink n).engine = s.engine := by
  simp [acceptOpen]
@[simp] theorem frame_haltWrite (s : State) (p : Port) (b : Bay) (kind : ReqKind) (stream : Byte) (code : ReplyCode) :
    (haltWrite s p b kind stream code).side = s.side ∧ (haltWrite s p b kind stream code).store = s.store ∧
    (haltWrite s p b kind stream code).elements = s.elements ∧ (haltWrite s p b kind stream code).picker = s.picker ∧
    (haltWrite s p b kind stream code).drives = s.drives ∧ (haltWrite s p b kind stream code).buffer = s.buffer ∧
    (haltWrite s p b kind stream code).engine = s.engine ∧ (haltWrite s p b kind stream code).restores = s.restores ∧
    (haltWrite s p b kind stream code).verifies = s.verifies := by
  simp [haltWrite]
@[simp] theorem frame_notOpenWrite (s : State) (p : Port) (b : Bay) (kind : ReqKind) (stream : Byte) :
    (notOpenWrite s p b kind stream).side = s.side ∧ (notOpenWrite s p b kind stream).store = s.store ∧
    (notOpenWrite s p b kind stream).elements = s.elements ∧ (notOpenWrite s p b kind stream).picker = s.picker ∧
    (notOpenWrite s p b kind stream).drives = s.drives ∧ (notOpenWrite s p b kind stream).restores = s.restores ∧
    (notOpenWrite s p b kind stream).verifies = s.verifies := by
  unfold notOpenWrite; dsimp only; split <;> simp
@[simp] theorem frame_joinRecord (s : State) (b : Bay) (kind : RecKind) (len : Nat) (st : RecState) (id : Nat) :
    (joinRecord s b kind len st id).side = s.side ∧ (joinRecord s b kind len st id).store = s.store ∧
    (joinRecord s b kind len st id).elements = s.elements ∧ (joinRecord s b kind len st id).picker = s.picker ∧
    (joinRecord s b kind len st id).drives = s.drives ∧ (joinRecord s b kind len st id).buffer = s.buffer ∧
    (joinRecord s b kind len st id).engine = s.engine ∧ (joinRecord s b kind len st id).restores = s.restores ∧
    (joinRecord s b kind len st id).verifies = s.verifies ∧ (joinRecord s b kind len st id).ports = s.ports := by
  simp [joinRecord]
@[simp] theorem frame_acceptRecord (s : State) (p : Port) (b : Bay) (kind : RecKind) (raw : List Byte) :
    (acceptRecord s p b kind raw).side = s.side ∧ (acceptRecord s p b kind raw).store = s.store ∧
    (acceptRecord s p b kind raw).elements = s.elements ∧ (acceptRecord s p b kind raw).picker = s.picker ∧
    (acceptRecord s p b kind raw).drives = s.drives ∧ (acceptRecord s p b kind raw).restores = s.restores ∧
    (acceptRecord s p b kind raw).verifies = s.verifies := by
  simp [acceptRecord]
@[simp] theorem frame_acceptMark (s : State) (p : Port) (b : Bay) :
    (acceptMark s p b).side = s.side ∧ (acceptMark s p b).store = s.store ∧ (acceptMark s p b).elements = s.elements ∧
    (acceptMark s p b).picker = s.picker ∧ (acceptMark s p b).restores = s.restores ∧ (acceptMark s p b).verifies = s.verifies := by
  simp [acceptMark]
@[simp] theorem frame_drainStream (s : State) (b : Bay) (q : Closing) :
    (drainStream s b q).side = s.side ∧ (drainStream s b q).store = s.store ∧ (drainStream s b q).elements = s.elements ∧
    (drainStream s b q).picker = s.picker ∧ (drainStream s b q).drives = s.drives ∧ (drainStream s b q).buffer = s.buffer ∧
    (drainStream s b q).engine = s.engine ∧ (drainStream s b q).restores = s.restores ∧
    (drainStream s b q).verifies = s.verifies ∧ (drainStream s b q).ports = s.ports := by
  simp [drainStream]
@[simp] theorem frame_acceptRead (s : State) (p : Port) (tag : Byte) (b : Bay) (v : Volume) (a : Address) (stop : Bool) (count target : Nat) :
    (acceptRead s p tag b v a stop count target).side = s.side ∧ (acceptRead s p tag b v a stop count target).store = s.store ∧
    (acceptRead s p tag b v a stop count target).elements = s.elements ∧
    (acceptRead s p tag b v a stop count target).picker = s.picker ∧
    (acceptRead s p tag b v a stop count target).streams = s.streams := by
  simp [acceptRead]
@[simp] theorem frame_decideRead (s : State) (p : Port) (tag : Byte) (b : Bay) (form stop : Byte) (count : Nat) (first k e : Word) :
    (decideRead s p tag b form stop count first k e).side = s.side ∧
    (decideRead s p tag b form stop count first k e).store = s.store ∧
    (decideRead s p tag b form stop count first k e).elements = s.elements ∧
    (decideRead s p tag b form stop count first k e).picker = s.picker ∧
    (decideRead s p tag b form stop count first k e).streams = s.streams := by
  unfold decideRead; (repeat' split) <;> simp
@[simp] theorem frame_acceptVerify (s : State) (p : Port) (tag : Byte) (b : Bay) (v : Volume) (f : VerifyForm) :
    (acceptVerify s p tag b v f).side = s.side ∧ (acceptVerify s p tag b v f).store = s.store ∧
    (acceptVerify s p tag b v f).elements = s.elements ∧ (acceptVerify s p tag b v f).picker = s.picker ∧
    (acceptVerify s p tag b v f).streams = s.streams ∧ (acceptVerify s p tag b v f).engine = s.engine := by
  simp [acceptVerify]
@[simp] theorem frame_decideVerify (s : State) (p : Port) (tag : Byte) (b : Bay) (form : Byte) (a n : Word) :
    (decideVerify s p tag b form a n).side = s.side ∧ (decideVerify s p tag b form a n).store = s.store ∧
    (decideVerify s p tag b form a n).elements = s.elements ∧ (decideVerify s p tag b form a n).picker = s.picker ∧
    (decideVerify s p tag b form a n).streams = s.streams ∧ (decideVerify s p tag b form a n).engine = s.engine := by
  unfold decideVerify; (repeat' split) <;> simp
@[simp] theorem frame_abortStream (s : State) (p : Port) (tag : Byte) (b : Bay) :
    (abortStream s p tag b).side = s.side ∧ (abortStream s p tag b).store = s.store ∧
    (abortStream s p tag b).elements = s.elements ∧ (abortStream s p tag b).picker = s.picker ∧
    (abortStream s p tag b).restores = s.restores ∧ (abortStream s p tag b).verifies = s.verifies := by
  unfold abortStream; split <;> simp
@[simp] theorem frame_abortBay (s : State) (p : Port) (tag : Byte) (b : Bay) :
    (abortBay s p tag b).side = s.side ∧ (abortBay s p tag b).store = s.store ∧ (abortBay s p tag b).elements = s.elements ∧
    (abortBay s p tag b).picker = s.picker := by
  simp [abortBay]
@[simp] theorem frame_homed (s : State) :
    (homed s).side = s.side ∧ (homed s).buffer = s.buffer ∧ (homed s).streams = s.streams ∧ (homed s).engine = s.engine ∧
    (homed s).restores = s.restores ∧ (homed s).verifies = s.verifies := by
  unfold homed; split <;> simp
@[simp] theorem frame_mapPhases (s : State) (f : Phase → Phase) :
    (mapPhases s f).side = s.side ∧ (mapPhases s f).store = s.store ∧ (mapPhases s f).elements = s.elements ∧
    (mapPhases s f).drives = s.drives ∧ (mapPhases s f).buffer = s.buffer ∧ (mapPhases s f).streams = s.streams ∧
    (mapPhases s f).engine = s.engine ∧ (mapPhases s f).restores = s.restores ∧ (mapPhases s f).verifies = s.verifies ∧
    (mapPhases s f).ports = s.ports := by
  simp [mapPhases]
@[simp] theorem frame_stopPicker (s : State) :
    (stopPicker s).side = s.side ∧ (stopPicker s).store = s.store ∧ (stopPicker s).elements = s.elements ∧
    (stopPicker s).drives = s.drives ∧ (stopPicker s).buffer = s.buffer ∧ (stopPicker s).streams = s.streams ∧
    (stopPicker s).engine = s.engine ∧ (stopPicker s).restores = s.restores ∧ (stopPicker s).verifies = s.verifies := by
  simp [stopPicker]
@[simp] theorem frame_resumeMotion (s : State) :
    (resumeMotion s).side = s.side ∧ (resumeMotion s).store = s.store ∧ (resumeMotion s).elements = s.elements ∧
    (resumeMotion s).drives = s.drives ∧ (resumeMotion s).buffer = s.buffer ∧ (resumeMotion s).streams = s.streams ∧
    (resumeMotion s).engine = s.engine ∧ (resumeMotion s).restores = s.restores ∧ (resumeMotion s).verifies = s.verifies ∧
    (resumeMotion s).ports = s.ports := by
  simp [resumeMotion]
@[simp] theorem frame_resumeMove (s : State) :
    (resumeMove s).side = s.side ∧ (resumeMove s).buffer = s.buffer ∧ (resumeMove s).streams = s.streams ∧
    (resumeMove s).engine = s.engine ∧ (resumeMove s).restores = s.restores ∧ (resumeMove s).verifies = s.verifies := by
  simp [resumeMove]
@[simp] theorem frame_restartPicker (s : State) :
    (restartPicker s).side = s.side ∧ (restartPicker s).buffer = s.buffer ∧ (restartPicker s).streams = s.streams ∧
    (restartPicker s).engine = s.engine ∧ (restartPicker s).restores = s.restores ∧ (restartPicker s).verifies = s.verifies := by
  unfold restartPicker; (repeat' split) <;> simp
@[simp] theorem frame_mailUnknown (s : State) (pea : Nat) :
    (mailUnknown s pea).side = s.side ∧ (mailUnknown s pea).picker = s.picker ∧ (mailUnknown s pea).drives = s.drives ∧
    (mailUnknown s pea).buffer = s.buffer ∧ (mailUnknown s pea).streams = s.streams ∧ (mailUnknown s pea).engine = s.engine ∧
    (mailUnknown s pea).restores = s.restores ∧ (mailUnknown s pea).verifies = s.verifies ∧ (mailUnknown s pea).ports = s.ports := by
  simp [mailUnknown]
@[simp] theorem frame_threadedGood (s : State) (b : Bay) (cls : Nat) (wp : Bool) :
    (threadedGood s b cls wp).side = s.side ∧ (threadedGood s b cls wp).buffer = s.buffer ∧
    (threadedGood s b cls wp).streams = s.streams ∧ (threadedGood s b cls wp).engine = s.engine ∧
    (threadedGood s b cls wp).restores = s.restores ∧ (threadedGood s b cls wp).verifies = s.verifies := by
  unfold threadedGood; dsimp only; split <;> simp
@[simp] theorem frame_threadedBad (s : State) (b : Bay) :
    (threadedBad s b).side = s.side ∧ (threadedBad s b).store = s.store ∧ (threadedBad s b).elements = s.elements ∧
    (threadedBad s b).picker = s.picker ∧ (threadedBad s b).buffer = s.buffer ∧ (threadedBad s b).streams = s.streams ∧
    (threadedBad s b).engine = s.engine ∧ (threadedBad s b).restores = s.restores ∧ (threadedBad s b).verifies = s.verifies ∧
    (threadedBad s b).ports = s.ports := by
  simp [threadedBad]
@[simp] theorem frame_loadFailed (s : State) (b : Bay) (f : Drive → Drive) :
    (loadFailed s b f).side = s.side ∧ (loadFailed s b f).elements = s.elements ∧ (loadFailed s b f).buffer = s.buffer ∧
    (loadFailed s b f).streams = s.streams ∧ (loadFailed s b f).engine = s.engine ∧ (loadFailed s b f).restores = s.restores ∧
    (loadFailed s b f).verifies = s.verifies ∧ (loadFailed s b f).ports = s.ports := by
  simp [loadFailed]
@[simp] theorem frame_unloadDone (s : State) (b : Bay) :
    (unloadDone s b).side = s.side ∧ (unloadDone s b).store = s.store ∧ (unloadDone s b).buffer = s.buffer ∧
    (unloadDone s b).streams = s.streams ∧ (unloadDone s b).engine = s.engine ∧ (unloadDone s b).restores = s.restores ∧
    (unloadDone s b).verifies = s.verifies := by
  unfold unloadDone; dsimp only; split <;> simp
@[simp] theorem frame_owedAtStart (s : State) (b : Bay) :
    (owedAtStart s b).side = s.side ∧ (owedAtStart s b).store = s.store ∧ (owedAtStart s b).drives = s.drives ∧
    (owedAtStart s b).buffer = s.buffer ∧ (owedAtStart s b).streams = s.streams ∧ (owedAtStart s b).engine = s.engine ∧
    (owedAtStart s b).restores = s.restores ∧ (owedAtStart s b).verifies = s.verifies ∧ (owedAtStart s b).ports = s.ports := by
  simp [owedAtStart]
@[simp] theorem frame_statusPresent (s : State) (b : Bay) (l : Option Label) (threaded : Bool) (cls : Nat) (wp : Bool) :
    (statusPresent s b l threaded cls wp).side = s.side ∧ (statusPresent s b l threaded cls wp).buffer = s.buffer ∧
    (statusPresent s b l threaded cls wp).streams = s.streams ∧ (statusPresent s b l threaded cls wp).engine = s.engine ∧
    (statusPresent s b l threaded cls wp).restores = s.restores ∧ (statusPresent s b l threaded cls wp).verifies = s.verifies ∧
    (statusPresent s b l threaded cls wp).ports = s.ports := by
  simp [statusPresent]
@[simp] theorem frame_statusAbsent (s : State) (b : Bay) :
    (statusAbsent s b).side = s.side ∧ (statusAbsent s b).picker = s.picker ∧ (statusAbsent s b).buffer = s.buffer ∧
    (statusAbsent s b).streams = s.streams ∧ (statusAbsent s b).engine = s.engine ∧ (statusAbsent s b).restores = s.restores ∧
    (statusAbsent s b).verifies = s.verifies ∧ (statusAbsent s b).ports = s.ports := by
  simp [statusAbsent]
@[simp] theorem frame_positionReported (s : State) (b : Bay) (frame : Nat) :
    (positionReported s b frame).side = s.side ∧ (positionReported s b frame).elements = s.elements ∧
    (positionReported s b frame).picker = s.picker := by
  simp [positionReported]
@[simp] theorem frame_locateBlank (s : State) (b : Bay) (a : Nat) :
    (locateBlank s b a).side = s.side ∧ (locateBlank s b a).store = s.store ∧ (locateBlank s b a).elements = s.elements ∧
    (locateBlank s b a).picker = s.picker ∧ (locateBlank s b a).drives = s.drives := by
  simp [locateBlank]
@[simp] theorem frame_readFailed (s : State) (b : Bay) (block : Nat) :
    (readFailed s b block).side = s.side ∧ (readFailed s b block).store = s.store ∧
    (readFailed s b block).elements = s.elements ∧ (readFailed s b block).picker = s.picker ∧
    (readFailed s b block).drives = s.drives ∧ (readFailed s b block).streams = s.streams := by
  simp [readFailed]
@[simp] theorem frame_commitRecord (s : State) (b : Bay) (f : Flight) (r : Rec) :
    (commitRecord s b f r).side = s.side ∧ (commitRecord s b f r).elements = s.elements ∧
    (commitRecord s b f r).picker = s.picker ∧ (commitRecord s b f r).drives = s.drives ∧
    (commitRecord s b f r).engine = s.engine ∧ (commitRecord s b f r).restores = s.restores ∧
    (commitRecord s b f r).verifies = s.verifies := by
  simp [commitRecord]
@[simp] theorem frame_commitTaken (s : State) (b : Bay) (f : Flight) (later : List Flight) :
    (commitTaken s b f later).side = s.side ∧ (commitTaken s b f later).elements = s.elements ∧
    (commitTaken s b f later).picker = s.picker ∧ (commitTaken s b f later).restores = s.restores ∧
    (commitTaken s b f later).verifies = s.verifies := by
  unfold commitTaken; dsimp only; split <;> simp
@[simp] theorem frame_askGap (s : State) (b : Bay) (r last : Nat) :
    (askGap s b r last).side = s.side ∧ (askGap s b r last).store = s.store ∧ (askGap s b r last).elements = s.elements ∧
    (askGap s b r last).picker = s.picker ∧ (askGap s b r last).restores = s.restores ∧ (askGap s b r last).verifies = s.verifies := by
  simp [askGap]
@[simp] theorem frame_faultTaken (s : State) (b : Bay) (f : Flight) (later : List Flight) :
    (faultTaken s b f later).side = s.side ∧ (faultTaken s b f later).elements = s.elements ∧
    (faultTaken s b f later).picker = s.picker ∧ (faultTaken s b f later).restores = s.restores ∧
    (faultTaken s b f later).verifies = s.verifies := by
  simp [faultTaken]
@[simp] theorem frame_gapTaken (s : State) (b : Bay) :
    (gapTaken s b).side = s.side ∧ (gapTaken s b).elements = s.elements ∧ (gapTaken s b).picker = s.picker ∧
    (gapTaken s b).restores = s.restores ∧ (gapTaken s b).verifies = s.verifies := by
  simp [gapTaken]
@[simp] theorem frame_dataTaken (s : State) (b : Bay) (block : Nat) (h : TapeHeader) (stored : List Byte) :
    (dataTaken s b block h stored).side = s.side ∧ (dataTaken s b block h stored).elements = s.elements ∧
    (dataTaken s b block h stored).picker = s.picker ∧ (dataTaken s b block h stored).streams = s.streams := by
  unfold dataTaken; dsimp only; split <;> simp
@[simp] theorem frame_readFaulted (s : State) (b : Bay) (block : Nat) :
    (readFaulted s b block).side = s.side ∧ (readFaulted s b block).store = s.store ∧
    (readFaulted s b block).elements = s.elements ∧ (readFaulted s b block).picker = s.picker ∧
    (readFaulted s b block).streams = s.streams := by
  simp [readFaulted]
@[simp] theorem frame_takeItem (s : State) (i : Item) :
    (takeItem s i).side = s.side ∧ (takeItem s i).store = s.store ∧ (takeItem s i).elements = s.elements ∧
    (takeItem s i).picker = s.picker ∧ (takeItem s i).drives = s.drives ∧ (takeItem s i).buffer = s.buffer ∧
    (takeItem s i).streams = s.streams ∧ (takeItem s i).restores = s.restores ∧ (takeItem s i).verifies = s.verifies ∧
    (takeItem s i).ports = s.ports := by
  simp [takeItem]
@[simp] theorem frame_engineFree (s : State) :
    (engineFree s).side = s.side ∧ (engineFree s).store = s.store ∧ (engineFree s).elements = s.elements ∧
    (engineFree s).picker = s.picker ∧ (engineFree s).drives = s.drives ∧ (engineFree s).buffer = s.buffer ∧
    (engineFree s).streams = s.streams ∧ (engineFree s).restores = s.restores ∧ (engineFree s).verifies = s.verifies ∧
    (engineFree s).ports = s.ports := by
  simp [engineFree]
@[simp] theorem frame_shrinkDiscarded (s : State) (b : Bay) (r : Rec) :
    (shrinkDiscarded s b r).side = s.side ∧ (shrinkDiscarded s b r).store = s.store ∧
    (shrinkDiscarded s b r).elements = s.elements ∧ (shrinkDiscarded s b r).picker = s.picker ∧
    (shrinkDiscarded s b r).drives = s.drives ∧ (shrinkDiscarded s b r).engine = s.engine ∧
    (shrinkDiscarded s b r).restores = s.restores ∧ (shrinkDiscarded s b r).verifies = s.verifies := by
  simp [shrinkDiscarded]
@[simp] theorem frame_shrinkStored (s : State) (b : Bay) (r : Rec) (x : Form × List Byte) :
    (shrinkStored s b r x).side = s.side ∧ (shrinkStored s b r x).store = s.store ∧
    (shrinkStored s b r x).elements = s.elements ∧ (shrinkStored s b r x).picker = s.picker ∧
    (shrinkStored s b r x).restores = s.restores ∧ (shrinkStored s b r x).verifies = s.verifies := by
  simp [shrinkStored]
@[simp] theorem frame_shrinkTaken (s : State) (i : Item) (on : Bool) :
    (shrinkTaken s i on).side = s.side ∧ (shrinkTaken s i on).store = s.store ∧ (shrinkTaken s i on).elements = s.elements ∧
    (shrinkTaken s i on).picker = s.picker ∧ (shrinkTaken s i on).restores = s.restores ∧
    (shrinkTaken s i on).verifies = s.verifies := by
  unfold shrinkTaken; split <;> simp
@[simp] theorem frame_deliverGood (s : State) (b : Bay) (e : Staged) (i : Item) (raw : List Byte) :
    (deliverGood s b e i raw).side = s.side ∧ (deliverGood s b e i raw).store = s.store ∧
    (deliverGood s b e i raw).elements = s.elements ∧ (deliverGood s b e i raw).picker = s.picker ∧
    (deliverGood s b e i raw).drives = s.drives ∧ (deliverGood s b e i raw).streams = s.streams ∧
    (deliverGood s b e i raw).verifies = s.verifies := by
  simp [deliverGood]
@[simp] theorem frame_deliverFailed (s : State) (b : Bay) (r : RestoreRun) (e : Staged) (i : Item) (code : ReplyCode) :
    (deliverFailed s b r e i code).side = s.side ∧ (deliverFailed s b r e i code).elements = s.elements ∧
    (deliverFailed s b r e i code).picker = s.picker ∧ (deliverFailed s b r e i code).drives = s.drives ∧
    (deliverFailed s b r e i code).streams = s.streams ∧ (deliverFailed s b r e i code).verifies = s.verifies := by
  simp [deliverFailed]
@[simp] theorem frame_deliverResult (i : Item) (x : List Byte × CheckResult) (s : State) :
    (deliverResult i x s).side = s.side ∧ (deliverResult i x s).elements = s.elements ∧ (deliverResult i x s).picker = s.picker ∧
    (deliverResult i x s).drives = s.drives ∧ (deliverResult i x s).streams = s.streams ∧
    (deliverResult i x s).verifies = s.verifies := by
  unfold deliverResult; (repeat' split) <;> simp
@[simp] theorem frame_deliverTaken (s : State) (i : Item) :
    (deliverTaken s i).side = s.side ∧ (deliverTaken s i).elements = s.elements ∧ (deliverTaken s i).picker = s.picker ∧
    (deliverTaken s i).drives = s.drives ∧ (deliverTaken s i).streams = s.streams ∧ (deliverTaken s i).verifies = s.verifies := by
  simp [deliverTaken]
@[simp] theorem frame_checkResult (i : Item) (res : CheckResult) (s : State) :
    (checkResult i res s).side = s.side ∧ (checkResult i res s).elements = s.elements ∧ (checkResult i res s).picker = s.picker ∧
    (checkResult i res s).drives = s.drives ∧ (checkResult i res s).streams = s.streams ∧ (checkResult i res s).engine = s.engine ∧
    (checkResult i res s).restores = s.restores := by
  unfold checkResult; (repeat' split) <;> simp
@[simp] theorem frame_verifyCheckTaken (s : State) (i : Item) (res : CheckResult) :
    (verifyCheckTaken s i res).side = s.side ∧ (verifyCheckTaken s i res).elements = s.elements ∧
    (verifyCheckTaken s i res).picker = s.picker ∧ (verifyCheckTaken s i res).drives = s.drives ∧
    (verifyCheckTaken s i res).streams = s.streams ∧ (verifyCheckTaken s i res).engine = s.engine ∧
    (verifyCheckTaken s i res).restores = s.restores := by
  simp [verifyCheckTaken]
@[simp] theorem frame_indexResolved (s : State) (b : Bay) (r : RestoreRun) (x : IndexRead) (entry : Option Nat) :
    (indexResolved s b r x entry).side = s.side ∧ (indexResolved s b r x entry).store = s.store ∧
    (indexResolved s b r x entry).elements = s.elements ∧ (indexResolved s b r x entry).picker = s.picker ∧
    (indexResolved s b r x entry).streams = s.streams ∧ (indexResolved s b r x entry).verifies = s.verifies := by
  unfold indexResolved; split <;> simp
@[simp] theorem frame_indexCheckTaken (s : State) (i : Item) (res : CheckResult) (e : Nat) :
    (indexCheckTaken s i res e).side = s.side ∧ (indexCheckTaken s i res e).elements = s.elements ∧
    (indexCheckTaken s i res e).picker = s.picker ∧ (indexCheckTaken s i res e).streams = s.streams ∧
    (indexCheckTaken s i res e).verifies = s.verifies := by
  unfold indexCheckTaken; (repeat' split) <;> simp
@[simp] theorem frame_readIssued (s : State) (b : Bay) (r : RestoreRun) (id : Option Nat) :
    (readIssued s b r id).side = s.side ∧ (readIssued s b r id).store = s.store ∧ (readIssued s b r id).elements = s.elements ∧
    (readIssued s b r id).picker = s.picker ∧ (readIssued s b r id).streams = s.streams ∧
    (readIssued s b r id).engine = s.engine ∧ (readIssued s b r id).verifies = s.verifies ∧ (readIssued s b r id).ports = s.ports := by
  unfold readIssued; (repeat' split) <;> simp
@[simp] theorem frame_reservationMet (s : State) (b : Bay) (r : VerifyRun) :
    (reservationMet s b r).side = s.side ∧ (reservationMet s b r).store = s.store ∧
    (reservationMet s b r).elements = s.elements ∧ (reservationMet s b r).picker = s.picker ∧
    (reservationMet s b r).streams = s.streams ∧ (reservationMet s b r).engine = s.engine ∧
    (reservationMet s b r).restores = s.restores := by
  simp [reservationMet]
@[simp] theorem frame_expandReady (b : Bay) (id : Option Nat) (s : State) :
    (expandReady b id s).side = s.side ∧ (expandReady b id s).store = s.store ∧ (expandReady b id s).elements = s.elements ∧
    (expandReady b id s).picker = s.picker ∧ (expandReady b id s).drives = s.drives ∧ (expandReady b id s).streams = s.streams ∧
    (expandReady b id s).verifies = s.verifies := by
  simp [expandReady]
@[simp] theorem frame_idleCommit (s : State) (p : Port) (b : Bay) :
    (idleCommit s p b).side = s.side ∧ (idleCommit s p b).store = s.store ∧ (idleCommit s p b).elements = s.elements ∧
    (idleCommit s p b).picker = s.picker ∧ (idleCommit s p b).drives = s.drives ∧ (idleCommit s p b).buffer = s.buffer ∧
    (idleCommit s p b).engine = s.engine ∧ (idleCommit s p b).restores = s.restores ∧ (idleCommit s p b).verifies = s.verifies := by
  simp [idleCommit]
@[simp] theorem frame_idleReport (s : State) (p : Port) :
    (idleReport s p).side = s.side ∧ (idleReport s p).store = s.store ∧ (idleReport s p).elements = s.elements ∧
    (idleReport s p).picker = s.picker ∧ (idleReport s p).drives = s.drives ∧ (idleReport s p).engine = s.engine ∧
    (idleReport s p).restores = s.restores ∧ (idleReport s p).verifies = s.verifies := by
  simp [idleReport]

end Sys2Proof.Machine
end

