-- ==== Sys2Proof/Laws/Keeps.lean ====
section
/-! SUPPORT. What every operation keeps: the tables (R7, R12), the law of the segment buffer (R76) and the commands that wait. -/

namespace Sys2Proof.Machine


/-- What is set aside: nothing while no write goes on, else what the write will move. -/
theorem aside_none {s : State} (h : s.storeWrite = none) : s.asideUnits = (fun _ => 0) ∧ s.asideDescs = fun _ => 0 :=
  ⟨funext fun o => by simp only [State.asideUnits, h], funext fun o => by simp only [State.asideDescs, h]⟩
theorem aside_some {s : State} {q : ConfigRequest} (h : s.storeWrite = some q) :
    s.asideUnits = movedUnits s.settings (s.settings.with q.entries)
    ∧ s.asideDescs = movedDescs s.settings (s.settings.with q.entries) :=
  ⟨funext fun o => by simp only [State.asideUnits, h], funext fun o => by simp only [State.asideDescs, h]⟩

/-- From s to t the waiting commands stand, the tables hold if they held, the buffer's law holds if it held. -/
structure Keeps (s t : State) : Prop where
  pending : t.pending = s.pending
  tables : s.tablesHold → t.tablesHold
  credit : s.creditHolds → t.creditHolds

theorem Keeps.refl (s : State) : Keeps s s := ⟨rfl, id, id⟩
theorem Keeps.trans {s t u : State} (h : Keeps s t) (g : Keeps t u) : Keeps s u :=
  ⟨g.pending.trans h.pending, g.tables ∘ h.tables, g.credit ∘ h.credit⟩
@[simp] theorem keeps_self (s : State) : Keeps s s := .refl s

theorem Keeps.of_eq {s u t : State} (h : Keeps s u) (hp : t.pending = u.pending) (hs : t.strap = u.strap) (he : t.elements = u.elements)
    (hst : t.store = u.store) (hw : t.storeWrite = u.storeWrite) (hb : t.buffer = u.buffer) : Keeps s t := by
  refine h.trans ⟨hp, ?_, ?_⟩
  · simp [State.tablesHold, *]
  · have ht : t.settings = u.settings := by simp only [State.settings, hst]
    have hu : t.asideUnits = u.asideUnits := by funext o; simp only [State.asideUnits, hw, ht]
    have hd : t.asideDescs = u.asideDescs := by funext o; simp only [State.asideDescs, hw, ht]
    simp only [State.creditHolds, ht, hu, hd, hw, hb, imp_self]

@[simp] theorem keeps_modDrive {s u : State} (h : Keeps s u) (b f) : Keeps s (u.modDrive b f) := h.of_eq rfl rfl rfl rfl rfl rfl
@[simp] theorem keeps_modStream {s u : State} (h : Keeps s u) (b f) : Keeps s (u.modStream b f) := h.of_eq rfl rfl rfl rfl rfl rfl
@[simp] theorem keeps_setRestore {s u : State} (h : Keeps s u) (b r) : Keeps s (u.setRestore b r) := h.of_eq rfl rfl rfl rfl rfl rfl
@[simp] theorem keeps_setVerify {s u : State} (h : Keeps s u) (b r) : Keeps s (u.setVerify b r) := h.of_eq rfl rfl rfl rfl rfl rfl
@[simp] theorem keeps_setRestoreRuns {z s : State} (h : Keeps z s) (b r) : Keeps z (s.setRestoreRuns b r) := h.of_eq rfl rfl rfl rfl rfl rfl
@[simp] theorem keeps_setVerifyRuns {z s : State} (h : Keeps z s) (b r) : Keeps z (s.setVerifyRuns b r) := h.of_eq rfl rfl rfl rfl rfl rfl
@[simp] theorem keeps_modRestore {s u : State} (h : Keeps s u) (b f) : Keeps s (u.modRestore b f) := h.of_eq rfl rfl rfl rfl rfl rfl
@[simp] theorem keeps_modVerify {s u : State} (h : Keeps s u) (b f) : Keeps s (u.modVerify b f) := h.of_eq rfl rfl rfl rfl rfl rfl
@[simp] theorem keeps_modPicker {s u : State} (h : Keeps s u) (f) : Keeps s (u.modPicker f) := h.of_eq rfl rfl rfl rfl rfl rfl
@[simp] theorem keeps_modEngine {s u : State} (h : Keeps s u) (f) : Keeps s (u.modEngine f) := h.of_eq rfl rfl rfl rfl rfl rfl
@[simp] theorem keeps_modPort {s u : State} (h : Keeps s u) (p f) : Keeps s (u.modPort p f) := h.of_eq rfl rfl rfl rfl rfl rfl
@[simp] theorem keeps_freeReads {s u : State} (h : Keeps s u) (n) : Keeps s { u with freeReads := n } := h.of_eq rfl rfl rfl rfl rfl rfl
@[simp] theorem keeps_scratch {s u : State} (h : Keeps s u) (n) : Keeps s { u with scratchPointer := n } := h.of_eq rfl rfl rfl rfl rfl rfl
@[simp] theorem keeps_configWaiting {s u : State} (h : Keeps s u) (n) : Keeps s { u with configWaiting := n } := h.of_eq rfl rfl rfl rfl rfl rfl
@[simp] theorem keeps_releaseWrites {s u : State} (h : Keeps s u) (n) : Keeps s { u with releaseWrites := n } := h.of_eq rfl rfl rfl rfl rfl rfl
@[simp] theorem keeps_service {s u : State} (h : Keeps s u) (n) : Keeps s { u with serviceOpen := n } := h.of_eq rfl rfl rfl rfl rfl rfl
@[simp] theorem keeps_mail {s u : State} (h : Keeps s u) (n) : Keeps s { u with mailOpen := n } := h.of_eq rfl rfl rfl rfl rfl rfl

theorem keeps_foldl {α : Type} {z s : State} (hk : Keeps z s) (f : State → α → State) (hf : ∀ t a, Keeps z t → Keeps z (f t a))
    (l : List α) : Keeps z (l.foldl f s) := by
  induction l generalizing s with
  | nil => exact hk
  | cons a l ih => exact ih (hf s a hk)

/-! ### The tables -/

theorem keeps_elements {z s : State} (hk : Keeps z s) (f : Element → Element) (hf : ∀ e, (f e).pea = e.pea) :
    Keeps z { s with elements := s.elements.map f } := by
  refine hk.trans ⟨rfl, fun h => ⟨?_, h.2⟩, id⟩
  rw [← h.1, List.map_map]
  exact List.map_congr_left fun e _ => hf e

theorem labelsAscend_map (f : Volume → Volume) (hf : ∀ v, (f v).label = v.label) (vs : List Volume) (h : labelsAscend vs) :
    labelsAscend (vs.map f) := by
  induction vs with
  | nil => exact h
  | cons v vs ih =>
    refine ⟨fun w hw => ?_, ih h.2⟩
    obtain ⟨u, hu, rfl⟩ := List.mem_map.mp hw
    rw [hf, hf]
    exact h.1 u hu

theorem labelsAscend_filter (f : Volume → Bool) (vs : List Volume) (h : labelsAscend vs) : labelsAscend (vs.filter f) := by
  induction vs with
  | nil => exact h
  | cons v vs ih =>
    rw [List.filter_cons]
    split
    · exact ⟨fun w hw => h.1 w (List.mem_of_mem_filter hw), ih h.2⟩
    · exact ih h.2

theorem keeps_volumes {z s : State} (hk : Keeps z s) (f : Volume → Volume) (hf : ∀ v, (f v).label = v.label) (n : Nat) :
    Keeps z { s with store := { s.store with volumes := s.store.volumes.map f, exportCounter := n } } := by
  refine hk.trans ⟨rfl, fun h => ⟨h.1, labelsAscend_map f hf _ h.2.1, ?_⟩, id⟩
  rw [List.length_map]
  exact h.2.2

theorem keeps_mapVolumes {z s : State} (hk : Keeps z s) (f : Volume → Volume) (hf : ∀ v, (f v).label = v.label) :
    Keeps z (mapVolumes s f) := keeps_volumes hk f hf s.store.exportCounter

theorem keeps_modVolume {z s : State} (hk : Keeps z s) (l : Label) (f : Volume → Volume) (hf : ∀ v, (f v).label = v.label) :
    Keeps z (modVolume s l f) := keeps_mapVolumes hk _ fun v => by split <;> simp [hf]

theorem keeps_modDriveVolume {z s : State} (hk : Keeps z s) (b : Bay) (f : Volume → Volume) (hf : ∀ v, (f v).label = v.label) :
    Keeps z (modDriveVolume s b f) := by
  unfold modDriveVolume
  split
  · exact keeps_modVolume hk _ f hf
  · exact hk

/-! ### The buffer -/

theorem keeps_creditNotice {z s : State} (hk : Keeps z s) (old : Buffer) (p : Port) : Keeps z (creditNotice old s p) := by
  unfold creditNotice
  extract_lets
  split
  · exact hk
  · exact keeps_modPort hk _ _

theorem keeps_buffer {z s : State} (hk : Keeps z s) (b : Buffer) (hb : ∀ du dd, s.buffer.owes s.settings du dd → b.owes s.settings du dd) :
    Keeps z { s with buffer := b } := hk.trans ⟨rfl, id, fun h => ⟨h.1, hb _ _ h.2.1, h.2.2⟩⟩

/-- A change of the buffer that keeps its law, whatever is set aside. -/
theorem keeps_onBuffer {z s : State} (hk : Keeps z s) (f : CreditEnv → Buffer → Buffer)
    (hf : ∀ du dd, s.buffer.owes s.settings du dd → (f s.creditEnv s.buffer).owes s.settings du dd) : Keeps z (onBuffer s f) := by
  unfold onBuffer
  exact keeps_creditNotice (keeps_creditNotice (keeps_creditNotice (keeps_buffer hk _ hf) _ _) _ _) _ _

@[simp] theorem keeps_ite {c : Prop} [Decidable c] {z s t : State} (hs : Keeps z s) (ht : Keeps z t) : Keeps z (if c then s else t) := by
  split
  · exact hs
  · exact ht

/-! ### Ops -/

@[simp] theorem keeps_queueNotice {z s : State} (hk : Keeps z s) (p : Port) (n : Notice) : Keeps z (queueNotice s p n) := by
  simp [queueNotice, hk]
@[simp] theorem keeps_queueNoticeAll {z s : State} (hk : Keeps z s) (n : Notice) : Keeps z (queueNoticeAll s n) := by
  simp (maxDischargeDepth := 10) [queueNoticeAll, hk]
@[simp] theorem keeps_queueReply {z s : State} (hk : Keeps z s) (p : Port) (r : Reply) : Keeps z (queueReply s p r) := by
  simp [queueReply, hk]
@[simp] theorem keeps_queueFrames {z s : State} (hk : Keeps z s) (p : Port) (fs : List DataFrame) : Keeps z (queueFrames s p fs) := by
  simp [queueFrames, hk]
@[simp] theorem keeps_queueLimited {z s : State} (hk : Keeps z s) (p : Port) (sort : Control → Bool) (r : Reply) : Keeps z (queueLimited s p sort r) := by
  simp [queueLimited, hk]
@[simp] theorem keeps_queueWriteRefused {z s : State} (hk : Keeps z s) (p : Port) (kind : ReqKind) (stream : Byte) (code : ReplyCode) (record : Option Nat) : Keeps z (queueWriteRefused s p kind stream code record) := by
  simp [queueWriteRefused, hk]
@[simp] theorem keeps_queueLooseBadRequest {z s : State} (hk : Keeps z s) (p : Port) (kind tag : Byte) : Keeps z (queueLooseBadRequest s p kind tag) := by
  simp [queueLooseBadRequest, hk]
@[simp] theorem keeps_queueTagInUse {z s : State} (hk : Keeps z s) (p : Port) (kind : ReqKind) (tag : Byte) : Keeps z (queueTagInUse s p kind tag) := by
  simp [queueTagInUse, hk]
@[simp] theorem keeps_answer {z s : State} (hk : Keeps z s) (p : Port) (tag : Byte) (kind : ReqKind) (code : ReplyCode) (body : ReplyBody) (clamped : Bool) : Keeps z (answer s p tag kind code body clamped) := by
  simp [answer, hk]
@[simp] theorem keeps_answerHeld {z s : State} (hk : Keeps z s) (p : Port) (tag : Option Byte) (kind : ReqKind) (code : ReplyCode) (body : ReplyBody) (clamped : Bool) : Keeps z (answerHeld s p tag kind code body clamped) := by
  unfold answerHeld
  (repeat' split) <;> simp (maxDischargeDepth := 60) [hk]
@[simp] theorem keeps_refuse {z s : State} (hk : Keeps z s) (p : Port) (tag : Byte) (kind : ReqKind) (code : ReplyCode) : Keeps z (refuse s p tag kind code) := by
  simp [refuse, hk]
@[simp] theorem keeps_pump {z s : State} (hk : Keeps z s)  : Keeps z (pump s) := by
  simp (maxDischargeDepth := 10) [pump, hk]
@[simp] theorem keeps_openTag {z s : State} (hk : Keeps z s) (p : Port) (tag : Byte) (kind : ReqKind) : Keeps z (openTag s p tag kind) := by
  simp [openTag, hk]
theorem keeps_admission {z s : State} (hk : Keeps z s) (p tag kind) : match admission s p tag kind with
    | .stopped t => Keeps z t
    | .taken t => Keeps z t := by
  by_cases h1 : (s.port p).up
  · by_cases h2 : 7 < tag.toNat
    · simp [admission, h1, h2, hk]
    · cases h3 : ((s.port p).tagKind tag).isSome <;> simp [admission, h1, h2, h3, openTag, hk]
  · simp [admission, h1, hk]

/-- A request keeps what its owning block keeps. -/
theorem keeps_request {z s : State} (hk : Keeps z s) (p tag kind) (f : State → State) (hf : ∀ u, Keeps z u → Keeps z (f u)) :
    ∃ t, request s p tag kind f = .next t ∧ Keeps z t := by
  unfold request
  have h := keeps_admission hk p tag kind
  cases ha : admission s p tag kind with
  | stopped t => rw [ha] at h; exact ⟨_, rfl, keeps_pump h⟩
  | taken t => rw [ha] at h; exact ⟨_, rfl, keeps_pump (hf _ h)⟩

theorem keeps_unlessReleased {z s : State} (hk : Keeps z s) (p tag kind bay) (f : State → State) (hf : Keeps z (f s)) :
    Keeps z (unlessReleased s p tag kind bay f) := by
  unfold unlessReleased
  split
  · split
    · simp [hk]
    · exact hf
  · exact hf

@[simp] theorem keeps_setCondition {z s : State} (hk : Keeps z s) (c : LibCondition) : Keeps z (setCondition s c) := by
  simp (maxDischargeDepth := 10) [setCondition, hk]
theorem keeps_modElement {z s : State} (hk : Keeps z s) (pea : Nat) (f : Element → Element) (hf : ∀ e, (f e).pea = e.pea) :
    Keeps z (modElement s pea f) := keeps_elements hk _ fun e => by split <;> simp [hf]

@[simp] theorem keeps_setElem {z s : State} (hk : Keeps z s) (pea st) : Keeps z (setElem s pea st) := keeps_modElement hk pea _ fun _ => rfl

@[simp] theorem keeps_setClaim {z s : State} (hk : Keeps z s) (pea n) : Keeps z (setClaim s pea n) := keeps_modElement hk pea _ fun _ => rfl

@[simp] theorem keeps_clearClaims {z s : State} (hk : Keeps z s) (n) : Keeps z (clearClaims s n) := keeps_elements hk _ fun e => by split <;> rfl











/-! ### Volumes -/

@[simp] theorem Volume.threaded_label (v : Volume) (c w) : (v.threaded c w).label = v.label := rfl
@[simp] theorem Volume.hardError_label (v : Volume) : v.hardError.label = v.label := rfl
@[simp] theorem Volume.committedData_label (v : Volume) (b f r t) : (v.committedData b f r t).label = v.label := rfl
@[simp] theorem Volume.committedMark_label (v : Volume) (b) : (v.committedMark b).label = v.label := rfl
@[simp] theorem Volume.writeFaulted_label (v : Volume) (f) : (v.writeFaulted f).label = v.label := rfl
@[simp] theorem Volume.gapDone_label (v : Volume) : v.gapDone.label = v.label := rfl
@[simp] theorem Volume.overwrite_label (v : Volume) (n f) : (v.overwrite n f).label = v.label := rfl
@[simp] theorem Volume.released_label (v : Volume) : v.released.label = v.label := rfl
@[simp] theorem Volume.passed_label (v : Volume) (b) : (v.passed b).label = v.label := by unfold Volume.passed; (repeat' split) <;> rfl
@[simp] theorem Volume.failed_label (v : Volume) (b) : (v.failed b).label = v.label := rfl

@[simp] theorem keeps_vol_threaded {z s : State} (hk : Keeps z s) (l) (c w) : Keeps z (modVolume s l (fun v => v.threaded c w)) := keeps_modVolume hk l _ (fun v => Volume.threaded_label v _ _)
@[simp] theorem keeps_dvol_threaded {z s : State} (hk : Keeps z s) (b) (c w) : Keeps z (modDriveVolume s b (fun v => v.threaded c w)) := keeps_modDriveVolume hk b _ (fun v => Volume.threaded_label v _ _)
@[simp] theorem keeps_vol_hardError {z s : State} (hk : Keeps z s) (l)  : Keeps z (modVolume s l Volume.hardError) := keeps_modVolume hk l _ (fun v => Volume.hardError_label v)
@[simp] theorem keeps_dvol_hardError {z s : State} (hk : Keeps z s) (b)  : Keeps z (modDriveVolume s b Volume.hardError) := keeps_modDriveVolume hk b _ (fun v => Volume.hardError_label v)
@[simp] theorem keeps_vol_committedData {z s : State} (hk : Keeps z s) (l) (c f r t) : Keeps z (modVolume s l (fun v => v.committedData c f r t)) := keeps_modVolume hk l _ (fun v => Volume.committedData_label v _ _ _ _)
@[simp] theorem keeps_dvol_committedData {z s : State} (hk : Keeps z s) (b) (c f r t) : Keeps z (modDriveVolume s b (fun v => v.committedData c f r t)) := keeps_modDriveVolume hk b _ (fun v => Volume.committedData_label v _ _ _ _)
@[simp] theorem keeps_vol_committedMark {z s : State} (hk : Keeps z s) (l) (c) : Keeps z (modVolume s l (fun v => v.committedMark c)) := keeps_modVolume hk l _ (fun v => Volume.committedMark_label v _)
@[simp] theorem keeps_dvol_committedMark {z s : State} (hk : Keeps z s) (b) (c) : Keeps z (modDriveVolume s b (fun v => v.committedMark c)) := keeps_modDriveVolume hk b _ (fun v => Volume.committedMark_label v _)
@[simp] theorem keeps_vol_writeFaulted {z s : State} (hk : Keeps z s) (l) (c) : Keeps z (modVolume s l (fun v => v.writeFaulted c)) := keeps_modVolume hk l _ (fun v => Volume.writeFaulted_label v _)
@[simp] theorem keeps_dvol_writeFaulted {z s : State} (hk : Keeps z s) (b) (c) : Keeps z (modDriveVolume s b (fun v => v.writeFaulted c)) := keeps_modDriveVolume hk b _ (fun v => Volume.writeFaulted_label v _)
@[simp] theorem keeps_vol_gapDone {z s : State} (hk : Keeps z s) (l)  : Keeps z (modVolume s l Volume.gapDone) := keeps_modVolume hk l _ (fun v => Volume.gapDone_label v)
@[simp] theorem keeps_dvol_gapDone {z s : State} (hk : Keeps z s) (b)  : Keeps z (modDriveVolume s b Volume.gapDone) := keeps_modDriveVolume hk b _ (fun v => Volume.gapDone_label v)
@[simp] theorem keeps_vol_overwrite {z s : State} (hk : Keeps z s) (l) (c f) : Keeps z (modVolume s l (fun v => v.overwrite c f)) := keeps_modVolume hk l _ (fun v => Volume.overwrite_label v _ _)
@[simp] theorem keeps_dvol_overwrite {z s : State} (hk : Keeps z s) (b) (c f) : Keeps z (modDriveVolume s b (fun v => v.overwrite c f)) := keeps_modDriveVolume hk b _ (fun v => Volume.overwrite_label v _ _)
@[simp] theorem keeps_vol_released {z s : State} (hk : Keeps z s) (l)  : Keeps z (modVolume s l Volume.released) := keeps_modVolume hk l _ (fun v => Volume.released_label v)
@[simp] theorem keeps_dvol_released {z s : State} (hk : Keeps z s) (b)  : Keeps z (modDriveVolume s b Volume.released) := keeps_modDriveVolume hk b _ (fun v => Volume.released_label v)
@[simp] theorem keeps_vol_passed {z s : State} (hk : Keeps z s) (l) (c) : Keeps z (modVolume s l (fun v => v.passed c)) := keeps_modVolume hk l _ (fun v => Volume.passed_label v _)
@[simp] theorem keeps_dvol_passed {z s : State} (hk : Keeps z s) (b) (c) : Keeps z (modDriveVolume s b (fun v => v.passed c)) := keeps_modDriveVolume hk b _ (fun v => Volume.passed_label v _)
@[simp] theorem keeps_vol_failed {z s : State} (hk : Keeps z s) (l) (c) : Keeps z (modVolume s l (fun v => v.failed c)) := keeps_modVolume hk l _ (fun v => Volume.failed_label v _)
@[simp] theorem keeps_dvol_failed {z s : State} (hk : Keeps z s) (b) (c) : Keeps z (modDriveVolume s b (fun v => v.failed c)) := keeps_modDriveVolume hk b _ (fun v => Volume.failed_label v _)

@[simp] theorem keeps_renumberExports {z s : State} (hk : Keeps z s) : Keeps z (renumberExports s) := by
  unfold renumberExports
  split
  · exact hk
  · exact keeps_volumes hk _ (fun v => by split <;> rfl) _

theorem keeps_exportCounter {z s : State} (hk : Keeps z s) (n : Nat) :
    Keeps z { s with store := { s.store with exportCounter := n } } := by
  have := keeps_volumes hk id (fun _ => rfl) n
  rwa [List.map_id] at this

@[simp] theorem keeps_exportVolume {z s : State} (hk : Keeps z s) (l : Label) : Keeps z (exportVolume s l) :=
  keeps_exportCounter (keeps_modVolume (keeps_renumberExports hk) l _ (by intro; rfl)) _

@[simp] theorem keeps_displaceFrom {z s : State} (hk : Keeps z s) (pea : Nat) (keep : Option Label) :
    Keeps z (displaceFrom s pea keep) := keeps_mapVolumes hk _ fun v => by split <;> rfl

@[simp] theorem keeps_foundEmpty {z s : State} (hk : Keeps z s) (pea : Nat) (byAudit : Bool) :
    Keeps z (foundEmpty s pea byAudit) := by
  refine keeps_setElem ?_ _ _
  split
  · exact keeps_foldl hk _ (fun t l h => keeps_exportVolume h l) _
  · exact keeps_foldl hk _ (fun t l h => keeps_modVolume h l _ (by intro; rfl)) _

theorem labelsAscend_insert (v : Volume) (vs : List Volume) (h : labelsAscend vs) (hv : ∀ w ∈ vs, w.label.code ≠ v.label.code) :
    labelsAscend (insertVolume v vs) ∧ (insertVolume v vs).length = vs.length + 1
      ∧ ∀ w ∈ insertVolume v vs, w = v ∨ w ∈ vs := by
  induction vs with
  | nil => exact ⟨⟨by simp, trivial⟩, rfl, by simp [insertVolume]⟩
  | cons u rest ih =>
    unfold insertVolume
    split
    · rename_i hlt
      refine ⟨⟨fun w hw => ?_, h⟩, rfl, by simp⟩
      rcases List.mem_cons.mp hw with rfl | hw
      · exact hlt
      · exact Nat.lt_trans hlt (h.1 w hw)
    · rename_i hge
      obtain ⟨h1, h2, h3⟩ := ih h.2 (fun w hw => hv w (List.mem_cons_of_mem _ hw))
      refine ⟨⟨fun w hw => ?_, h1⟩, by simp [h2], fun w hw => ?_⟩
      · rcases h3 w hw with rfl | hw
        · have h4 : u.label.code.toNat ≠ w.label.code.toNat := fun he => hv u (List.mem_cons_self ..) (BitVec.eq_of_toNat_eq he)
          omega
        · exact h.1 w hw
      · rcases List.mem_cons.mp hw with rfl | hw
        · exact .inr (List.mem_cons_self ..)
        · rcases h3 w hw with h | h
          · exact .inl h
          · exact .inr (List.mem_cons_of_mem _ h)

theorem mem_of_oldest (vs : List Volume) (v : Volume) (h : oldestOutside vs = some v) : v ∈ vs := by
  unfold oldestOutside at h
  have key : ∀ (ws : List Volume) (best : Option Volume) (f : Option Volume → Volume → Option Volume),
      (∀ b w, f b w = b ∨ f b w = some w) → ∀ x, ws.foldl f best = some x → best = some x ∨ x ∈ ws := by
    intro ws
    induction ws with
    | nil => intro best f _ x hx; exact .inl hx
    | cons w ws ih =>
      intro best f hf x hx
      rcases ih _ f hf x hx with h | h
      · rcases hf best w with he | he
        · exact .inl (he ▸ h)
        · rw [he] at h; exact .inr (by simp_all)
      · exact .inr (List.mem_cons_of_mem _ h)
  rcases key vs none _ (fun b w => by
      split
      · split <;> simp
      · simp
      · simp) v h with h | h
  · cases h
  · exact h

/-- R13: a record for a label the table does not hold keeps the table in order and within 64. -/
theorem createVolume_spec {vs ws : List Volume} {l : Label} {pea : Nat} (h : labelsAscend vs) (hn : vs.length ≤ Config.maxVolumes)
    (hl : ∀ w ∈ vs, w.label ≠ l) (hc : createVolume vs l pea = some ws) : labelsAscend ws ∧ ws.length ≤ Config.maxVolumes := by
  have hcode : ∀ w ∈ vs, w.label.code ≠ (newVolume l pea).label.code := fun w hw he => hl w hw (by
    cases hwl : w.label; cases hll : l; simp [newVolume, hwl, hll] at he; simp [he])
  unfold createVolume at hc
  split at hc
  · cases hc
    obtain ⟨h1, h2, -⟩ := labelsAscend_insert (newVolume l pea) vs h hcode
    exact ⟨h1, by omega⟩
  · split at hc
    · rename_i v hv
      cases hc
      have hm := mem_of_oldest vs v hv
      obtain ⟨h1, h2, -⟩ := labelsAscend_insert (newVolume l pea) (vs.filter fun w => w.label ≠ v.label)
        (labelsAscend_filter _ _ h) (fun w hw => hcode w (List.mem_of_mem_filter hw))
      refine ⟨h1, ?_⟩
      have h3 : (vs.filter fun w => w.label ≠ v.label).length < vs.length := by
        apply List.length_filter_lt_length_iff_exists.mpr
        exact ⟨v, hm, by simp⟩
      omega
    · cases hc

@[simp] theorem keeps_fetchTaken {z s : State} (hk : Keeps z s) (pea : Nat) (read : Option Label) : Keeps z (fetchTaken s pea read) := by
  unfold fetchTaken
  dsimp only
  (repeat' split) <;> simp +contextual (maxDischargeDepth := 60) [hk, keeps_modVolume]
@[simp] theorem keeps_placeTaken {z s : State} (hk : Keeps z s) (pea : Nat) : Keeps z (placeTaken s pea) := by
  unfold placeTaken
  (repeat' split) <;> simp +contextual (maxDischargeDepth := 60) [hk, keeps_modVolume]
@[simp] theorem keeps_placeObstructed {z s : State} (hk : Keeps z s) (pea : Nat) : Keeps z (placeObstructed s pea) := by
  simp [placeObstructed, hk]


/-! ### Credit -/

@[simp] theorem keeps_bufSettle {z s : State} (hk : Keeps z s) : Keeps z (onBuffer s settle) :=
  keeps_onBuffer hk _ (fun _ _ h => owes_settle _ h)
@[simp] theorem keeps_bufIdle {z s : State} (hk : Keeps z s) (p) : Keeps z (onBuffer s fun v u => refillIdle v p u) :=
  keeps_onBuffer hk _ (fun _ _ h => owes_refillIdle _ p h)
@[simp] theorem keeps_bufCancel {z s : State} (hk : Keeps z s) (b) : Keeps z (onBuffer s fun v u => u.cancelRead v b) :=
  keeps_onBuffer hk _ (fun _ _ h => owes_cancelRead _ b h)
@[simp] theorem keeps_bufAskRead {z s : State} (hk : Keeps z s) (p b) : Keeps z (onBuffer s fun v u => u.askRead v p b) :=
  keeps_onBuffer hk _ (fun _ _ h => owes_askRead _ p b h)
@[simp] theorem keeps_bufAskExpand {z s : State} (hk : Keeps z s) (p b id n) : Keeps z (onBuffer s fun v u => u.askExpand v p b id n) :=
  keeps_onBuffer hk _ (fun _ _ h => owes_askExpand _ p b id n h)
@[simp] theorem keeps_bufAttach {z s : State} (hk : Keeps z s) (p) : Keeps z (onBuffer s fun v u => u.attach v p) :=
  keeps_onBuffer hk _ (fun _ _ h => owes_attach _ p h)
@[simp] theorem keeps_bufDetach {z s : State} (hk : Keeps z s) (p) : Keeps z (onBuffer s fun v u => u.detach v p) :=
  keeps_onBuffer hk _ (fun _ _ h => owes_detach _ p h)
@[simp] theorem keeps_bufAskReserve {z s : State} (hk : Keeps z s) (b) : Keeps z (onBuffer s fun _ u => u.askReserve b) :=
  keeps_onBuffer hk _ (fun _ _ h => by
    unfold Buffer.askReserve
    split
    · exact h
    · exact owes_same h rfl rfl rfl rfl rfl rfl)
@[simp] theorem keeps_bufWithdraw {z s : State} (hk : Keeps z s) (b) : Keeps z (onBuffer s fun _ u => u.withdrawReserve b) :=
  keeps_onBuffer hk _ (fun _ _ h => owes_same h rfl rfl rfl rfl rfl rfl)
/-- A change of a descriptor that leaves what it holds as it is. -/
theorem lawful_modDesc {b : Buffer} {st : Settings} (id : Nat) (f : Desc → Desc) (ho : ∀ d, (f d).origin = d.origin)
    (hu : ∀ d o, (f d).unitsOf o = d.unitsOf o) : ∀ du dd, b.owes st du dd → (b.modDesc id f).owes st du dd :=
  fun du dd h => owes_modDesc id f ho du (fun d _ o => by rw [hu]) (fun _ => rfl) h
@[simp] theorem keeps_bufRaw {z s : State} (hk : Keeps z s) (id id2) (raw : List Byte) :
    Keeps z (onBuffer s fun v u => (u.modDesc id fun d => { d with rawData := raw }).dropStored v id2) :=
  keeps_onBuffer hk _ (fun du dd h => owes_dropStored _ id2
    (lawful_modDesc id (fun d => { d with rawData := raw }) (by intro; rfl) (by intros; rfl) du dd h))
@[simp] theorem keeps_releaseDesc {z s : State} (hk : Keeps z s) (id) : Keeps z (releaseDesc s id) :=
  keeps_onBuffer hk _ (fun _ _ h => owes_release _ id h)

@[simp] theorem keeps_trimDesc {z s : State} (hk : Keeps z s) (id n) : Keeps z (trimDesc s id n) :=
  keeps_onBuffer hk _ (fun _ _ h => owes_trim _ id n h)

@[simp] theorem keeps_placeBytes {z s : State} (hk : Keeps z s) (id bytes) : Keeps z (placeBytes s id bytes) :=
  keeps_buffer hk _ (lawful_modDesc id (fun d => { d with data := bytes }) (by intro; rfl) (by intros; rfl))
theorem keeps_finishCredit {z s : State} (hk : Keeps z s) : ∃ t, finishCredit s = .next t ∧ Keeps z t := ⟨_, rfl, by simp [hk]⟩
theorem keeps_finish {z s : State} (hk : Keeps z s) : ∃ t, finish s = .next t ∧ Keeps z t := ⟨_, rfl, by simp [hk]⟩



/-! ### Drive -/

@[simp] theorem keeps_issueLocate {z s : State} (hk : Keeps z s) (b : Bay) (a : Nat) : Keeps z (issueLocate s b a) := by
  simp [issueLocate, hk]
@[simp] theorem keeps_offerItem {z s : State} (hk : Keeps z s) (i : Item) : Keeps z (offerItem s i) := by
  simp [offerItem, hk]
@[simp] theorem keeps_withdrawItem {z s : State} (hk : Keeps z s) (b : Bay) (id : Nat) : Keeps z (withdrawItem s b id) := by
  simp [withdrawItem, hk]
@[simp] theorem keeps_setAside {z s : State} (hk : Keeps z s) (b : Bay) : Keeps z (setAside s b) := by
  simp [setAside, hk]
@[simp] theorem keeps_abandonInHand {z s : State} (hk : Keeps z s) (id : Nat) : Keeps z (abandonInHand s id) := by
  simp [abandonInHand, hk]


/-! ### StreamOps -/

@[simp] theorem keeps_toStreamPort {z s : State} (hk : Keeps z s) (b : Bay) (n : Notice) : Keeps z (toStreamPort s b n) := by
  unfold toStreamPort
  (repeat' split) <;> simp (maxDischargeDepth := 60) [hk]
@[simp] theorem keeps_commitNotice {z s : State} (hk : Keeps z s) (b : Bay) : Keeps z (commitNotice s b) := by
  simp [commitNotice, hk]
@[simp] theorem keeps_testCommitNotice {z s : State} (hk : Keeps z s) (b : Bay) : Keeps z (testCommitNotice s b) := by
  simp (maxDischargeDepth := 10) [testCommitNotice, hk]
@[simp] theorem keeps_answerSync {z s : State} (hk : Keeps z s) (b : Bay) (tag : Byte) (code : ReplyCode) : Keeps z (answerSync s b tag code) := by
  unfold answerSync
  dsimp only
  (repeat' split) <;> simp (maxDischargeDepth := 60) [hk]
@[simp] theorem keeps_testSyncs {z s : State} (hk : Keeps z s) (b : Bay) : Keeps z (testSyncs s b) := by
  simp +contextual (maxDischargeDepth := 60) [testSyncs, hk, keeps_foldl]
@[simp] theorem keeps_giveUpRecord {z s : State} (hk : Keeps z s) (b : Bay) (r : Rec) : Keeps z (giveUpRecord b s r) := by
  simp (maxDischargeDepth := 10) [giveUpRecord, hk]
@[simp] theorem keeps_giveUpRecords {z s : State} (hk : Keeps z s) (b : Bay) (f : Rec → Bool) : Keeps z (giveUpRecords s b f) := by
  simp +contextual (maxDischargeDepth := 60) [giveUpRecords, hk, keeps_foldl]
@[simp] theorem keeps_mediumEnd {z s : State} (hk : Keeps z s) (b : Bay) (u : Nat) : Keeps z (mediumEnd s b u) := by
  simp (maxDischargeDepth := 10) [mediumEnd, hk]
@[simp] theorem keeps_clearStreamActivity {z s : State} (hk : Keeps z s) (b : Bay) : Keeps z (clearStreamActivity s b) := by
  simp [clearStreamActivity, hk]
@[simp] theorem keeps_answerClosing {z s : State} (hk : Keeps z s) (b : Bay) (q : Closing) : Keeps z (answerClosing b s q) := by
  unfold answerClosing
  dsimp only
  (repeat' split) <;> simp (maxDischargeDepth := 60) [hk]
@[simp] theorem keeps_closeStream {z s : State} (hk : Keeps z s) (b : Bay) : Keeps z (closeStream s b) := by
  simp +contextual (maxDischargeDepth := 60) [closeStream, hk, keeps_foldl]
@[simp] theorem keeps_loseRecord {z s : State} (hk : Keeps z s) (b : Bay) (r : Rec) : Keeps z (loseRecord b s r) := by
  simp (maxDischargeDepth := 10) [loseRecord, hk]
@[simp] theorem keeps_streamFault {z s : State} (hk : Keeps z s) (b : Bay) (code : FaultCode) : Keeps z (streamFault s b code) := by
  have h1 : Keeps z ((s.stream b).records.foldl (loseRecord b) s) := keeps_foldl hk _ (fun t a h => by simp [h]) _
  have h2 := keeps_modDriveVolume (keeps_modStream h1 b fun c => { c with fault := some code, records := [] }) b Volume.hardError
    fun _ => rfl
  unfold streamFault
  extract_lets c lost s1 s2 s3
  have h3 : Keeps z s3 := by simp only [s3, s2, s1, c]; simp [h2]
  split <;> simp [h3]

@[simp] theorem keeps_offerEngine {z s : State} (hk : Keeps z s) (b : Bay) : Keeps z (offerEngine s b) := by
  unfold offerEngine
  dsimp only
  (repeat' split) <;> simp (maxDischargeDepth := 60) [hk]
@[simp] theorem keeps_earlyWarning {z s : State} (hk : Keeps z s) (b : Bay) (num : Nat) : Keeps z (earlyWarning s b num) := by
  simp (maxDischargeDepth := 10) [earlyWarning, hk]
@[simp] theorem keeps_sendBlock {z s : State} (hk : Keeps z s) (b : Bay) (r : Rec) (block : Nat) : Keeps z (sendBlock s b r block) := by
  simp (maxDischargeDepth := 10) [sendBlock, hk]
theorem keeps_offerRun {z : State} (n : Nat) {s : State} (hk : Keeps z s) (b : Bay) : Keeps z (offerRun n s b) := by
  induction n generalizing s with
  | zero => exact hk
  | succ n ih =>
    unfold offerRun
    split
    · rename_i t ht
      refine ih ?_
      unfold offerOnce at ht
      dsimp only at ht
      repeat' split at ht
      all_goals first
        | (cases ht; done)
        | (cases ht; simp [hk])
    · exact hk
@[simp] theorem keeps_offerBlocks {z s : State} (hk : Keeps z s) (b : Bay) : Keeps z (offerBlocks s b) := keeps_offerRun _ hk b

@[simp] theorem keeps_discardStream {z s : State} (hk : Keeps z s) (b : Bay) (q : Closing) : Keeps z (discardStream s b q) := by
  simp (maxDischargeDepth := 10) [discardStream, hk]
@[simp] theorem keeps_openVolume {z s : State} (hk : Keeps z s) (b : Bay) (p : Port) (f : Nat) : Keeps z (openVolume s b p f) := by
  unfold openVolume
  refine keeps_modDriveVolume hk b _ fun v => ?_
  dsimp only
  repeat' split
  all_goals rfl

@[simp] theorem keeps_openingDone {z s : State} (hk : Keeps z s) (b : Bay) (f : Nat) : Keeps z (openingDone s b f) := by
  unfold openingDone
  (repeat' split) <;> simp (maxDischargeDepth := 60) [hk]
@[simp] theorem keeps_openingEnds {z s : State} (hk : Keeps z s) (b : Bay) (code : ReplyCode) : Keeps z (openingEnds s b code) := by
  unfold openingEnds
  dsimp only
  (repeat' split) <;> simp +contextual (maxDischargeDepth := 60) [hk, keeps_foldl]
@[simp] theorem keeps_streamLinkLoss {z s : State} (hk : Keeps z s) (b : Bay) : Keeps z (streamLinkLoss s b) := by
  unfold streamLinkLoss
  dsimp only
  (repeat' split) <;> simp (maxDischargeDepth := 60) [hk]
@[simp] theorem keeps_untagClosing {z s : State} (hk : Keeps z s) (p : Port) (b : Bay) : Keeps z (untagClosing s p b) :=
  keeps_modStream hk _ _
@[simp] theorem keeps_portStreamsLoss {z s : State} (hk : Keeps z s) (p : Port) : Keeps z (portStreamsLoss s p) := by
  simp (maxDischargeDepth := 10) [portStreamsLoss, hk]


/-! ### RestoreOps -/

/-- What is done for a run left behind keeps what it keeps when done for the bay's run. -/
theorem keeps_onLeftRestore {z s : State} (hk : Keeps z s) (b : Bay) (k : Nat) (f : State → State) (hf : ∀ t, Keeps z t → Keeps z (f t)) :
    Keeps z (onLeftRestore s b k f) := by
  unfold onLeftRestore
  split
  · exact keeps_setRestoreRuns (hf _ (keeps_setRestore hk _ _)) _ _
  · exact hk
theorem keeps_onRunOf {z s : State} (hk : Keeps z s) (b : Bay) (id : Option Nat) (f : State → State) (hf : ∀ t, Keeps z t → Keeps z (f t)) :
    Keeps z (onRunOf s b id f) := by
  unfold onRunOf
  repeat' split
  · exact hf _ hk
  · exact keeps_onLeftRestore hk _ _ _ hf
  · exact hf _ hk
theorem keeps_onLeftRestores {z s : State} (hk : Keeps z s) (b : Bay) (g : RestoreRun → Bool) (f : State → State)
    (hf : ∀ t, Keeps z t → Keeps z (f t)) : Keeps z (onLeftRestores s b g f) := by
  refine keeps_foldl hk _ (fun t k ht => ?_) _
  split
  · exact keeps_onLeftRestore ht _ _ _ hf
  · exact ht
theorem keeps_onLeftVerify {z s : State} (hk : Keeps z s) (b : Bay) (k : Nat) (f : State → State) (hf : ∀ t, Keeps z t → Keeps z (f t)) :
    Keeps z (onLeftVerify s b k f) := by
  unfold onLeftVerify
  split
  · exact keeps_setVerifyRuns (hf _ (keeps_setVerify hk _ _)) _ _
  · exact hk
theorem keeps_onVerifyOf {z s : State} (hk : Keeps z s) (b : Bay) (id : Nat) (f : State → State) (hf : ∀ t, Keeps z t → Keeps z (f t)) :
    Keeps z (onVerifyOf s b id f) := by
  unfold onVerifyOf
  repeat' split
  · exact hf _ hk
  · exact keeps_onLeftVerify hk _ _ _ hf
  · exact hf _ hk
@[simp] theorem keeps_addStaged {z s : State} (hk : Keeps z s) (b : Bay) (e : Staged) : Keeps z (addStaged s b e) := by
  simp [addStaged, hk]
@[simp] theorem keeps_modStaged {z s : State} (hk : Keeps z s) (b : Bay) (block : Nat) (f : Staged → Staged) : Keeps z (modStaged s b block f) := by
  simp [modStaged, hk]
@[simp] theorem keeps_dropStaged {z s : State} (hk : Keeps z s) (b : Bay) (block : Nat) : Keeps z (dropStaged s b block) := by
  simp [dropStaged, hk]
@[simp] theorem keeps_releaseOpt {z s : State} (hk : Keeps z s) (id : Option Nat) : Keeps z (releaseOpt s id) := by
  unfold releaseOpt
  (repeat' split) <;> simp (maxDischargeDepth := 60) [hk]
@[simp] theorem keeps_giveUpDesc {z s : State} (hk : Keeps z s) (b : Bay) (id : Nat) : Keeps z (giveUpDesc s b id) := by
  simp (maxDischargeDepth := 10) [giveUpDesc, hk]
@[simp] theorem keeps_giveUpStaged {z s : State} (hk : Keeps z s) (b : Bay) (e : Staged) : Keeps z (giveUpStaged b s e) := by
  unfold giveUpStaged
  (repeat' split) <;> simp (maxDischargeDepth := 60) [hk]
@[simp] theorem keeps_giveUpStagedIf {z s : State} (hk : Keeps z s) (b : Bay) (f : Staged → Bool) : Keeps z (giveUpStagedIf s b f) := by
  unfold giveUpStagedIf
  (repeat' split) <;> simp +contextual (maxDischargeDepth := 60) [hk, keeps_foldl]
@[simp] theorem keeps_giveUpIndex {z s : State} (hk : Keeps z s) (b : Bay) : Keeps z (giveUpIndex s b) := by
  unfold giveUpIndex
  (repeat' split) <;> simp (maxDischargeDepth := 60) [hk]
@[simp] theorem keeps_takeEnding {z s : State} (hk : Keeps z s) (b : Bay) (code : ReplyCode) (block : Option Nat) : Keeps z (takeEnding s b code block) := by
  unfold takeEnding
  (repeat' split) <;> simp (maxDischargeDepth := 60) [hk]
@[simp] theorem keeps_reportFailure {z s : State} (hk : Keeps z s) (l : Label) (block : Nat) : Keeps z (reportFailure s l block) :=
  keeps_modVolume hk _ _ fun _ => rfl

@[simp] theorem keeps_askNext {z s : State} (hk : Keeps z s) (b : Bay) : Keeps z (askNext s b) := by
  unfold askNext addStaged
  repeat' split
  all_goals simp [hk]

@[simp] theorem keeps_offerStaged {z s : State} (hk : Keeps z s) (b : Bay) : Keeps z (offerStaged s b) := by
  unfold offerStaged
  (repeat' split) <;> simp (maxDischargeDepth := 60) [hk]
@[simp] theorem keeps_offerDue {z s : State} (hk : Keeps z s) (b : Bay) : Keeps z (offerDue s b) :=
  keeps_offerStaged (keeps_onLeftRestores hk _ _ _ fun _ h => keeps_offerStaged h _) _
@[simp] theorem keeps_handReady {z s : State} (hk : Keeps z s) (b : Bay) : Keeps z (handReady s b) := by
  unfold handReady
  (repeat' split) <;> simp (maxDischargeDepth := 60) [hk]
@[simp] theorem keeps_restoreAdvance {z s : State} (hk : Keeps z s) (b : Bay) : Keeps z (restoreAdvance s b) := by
  simp (maxDischargeDepth := 10) [restoreAdvance, hk]
@[simp] theorem keeps_restoreArrived {z s : State} (hk : Keeps z s) (b : Bay) : Keeps z (restoreArrived s b) := by
  unfold restoreArrived
  (repeat' split) <;> simp (maxDischargeDepth := 60) [hk]
@[simp] theorem keeps_restorePosition {z s : State} (hk : Keeps z s) (b : Bay) : Keeps z (restorePosition s b) := by
  unfold restorePosition
  (repeat' split) <;> simp (maxDischargeDepth := 60) [hk]
@[simp] theorem keeps_indexData {z s : State} (hk : Keeps z s) (b : Bay) (r : RestoreRun) (x : IndexRead) (h : TapeHeader) (stored : List Byte) : Keeps z (indexData s b r x h stored) := by
  unfold indexData
  (repeat' split) <;> simp (maxDischargeDepth := 60) [hk]
@[simp] theorem keeps_endingAfter {z s : State} (hk : Keeps z s) (b : Bay) (block : Nat) (mark : Bool) : Keeps z (endingAfter s b block mark) := by
  unfold endingAfter
  (repeat' split) <;> simp (maxDischargeDepth := 60) [hk]
@[simp] theorem keeps_stagedData {z s : State} (hk : Keeps z s) (b : Bay) (r : RestoreRun) (e : Staged) (id : Nat) (h : TapeHeader) (stored : List Byte) : Keeps z (stagedData s b r e id h stored) := by
  simp (maxDischargeDepth := 60) [stagedData, hk]
@[simp] theorem keeps_restoreData {z s : State} (hk : Keeps z s) (b : Bay) (h : TapeHeader) (stored : List Byte) : Keeps z (restoreData s b h stored) := by
  unfold restoreData
  (repeat' split) <;> simp (maxDischargeDepth := 60) [hk]
@[simp] theorem keeps_restoreReadFailed {z s : State} (hk : Keeps z s) (b : Bay) (block : Nat) : Keeps z (restoreReadFailed s b block) := by
  unfold restoreReadFailed
  (repeat' split) <;> simp (maxDischargeDepth := 60) [hk]
@[simp] theorem keeps_restoreDriveFault {z s : State} (hk : Keeps z s) (b : Bay) : Keeps z (restoreDriveFault s b) := by
  simp (maxDischargeDepth := 10) [restoreDriveFault, hk]
@[simp] theorem keeps_withdrawFrames {z s : State} (hk : Keeps z s) (b : Bay) (p : Port) : Keeps z (withdrawFrames s b p) := by
  simp [withdrawFrames, hk]
@[simp] theorem keeps_restoreAbort {z s : State} (hk : Keeps z s) (b : Bay) : Keeps z (restoreAbort s b) := by
  unfold restoreAbort
  (repeat' split) <;> simp (maxDischargeDepth := 60) [hk]
@[simp] theorem keeps_restoreLinkLoss {z s : State} (hk : Keeps z s) (b : Bay) : Keeps z (restoreLinkLoss s b) := by
  simp (maxDischargeDepth := 10) [restoreLinkLoss, hk]
@[simp] theorem keeps_bayRestoresLoss {z s : State} (hk : Keeps z s) (p : Port) (b : Bay) : Keeps z (bayRestoresLoss p s b) := by
  unfold bayRestoresLoss
  refine keeps_onLeftRestores ?_ _ _ _ fun _ h => keeps_restoreLinkLoss h _
  split <;> simp [hk]
@[simp] theorem keeps_dropRestoreAborts {z s : State} (hk : Keeps z s) (p : Port) (b : Bay) : Keeps z (dropRestoreAborts s p b) :=
  keeps_setRestoreRuns hk _ _
@[simp] theorem keeps_portRestoresLoss {z s : State} (hk : Keeps z s) (p : Port) : Keeps z (portRestoresLoss s p) := by
  simp (maxDischargeDepth := 10) [portRestoresLoss, hk]
@[simp] theorem keeps_recordDelivered {z s : State} (hk : Keeps z s) (b : Bay) (block : Nat) (id : Option Nat) : Keeps z (recordDelivered s b block id) := by
  unfold recordDelivered
  (repeat' split) <;> simp (maxDischargeDepth := 60) [hk]
@[simp] theorem keeps_clearRunActivity {z s : State} (hk : Keeps z s) (b : Bay) : Keeps z (clearRunActivity s b) := by
  simp [clearRunActivity, hk]
@[simp] theorem keeps_answerAborts {z s : State} (hk : Keeps z s) (as : List RunAbort) : Keeps z (answerAborts s as) := by
  simp +contextual (maxDischargeDepth := 60) [answerAborts, hk, keeps_foldl]
@[simp] theorem keeps_answerRestore {z s : State} (hk : Keeps z s) (b : Bay) (r : RestoreRun) : Keeps z (answerRestore s b r) := by
  simp (maxDischargeDepth := 10) [answerRestore, hk]
@[simp] theorem keeps_closeRestore {z s : State} (hk : Keeps z s) (b : Bay) (r : RestoreRun) : Keeps z (closeRestore s b r) := by
  simp (maxDischargeDepth := 10) [closeRestore, hk]


/-! ### VerifyOps -/

@[simp] theorem keeps_verifyEnds {z s : State} (hk : Keeps z s) (b : Bay) (code : ReplyCode) (block : Option Nat) : Keeps z (verifyEnds s b code block) := by
  simp [verifyEnds, hk]
@[simp] theorem keeps_verifyReserve {z s : State} (hk : Keeps z s) (b : Bay) : Keeps z (verifyReserve s b) := by
  simp [verifyReserve, hk]
@[simp] theorem keeps_verifyRelease {z s : State} (hk : Keeps z s) (b : Bay) : Keeps z (verifyRelease s b) := by
  unfold verifyRelease
  (repeat' split) <;> simp (maxDischargeDepth := 60) [hk]
@[simp] theorem keeps_verifyResult {z s : State} (hk : Keeps z s) (b : Bay) (r : VerifyRun) (block : Nat) (res : CheckResult) : Keeps z (verifyResult s b r block res) := by
  unfold verifyResult
  (repeat' split) <;> simp (maxDischargeDepth := 60) [hk]
@[simp] theorem keeps_verifyBlock {z s : State} (hk : Keeps z s) (b : Bay) (r : VerifyRun) (n id : Nat) (h : TapeHeader) (stored : List Byte) : Keeps z (verifyBlock s b r n id h stored) := by
  simp (maxDischargeDepth := 10) [verifyBlock, hk]
@[simp] theorem keeps_verifyData {z s : State} (hk : Keeps z s) (b : Bay) (h : TapeHeader) (stored : List Byte) : Keeps z (verifyData s b h stored) := by
  unfold verifyData
  (repeat' split) <;> simp (maxDischargeDepth := 60) [hk]
@[simp] theorem keeps_verifyReadFailed {z s : State} (hk : Keeps z s) (b : Bay) (block : Nat) : Keeps z (verifyReadFailed s b block) := by
  simp [verifyReadFailed, hk]
@[simp] theorem keeps_verifyDriveFault {z s : State} (hk : Keeps z s) (b : Bay) : Keeps z (verifyDriveFault s b) := by
  unfold verifyDriveFault
  (repeat' split) <;> simp (maxDischargeDepth := 60) [hk]
@[simp] theorem keeps_verifyArrived {z s : State} (hk : Keeps z s) (b : Bay) : Keeps z (verifyArrived s b) := by
  unfold verifyArrived
  (repeat' split) <;> simp (maxDischargeDepth := 60) [hk]
@[simp] theorem keeps_verifyPosition {z s : State} (hk : Keeps z s) (b : Bay) : Keeps z (verifyPosition s b) := by
  unfold verifyPosition
  (repeat' split) <;> simp (maxDischargeDepth := 60) [hk]
@[simp] theorem keeps_verifyAbort {z s : State} (hk : Keeps z s) (b : Bay) : Keeps z (verifyAbort s b) := by
  unfold verifyAbort
  (repeat' split) <;> simp (maxDischargeDepth := 60) [hk]
@[simp] theorem keeps_verifyLinkLoss {z s : State} (hk : Keeps z s) (b : Bay) : Keeps z (verifyLinkLoss s b) := by
  simp (maxDischargeDepth := 10) [verifyLinkLoss, hk]
@[simp] theorem keeps_bayVerifiesLoss {z s : State} (hk : Keeps z s) (p : Port) (b : Bay) : Keeps z (bayVerifiesLoss p s b) := by
  refine keeps_foldl ?_ _ (fun t k ht => ?_) _
  · split <;> simp [hk]
  · split
    · exact keeps_onLeftVerify ht _ _ _ fun _ h => keeps_verifyLinkLoss h _
    · exact ht
@[simp] theorem keeps_dropVerifyAborts {z s : State} (hk : Keeps z s) (p : Port) (b : Bay) : Keeps z (dropVerifyAborts s p b) :=
  keeps_setVerifyRuns hk _ _
@[simp] theorem keeps_portVerifiesLoss {z s : State} (hk : Keeps z s) (p : Port) : Keeps z (portVerifiesLoss s p) := by
  simp (maxDischargeDepth := 10) [portVerifiesLoss, hk]
@[simp] theorem keeps_answerVerify {z s : State} (hk : Keeps z s) (b : Bay) (r : VerifyRun) : Keeps z (answerVerify s b r) := by
  simp (maxDischargeDepth := 10) [answerVerify, hk]
@[simp] theorem keeps_closeVerify {z s : State} (hk : Keeps z s) (b : Bay) (r : VerifyRun) : Keeps z (closeVerify s b r) := by
  simp (maxDischargeDepth := 10) [closeVerify, hk]


/-! ### MoveQueue -/

@[simp] theorem keeps_modEntry {z s : State} (hk : Keeps z s) (num : Nat) (f : MoveEntry → MoveEntry) : Keeps z (modEntry s num f) := by
  simp [modEntry, hk]
@[simp] theorem keeps_acceptEntry {z s : State} (hk : Keeps z s) (q : Requester) (kind : MoveKind) (source : Nat) (dest : Option Nat) (expected : Option Label) (phase : Phase) : Keeps z (acceptEntry s q kind source dest expected phase) := by
  unfold acceptEntry
  (repeat' split) <;> simp (maxDischargeDepth := 60) [hk]
@[simp] theorem keeps_queueOwedUnload {z s : State} (hk : Keeps z s) (b : Bay) : Keeps z (queueOwedUnload s b) := by
  simp [queueOwedUnload, hk]
@[simp] theorem keeps_queueOwedUnloads {z s : State} (hk : Keeps z s)  : Keeps z (queueOwedUnloads s) := by
  simp [queueOwedUnloads, hk]
@[simp] theorem keeps_markOwed {z s : State} (hk : Keeps z s) (b : Bay) : Keeps z (markOwed s b) := by
  simp (maxDischargeDepth := 10) [markOwed, hk]
@[simp] theorem keeps_queueReturn {z s : State} (hk : Keeps z s) (pea : Nat) (l : Label) (owner : Option Port) : Keeps z (queueReturn s pea l owner) := by
  unfold queueReturn
  dsimp only
  (repeat' split) <;> simp (maxDischargeDepth := 60) [hk]
@[simp] theorem keeps_leaveReleased {z s : State} (hk : Keeps z s) (b : Bay) : Keeps z (leaveReleased s b) := by
  simp (maxDischargeDepth := 10) [leaveReleased, hk]
@[simp] theorem keeps_dropClaim {z s : State} (hk : Keeps z s) (b : Bay) : Keeps z (dropClaim s b) := by
  simp [dropClaim, hk]
@[simp] theorem keeps_clearOwed {z s : State} (hk : Keeps z s) (b : Bay) : Keeps z (clearOwed s b) := by
  simp [clearOwed, hk]
@[simp] theorem keeps_removeEntry {z s : State} (hk : Keeps z s) (num : Nat) : Keeps z (removeEntry s num) := by
  simp [removeEntry, hk]
@[simp] theorem keeps_settleClaims {z s : State} (hk : Keeps z s) (e : MoveEntry) (code : ReplyCode) : Keeps z (settleClaims s e code) := by
  unfold settleClaims
  (repeat' split) <;> simp (maxDischargeDepth := 60) [hk]
@[simp] theorem keeps_moveReply {z s : State} (hk : Keeps z s) (e : MoveEntry) (code : ReplyCode) : Keeps z (moveReply s e code) := by
  unfold moveReply
  (repeat' split) <;> simp (maxDischargeDepth := 60) [hk]
@[simp] theorem keeps_completeMove {z s : State} (hk : Keeps z s) (e : MoveEntry) (code : ReplyCode) : Keeps z (completeMove s e code) := by
  simp (maxDischargeDepth := 10) [completeMove, hk]
@[simp] theorem keeps_withdrawEntry {z s : State} (hk : Keeps z s) (e : MoveEntry) : Keeps z (withdrawEntry s e) := by
  unfold withdrawEntry
  (repeat' split) <;> simp (maxDischargeDepth := 60) [hk]
@[simp] theorem keeps_portMovesLoss {z s : State} (hk : Keeps z s) (p : Port) : Keeps z (portMovesLoss s p) := by
  simp +contextual (maxDischargeDepth := 60) [portMovesLoss, hk, keeps_foldl]


/-! ### AuditOps -/

@[simp] theorem keeps_markPending {z s : State} (hk : Keeps z s) (pea : Nat) : Keeps z (markPending s pea) := by
  simp [markPending, hk]
@[simp] theorem keeps_setLocation {z s : State} (hk : Keeps z s) (l : Label) (pea : Nat) : Keeps z (setLocation s l pea) := by
  simp +contextual (maxDischargeDepth := 60) [setLocation, hk, keeps_modVolume]
@[simp] theorem keeps_vacate {z s : State} (hk : Keeps z s) (old : Location) (pea : Nat) : Keeps z (vacate s old pea) := by
  unfold vacate
  (repeat' split) <;> simp (maxDischargeDepth := 60) [hk]
theorem keeps_created {z s : State} (hk : Keeps z s) {vs : List Volume} {l : Label} {pea : Nat} (hn : s.volume l = none)
    (hc : createVolume s.store.volumes l pea = some vs) : Keeps z (setVolumes s vs) := by
  refine hk.trans ⟨rfl, fun h => ⟨h.1, ?_⟩, id⟩
  refine createVolume_spec h.2.1 h.2.2 (fun w hw he => ?_) hc
  have := List.find?_eq_none.mp hn w hw
  simp [he] at this

@[simp] theorem keeps_reconcile {z s : State} (hk : Keeps z s) (pea : Nat) (read : Option Label) (readDone : List Nat) :
    Keeps z (reconcile s pea read readDone) := by
  unfold reconcile
  extract_lets s1
  have h1 : Keeps z s1 := keeps_displaceFrom hk _ _
  clear_value s1
  split
  · simp [h1]
  · split
    · rename_i hn
      split
      · rename_i hc; exact keeps_setElem (keeps_created h1 hn hc) _ _
      · simp [h1]
    · split
      · simp [h1]
      · simp (maxDischargeDepth := 40) [h1]

@[simp] theorem keeps_bayUnknown {z s : State} (hk : Keeps z s) (b : Bay) : Keeps z (bayUnknown s b) := by
  simp [bayUnknown, hk]
@[simp] theorem keeps_issueMotion {z s : State} (hk : Keeps z s) (m : Motion) (st : PickerState) : Keeps z (issueMotion s m st) := by
  simp [issueMotion, hk]
@[simp] theorem keeps_motionReported {z s : State} (hk : Keeps z s)  : Keeps z (motionReported s) := by
  simp [motionReported, hk]
@[simp] theorem keeps_answerAll {z s : State} (hk : Keeps z s) (kind : ReqKind) (code : ReplyCode) (ws : List (Port × Byte)) : Keeps z (answerAll s kind code ws) := by
  simp +contextual (maxDischargeDepth := 60) [answerAll, hk, keeps_foldl]
@[simp] theorem keeps_oweImport {z s : State} (hk : Keeps z s) : Keeps z (oweImport s) := by
  unfold oweImport; split <;> simp [hk]
@[simp] theorem keeps_importNotice {z s : State} (hk : Keeps z s) (a : AuditRun) : Keeps z (importNotice s a) := by
  simp [importNotice, hk]
@[simp] theorem keeps_completeFull {z s : State} (hk : Keeps z s) (a : AuditRun) : Keeps z (completeFull s a) := by
  simp (maxDischargeDepth := 10) [completeFull, hk]
@[simp] theorem keeps_completeMail {z s : State} (hk : Keeps z s) (a : AuditRun) : Keeps z (completeMail s a) := by
  simp (maxDischargeDepth := 10) [completeMail, hk]
@[simp] theorem keeps_issueQuery {z s : State} (hk : Keeps z s) (b : Bay) : Keeps z (issueQuery s b) := by
  simp [issueQuery, hk]
theorem keeps_askBays {z : State} (a : AuditRun) (bs : List Bay) {s : State} (hk : Keeps z s) : Keeps z (askBays a bs s) := by
  induction bs generalizing s with
  | nil => exact keeps_completeFull hk _
  | cons b bs ih =>
    unfold askBays
    split
    · exact ih hk
    · exact ih (keeps_reconcile hk _ _ _)
    · exact ih (keeps_bayUnknown hk _)
    · exact keeps_issueQuery (keeps_modPicker hk _) _
@[simp] theorem keeps_auditNext {z s : State} (hk : Keeps z s) : Keeps z (auditNext s) := by
  unfold auditNext
  split
  · split
    · simp [hk]
    · split
      · exact keeps_askBays _ _ (keeps_modPicker hk _)
      · simp [hk]
  · exact hk

@[simp] theorem keeps_startFullAudit {z s : State} (hk : Keeps z s)  : Keeps z (startFullAudit s) := by
  simp (maxDischargeDepth := 10) [startFullAudit, hk]
@[simp] theorem keeps_startMailAudit {z s : State} (hk : Keeps z s)  : Keeps z (startMailAudit s) := by
  simp [startMailAudit, hk]
@[simp] theorem keeps_takeReading {z s : State} (hk : Keeps z s) (a : AuditRun) (pea : Nat) (r : Reading) : Keeps z (takeReading s a pea r) := by
  unfold takeReading
  (repeat' split) <;> simp (maxDischargeDepth := 60) [hk]
@[simp] theorem keeps_bayAnswered {z s : State} (hk : Keeps z s) (b : Bay) : Keeps z (bayAnswered s b) := by
  unfold bayAnswered
  split
  · split
    · exact keeps_askBays _ _ (keeps_modPicker hk _)
    · exact hk
  · exact hk



/-! ### PickerOps -/

@[simp] theorem keeps_setPhase {z s : State} (hk : Keeps z s) (num : Nat) (ph : Phase) : Keeps z (setPhase s num ph) := by
  simp [setPhase, hk]
@[simp] theorem keeps_issueOrHold {z s : State} (hk : Keeps z s) (m : Motion) : Keeps z (issueOrHold s m) := by
  simp [issueOrHold, hk]
@[simp] theorem keeps_freePicker {z s : State} (hk : Keeps z s)  : Keeps z (freePicker s) := by
  simp [freePicker, hk]
@[simp] theorem keeps_startCarry {z s : State} (hk : Keeps z s) (e : MoveEntry) : Keeps z (startCarry s e) := by
  simp [startCarry, hk]
@[simp] theorem keeps_startPlace {z s : State} (hk : Keeps z s) (e : MoveEntry) : Keeps z (startPlace s e) := by
  simp [startPlace, hk]
@[simp] theorem keeps_startFetch {z s : State} (hk : Keeps z s) (e : MoveEntry) (pea : Nat) : Keeps z (startFetch s e pea) := by
  simp [startFetch, hk]
@[simp] theorem keeps_stopAudit {z s : State} (hk : Keeps z s)  : Keeps z (stopAudit s) := by
  unfold stopAudit
  (repeat' split) <;> simp (maxDischargeDepth := 60) [hk]
@[simp] theorem keeps_faultPicker {z s : State} (hk : Keeps z s) (r : Option Recovery) : Keeps z (faultPicker s r) := by
  simp [faultPicker, hk]
@[simp] theorem keeps_firstFault {z s : State} (hk : Keeps z s)  : Keeps z (firstFault s) := by
  unfold firstFault
  (repeat' split) <;> simp (maxDischargeDepth := 60) [hk]
@[simp] theorem keeps_clearOwedMarks {z s : State} (hk : Keeps z s)  : Keeps z (clearOwedMarks s) := by
  simp (maxDischargeDepth := 10) [clearOwedMarks, hk]
@[simp] theorem keeps_disablePicker {z s : State} (hk : Keeps z s)  : Keeps z (disablePicker s) := by
  simp +contextual (maxDischargeDepth := 60) [disablePicker, hk, keeps_foldl]
@[simp] theorem keeps_recoveryDone {z s : State} (hk : Keeps z s) (e : MoveEntry) : Keeps z (recoveryDone s e) := by
  simp [recoveryDone, hk]
@[simp] theorem keeps_recoveryObstructed {z s : State} (hk : Keeps z s) (e : MoveEntry) (pea : Nat) : Keeps z (recoveryObstructed s e pea) := by
  unfold recoveryObstructed
  dsimp only
  (repeat' split) <;> simp (maxDischargeDepth := 60) [hk]
@[simp] theorem keeps_fetchReported {z s : State} (hk : Keeps z s) (e : MoveEntry) (pea : Nat) (gripped : Bool) (read : Option Label) : Keeps z (fetchReported s e pea gripped read) := by
  simp (maxDischargeDepth := 10) [fetchReported, hk]
@[simp] theorem keeps_freeClaim {z s : State} (hk : Keeps z s) (pea : Nat) : Keeps z (freeClaim s pea) := keeps_modElement hk pea _ fun _ => rfl
@[simp] theorem keeps_putBackReported {z s : State} (hk : Keeps z s) (e : MoveEntry) (pea : Nat) (read : Option Label) : Keeps z (putBackReported s e pea read) := by
  simp (maxDischargeDepth := 10) [putBackReported, hk]
@[simp] theorem keeps_startThread {z s : State} (hk : Keeps z s) (e : MoveEntry) (b : Bay) : Keeps z (startThread s e b) := by
  simp [startThread, hk]
@[simp] theorem keeps_placeBlocked {z s : State} (hk : Keeps z s) (e : MoveEntry) (pea : Nat) : Keeps z (placeBlocked s e pea) := by
  simp (maxDischargeDepth := 10) [placeBlocked, hk]
@[simp] theorem keeps_placeBlockedTwice {z s : State} (hk : Keeps z s) (e : MoveEntry) (pea : Nat) : Keeps z (placeBlockedTwice s e pea) := by
  simp (maxDischargeDepth := 10) [placeBlockedTwice, hk]
@[simp] theorem keeps_placeReported {z s : State} (hk : Keeps z s) (e : MoveEntry) (pea : Nat) (obstructed : Bool) : Keeps z (placeReported s e pea obstructed) := by
  unfold placeReported
  (repeat' split) <;> simp (maxDischargeDepth := 60) [hk]
@[simp] theorem keeps_resumeHeld {z s : State} (hk : Keeps z s)  : Keeps z (resumeHeld s) := by
  unfold resumeHeld
  (repeat' split) <;> simp (maxDischargeDepth := 60) [hk]
@[simp] theorem keeps_afterAudit {z s : State} (hk : Keeps z s)  : Keeps z (afterAudit s) := by
  simp (maxDischargeDepth := 10) [afterAudit, hk]
@[simp] theorem keeps_setReplied {z s : State} (hk : Keeps z s) (e : MoveEntry) : Keeps z (setReplied s e) := by
  simp [setReplied, hk]
@[simp] theorem keeps_threadFailed {z s : State} (hk : Keeps z s) (b : Bay) : Keeps z (threadFailed s b) := by
  unfold threadFailed
  (repeat' split) <;> simp (maxDischargeDepth := 60) [hk]
@[simp] theorem keeps_unloadEjected {z s : State} (hk : Keeps z s) (e : MoveEntry) : Keeps z (unloadEjected s e) := by
  unfold unloadEjected
  (repeat' split) <;> simp (maxDischargeDepth := 60) [hk]
@[simp] theorem keeps_moveDriveFault {z s : State} (hk : Keeps z s) (b : Bay) : Keeps z (moveDriveFault s b) := by
  unfold moveDriveFault
  dsimp only
  (repeat' split) <;> simp (maxDischargeDepth := 60) [hk]
@[simp] theorem keeps_startUnload {z s : State} (hk : Keeps z s) (e : MoveEntry) (b : Bay) : Keeps z (startUnload s e b) := by
  simp (maxDischargeDepth := 10) [startUnload, hk]
@[simp] theorem keeps_startEntry {z s : State} (hk : Keeps z s) (e : MoveEntry) : Keeps z (startEntry s e) := by
  unfold startEntry
  (repeat' split) <;> simp (maxDischargeDepth := 60) [hk]
@[simp] theorem keeps_takeReplied {z s : State} (hk : Keeps z s) (e : MoveEntry) : Keeps z (takeReplied s e) := by
  simp [takeReplied, hk]
@[simp] theorem keeps_nextWork {z s : State} (hk : Keeps z s)  : Keeps z (nextWork s) := by
  unfold nextWork
  dsimp only
  (repeat' split) <;> simp (maxDischargeDepth := 60) [hk]


/-! ### BayDown -/

@[simp] theorem keeps_activityDown {z s : State} (hk : Keeps z s) (b : Bay) (a : Activity) : Keeps z (activityDown s b a) := by
  unfold activityDown
  (repeat' split) <;> simp (maxDischargeDepth := 60) [hk]
@[simp] theorem keeps_auditSilent {z s : State} (hk : Keeps z s) (b : Bay) : Keeps z (auditSilent s b) := by
  simp (maxDischargeDepth := 10) [auditSilent, hk]
@[simp] theorem keeps_bayDown {z s : State} (hk : Keeps z s) (b : Bay) (st : DriveState) : Keeps z (bayDown s b st) := by
  simp (maxDischargeDepth := 10) [bayDown, hk]
@[simp] theorem keeps_orderBroken {z s : State} (hk : Keeps z s) (b : Bay) : Keeps z (orderBroken s b) := by
  simp [orderBroken, hk]


/-! ### SettingsOps -/

@[simp] theorem keeps_configDone {z s : State} (hk : Keeps z s) (q : ConfigRequest) : Keeps z (configDone s q) := by
  simp [configDone, hk]
/-- What a CONFIGURE that no test of R182 refuses has been found to have. -/
theorem configRefusal_none {s : State} {es : List SettingEntry} (h : configRefusal s es = none) :
    sumsHeld (s.settings.with es) = true ∧ s.buffer.allotmentsFit s.creditEnv (s.settings.with es) = true := by
  unfold configRefusal at h
  dsimp only at h
  simp only [firstRefusal] at h
  repeat' split at h
  all_goals first
    | (cases h; done)
    | skip
  rename_i _ h2 _ _ h5
  simp only [Bool.or_eq_true, not_or, Bool.not_eq_true'] at h2 h5
  exact ⟨by simpa using h2.2, by simpa using h5⟩

@[simp] theorem keeps_settleMisplaced {z s : State} (hk : Keeps z s) : Keeps z (settleMisplaced s) :=
  keeps_elements hk _ fun e => by (repeat' split) <;> rfl

theorem creditNotice_keeps (old : Buffer) (s : State) (p : Port) : (creditNotice old s p).buffer = s.buffer
    ∧ (creditNotice old s p).store = s.store ∧ (creditNotice old s p).pending = s.pending
    ∧ (creditNotice old s p).strap = s.strap ∧ (creditNotice old s p).elements = s.elements := by
  unfold creditNotice; dsimp only; split <;> exact ⟨rfl, rfl, rfl, rfl, rfl⟩
/-- What a change of the buffer leaves alone. -/
theorem onBuffer_keeps (s : State) (f) : (onBuffer s f).buffer = f s.creditEnv s.buffer ∧ (onBuffer s f).store = s.store
    ∧ (onBuffer s f).pending = s.pending ∧ (onBuffer s f).strap = s.strap ∧ (onBuffer s f).elements = s.elements := by
  simp [onBuffer, creditNotice_keeps]

theorem onBuffer_storeWrite (s : State) (f) : (onBuffer s f).storeWrite = s.storeWrite := by
  have h : ∀ (old : Buffer) (t : State) (p : Port), (creditNotice old t p).storeWrite = t.storeWrite := by
    intro old t p; unfold creditNotice; dsimp only; split <;> rfl
  simp only [onBuffer, h]

/-- A CONFIGURE taken keeps the law: what moves is FREE, and is set aside (no write goes on: the store takes one at a time). -/
theorem keeps_beginWrite {z s : State} (hk : Keeps z s) (hw : s.storeWrite = none) (q : ConfigRequest) (rest : List ConfigRequest)
    (hr : configRefusal s q.entries = none) : Keeps z (beginWrite s q rest) := by
  obtain ⟨hs, hc⟩ := configRefusal_none hr
  refine hk.trans ⟨rfl, id, fun h => ⟨h.1, ?_, fun q' hq' => ?_⟩⟩
  · have h1 : s.buffer.lawful s.settings := by
      rw [lawful_iff_owes]
      have := h.2.1
      rwa [(aside_none hw).1, (aside_none hw).2] at this
    have h2 := owes_setAside (movesFree_of_fit (v := s.creditEnv) h.1 hs hc) h1
    have hb : (beginWrite s q rest).storeWrite = some q := rfl
    rw [(aside_some hb).1, (aside_some hb).2]
    exact h2
  · cases hq'
    exact hs

/-- The write complete: what was set aside stands in its new origins, and the new values in the store. -/
theorem keeps_written {z s : State} (hk : Keeps z s) {q : ConfigRequest} (hq : s.storeWrite = some q) (rs : List ReleaseWrite) (n : Nat) :
    Keeps z { (onBuffer s fun v b => b.landMoved v (s.settings.with q.entries)) with
      store := { s.store with settings := s.settings.with q.entries }, storeWrite := none, releaseWrites := rs, scratchPointer := n } := by
  obtain ⟨hb, hst, hp, hsp, he⟩ := onBuffer_keeps s fun v b => b.landMoved v (s.settings.with q.entries)
  refine hk.trans ⟨hp, ?_, fun h => ⟨h.2.2 q hq, ?_, by simp⟩⟩
  · simp only [State.tablesHold, hsp, he]; exact id
  · have h1 : s.buffer.owes s.settings (movedUnits s.settings (s.settings.with q.entries))
        (movedDescs s.settings (s.settings.with q.entries)) := by
      have := h.2.1
      rwa [(aside_some hq).1, (aside_some hq).2] at this
    have h2 := lawful_landMoved (v := s.creditEnv) h1
    rw [lawful_iff_owes, ← hb] at h2
    rw [(aside_none rfl).1, (aside_none rfl).2]
    exact h2

/-- The values of a CONFIGURE taken, in effect when its write has completed. -/
theorem keeps_landed {z s : State} (hk : Keeps z s) {q : ConfigRequest} (hq : s.storeWrite = some q) (rs : List ReleaseWrite) :
    Keeps z { applySettings (onBuffer s fun v b => b.landMoved v (s.settings.with q.entries)) (s.settings.with q.entries) with
      storeWrite := none, releaseWrites := rs } := by
  obtain ⟨-, hst, -, -, -⟩ := onBuffer_keeps s fun v b => b.landMoved v (s.settings.with q.entries)
  have h0 := keeps_written hk hq rs 0
  have h1 := keeps_written hk hq rs (onBuffer s fun v b => b.landMoved v (s.settings.with q.entries)).scratchPointer
  generalize (onBuffer s fun v b => b.landMoved v (s.settings.with q.entries)) = u at *
  unfold applySettings
  rw [hst]
  split
  · exact keeps_settleMisplaced h0
  · exact h1

theorem storeWrite_answerHeld (s : State) (p : Port) (tag : Option Byte) (kind : ReqKind) (code : ReplyCode) (body : ReplyBody)
    (clamped : Bool) : (answerHeld s p tag kind code body clamped).storeWrite = s.storeWrite := by
  unfold answerHeld
  (repeat' split) <;> rfl

/-- What a reset undoes of a release leaves the label (R12's order and count stand). -/
@[simp] theorem unreleased_label (rs : List ReleaseWrite) (v : Volume) : (unreleased rs v).label = v.label := by
  induction rs with
  | nil => rfl
  | cons r rs ih =>
    simp only [unreleased, List.foldr_cons] at ih ⊢
    split <;> exact ih
@[simp] theorem unreleased_nil (v : Volume) : unreleased [] v = v := rfl

@[simp] theorem keeps_releaseWritten {z s : State} (hk : Keeps z s) (r : ReleaseWrite) (rest : List ReleaseWrite) :
    Keeps z (releaseWritten s r rest) := keeps_answerHeld (keeps_releaseWrites hk rest) _ _ _ _ _ _

/-- Which release the store is writing: the oldest, or none. -/
theorem releaseInStore_cases (s : State) :
    (s.releaseInStore = none ∧ (s.releaseWrites = [] ∨ s.storeWrite.isSome = true))
    ∨ ∃ r rest, s.releaseWrites = r :: rest ∧ s.releaseInStore = some (r, rest) ∧ (r.behind = false ∨ s.storeWrite = none) := by
  unfold State.releaseInStore
  split
  · rename_i r rest h
    split
    · rename_i hb
      simp only [Bool.and_eq_true] at hb
      exact .inl ⟨rfl, .inr hb.2⟩
    · rename_i hb
      refine .inr ⟨r, rest, h, rfl, ?_⟩
      cases hr : r.behind <;> cases hq : s.storeWrite <;> simp_all
  · rename_i h
    exact .inl ⟨rfl, .inl h⟩

theorem keeps_takeConfigs {z : State} (ws : List ConfigRequest) {s : State} (hk : Keeps z s) (hw : s.storeWrite = none) :
    Keeps z (takeConfigs s ws) := by
  induction ws generalizing s with
  | nil => exact keeps_configWaiting hk _
  | cons q ws ih =>
    unfold takeConfigs
    split
    · exact ih (keeps_answerHeld hk _ _ _ _ _ _) (by rw [storeWrite_answerHeld, hw])
    · rename_i hr
      split
      · exact ih (keeps_configDone hk _) (by rw [configDone, storeWrite_answerHeld, hw])
      · exact keeps_beginWrite hk hw q ws hr

theorem keeps_configWritten {z s : State} (hk : Keeps z s) {q : ConfigRequest} (hq : s.storeWrite = some q) :
    Keeps z (configWritten s q) := by
  unfold configWritten
  refine keeps_takeConfigs _ (keeps_bufSettle (keeps_configDone (keeps_landed hk hq _) q)) ?_
  rw [onBuffer_storeWrite, configDone, storeWrite_answerHeld]

/-! ### Links -/

@[simp] theorem keeps_linkUp {z s : State} (hk : Keeps z s) (p : Port) : Keeps z (linkUp s p) := by
  simp (maxDischargeDepth := 10) [linkUp, hk]
/-- The tag of a CONFIGURE gone: its entries stand, and the allotments with them. -/
theorem keeps_untag {z s : State} (hk : Keeps z s) (p : Port) (ws : List ConfigRequest) (rs : List ReleaseWrite) :
    Keeps z { s with storeWrite := s.storeWrite.map (ConfigRequest.untag p), configWaiting := ws, releaseWrites := rs } := by
  have he : ∀ q : ConfigRequest, (q.untag p).entries = q.entries := fun q => by unfold ConfigRequest.untag; split <;> rfl
  refine hk.trans ⟨rfl, id, fun h => ⟨h.1, ?_, ?_⟩⟩
  · have h1 := h.2.1
    cases hq : s.storeWrite with
    | none =>
      rw [(aside_none hq).1, (aside_none hq).2] at h1
      rw [(aside_none rfl).1, (aside_none rfl).2]
      exact h1
    | some q =>
      rw [(aside_some hq).1, (aside_some hq).2] at h1
      rw [(aside_some rfl).1, (aside_some rfl).2, he]
      exact h1
  · intro q hq
    obtain ⟨q', hq', rfl⟩ := Option.map_eq_some_iff.mp hq
    rw [he]
    exact h.2.2 q' hq'

@[simp] theorem keeps_linkLost {z s : State} (hk : Keeps z s) (p : Port) : Keeps z (linkLost s p) := by
  have h2 := keeps_untag (keeps_modPort hk p PortCtl.wentDown) p (s.configWaiting.map (ConfigRequest.untag p))
    (s.releaseWrites.map (ReleaseWrite.untag p))
  exact keeps_portVerifiesLoss (keeps_portRestoresLoss (keeps_portStreamsLoss (keeps_portMovesLoss (keeps_bufDetach h2 p) p) p) p) p

@[simp] theorem keeps_beginHold {z s : State} (hk : Keeps z s) (p : Port) : Keeps z (beginHold s p) := by
  simp [beginHold, hk]
@[simp] theorem keeps_holdExpired {z s : State} (hk : Keeps z s) (p : Port) : Keeps z (holdExpired s p) := by
  simp (maxDischargeDepth := 10) [holdExpired, hk]
@[simp] theorem keeps_markIfOwed {z s : State} (hk : Keeps z s) (p : Port) (b : Bay) : Keeps z (markIfOwed s p b) := by
  simp [markIfOwed, hk]
@[simp] theorem keeps_holdExpiry {z s : State} (hk : Keeps z s) (p : Port) : Keeps z (holdExpiry s p) := by
  simp (maxDischargeDepth := 10) [holdExpiry, hk]


/-! ### MoveRequests -/

theorem keeps_decideMove {z s : State} (hk : Keeps z s) (p tag kind tests) (f : State) (hf : Keeps z f) :
    Keeps z (decideMove s p tag kind tests f) := by
  unfold decideMove
  split
  · simp [hk]
  · exact hf

@[simp] theorem keeps_takeDrive {z s : State} (hk : Keeps z s) (p : Port) (b : Option Bay) : Keeps z (takeDrive s p b) := by
  unfold takeDrive
  (repeat' split) <;> simp (maxDischargeDepth := 60) [hk]
@[simp] theorem keeps_acceptRecover {z s : State} (hk : Keeps z s) (p : Port) (tag : Byte) (dest : Option Nat) : Keeps z (acceptRecover s p tag dest) := by
  simp (maxDischargeDepth := 10) [acceptRecover, hk]
@[simp] theorem keeps_nothingGripped {z s : State} (hk : Keeps z s) : Keeps z (nothingGripped s) := by
  unfold nothingGripped
  exact keeps_modPicker (keeps_setElem (keeps_mapVolumes hk _ fun v => by split <;> rfl) _ _) _



/-! ### Reports -/

@[simp] theorem keeps_settleReleased {z s : State} (hk : Keeps z s) (v : Volume) : Keeps z (settleReleased s v) := by
  unfold settleReleased
  split
  · exact keeps_modElement hk _ _ fun e => by split <;> rfl
  · exact hk



@[simp] theorem keeps_beginRelease {z s : State} (hk : Keeps z s) (p : Port) (tag : Byte) (v : Volume) : Keeps z (beginRelease s p tag v) :=
  keeps_releaseWrites (keeps_settleReleased (keeps_modVolume hk v.label Volume.released fun _ => rfl) v) _

/-! ### StreamRequests -/

@[simp] theorem keeps_acceptOpen {z s : State} (hk : Keeps z s) (p : Port) (tag : Byte) (b : Bay) (v : Volume) (mode shrink : Byte) (n : Nat) : Keeps z (acceptOpen s p tag b v mode shrink n) := by
  simp (maxDischargeDepth := 10) [acceptOpen, hk]
@[simp] theorem keeps_haltWrite {z s : State} (hk : Keeps z s) (p : Port) (b : Bay) (kind : ReqKind) (stream : Byte) (code : ReplyCode) : Keeps z (haltWrite s p b kind stream code) := by
  simp [haltWrite, hk]
@[simp] theorem keeps_notOpenWrite {z s : State} (hk : Keeps z s) (p : Port) (b : Bay) (kind : ReqKind) (stream : Byte) : Keeps z (notOpenWrite s p b kind stream) := by
  unfold notOpenWrite
  dsimp only
  (repeat' split) <;> simp (maxDischargeDepth := 60) [hk]
@[simp] theorem keeps_joinRecord {z s : State} (hk : Keeps z s) (b : Bay) (kind : RecKind) (len : Nat) (st : RecState) (id : Nat) : Keeps z (joinRecord s b kind len st id) := by
  simp [joinRecord, hk]
theorem keeps_acceptRecord {z s : State} (hk : Keeps z s) (p : Port) (b : Bay) (kind : RecKind) (raw : List Byte)
    (hw : windowsHold s.buffer p (unitsFor raw.length) = true) : Keeps z (acceptRecord s p b kind raw) := by
  unfold acceptRecord
  extract_lets id s1
  have h1 : Keeps z s1 := keeps_onBuffer hk _ (fun _ _ h => owes_consume p _ raw hw h)
  clear_value id s1
  simp (maxDischargeDepth := 40) [h1]

theorem keeps_acceptMark {z s : State} (hk : Keeps z s) (p : Port) (b : Bay)
    (hw : windowsHold s.buffer p 0 = true) : Keeps z (acceptMark s p b) := by
  unfold acceptMark
  extract_lets id s1
  have h1 : Keeps z s1 := keeps_onBuffer hk _ (fun _ _ h => owes_consume p _ [] hw h)
  clear_value id s1
  simp (maxDischargeDepth := 40) [h1]

theorem keeps_onStream {z s : State} (hk : Keeps z s) (p tag kind stream bad) (f : State → Bay → State)
    (hf : ∀ b, Keeps z (f s b)) : Keeps z (onStream s p tag kind stream bad f) := by
  unfold onStream
  repeat' split
  all_goals first
    | exact hf _
    | simp [hk]

@[simp] theorem keeps_drainStream {z s : State} (hk : Keeps z s) (b : Bay) (q : Closing) : Keeps z (drainStream s b q) := by
  simp [drainStream, hk]


/-! ### RunRequests -/

@[simp] theorem keeps_acceptRead {z s : State} (hk : Keeps z s) (p : Port) (tag : Byte) (b : Bay) (v : Volume) (a : Address) (stop : Bool) (count target : Nat) : Keeps z (acceptRead s p tag b v a stop count target) := by
  simp (maxDischargeDepth := 10) [acceptRead, hk]
@[simp] theorem keeps_decideRead {z s : State} (hk : Keeps z s) (p : Port) (tag : Byte) (b : Bay) (form stop : Byte) (count : Nat) (first k e : Word) : Keeps z (decideRead s p tag b form stop count first k e) := by
  unfold decideRead
  (repeat' split) <;> simp (maxDischargeDepth := 60) [hk]
@[simp] theorem keeps_acceptVerify {z s : State} (hk : Keeps z s) (p : Port) (tag : Byte) (b : Bay) (v : Volume) (f : VerifyForm) : Keeps z (acceptVerify s p tag b v f) := by
  simp (maxDischargeDepth := 10) [acceptVerify, hk]
@[simp] theorem keeps_decideVerify {z s : State} (hk : Keeps z s) (p : Port) (tag : Byte) (b : Bay) (form : Byte) (a n : Word) : Keeps z (decideVerify s p tag b form a n) := by
  unfold decideVerify
  (repeat' split) <;> simp (maxDischargeDepth := 60) [hk]
@[simp] theorem keeps_abortStream {z s : State} (hk : Keeps z s) (p : Port) (tag : Byte) (b : Bay) : Keeps z (abortStream s p tag b) := by
  unfold abortStream
  (repeat' split) <;> simp (maxDischargeDepth := 60) [hk]
@[simp] theorem keeps_abortBay {z s : State} (hk : Keeps z s) (p : Port) (tag : Byte) (b : Bay) : Keeps z (abortBay s p tag b) := by
  simp (maxDischargeDepth := 10) [abortBay, hk]
@[simp] theorem keeps_closeLeftRestore {z s : State} (hk : Keeps z s) (b : Bay) : Keeps z (closeLeftRestore s b) := by
  unfold closeLeftRestore
  split <;> simp [hk]
@[simp] theorem keeps_closeLeftVerify {z s : State} (hk : Keeps z s) (b : Bay) : Keeps z (closeLeftVerify s b) := by
  unfold closeLeftVerify
  split <;> simp [hk]


/-! ### PickerEvents -/

@[simp] theorem keeps_homed {z s : State} (hk : Keeps z s)  : Keeps z (homed s) := by
  unfold homed
  (repeat' split) <;> simp (maxDischargeDepth := 60) [hk]
@[simp] theorem keeps_mapPhases {z s : State} (hk : Keeps z s) (f : Phase → Phase) : Keeps z (mapPhases s f) := by
  simp [mapPhases, hk]
@[simp] theorem keeps_stopPicker {z s : State} (hk : Keeps z s)  : Keeps z (stopPicker s) := by
  simp (maxDischargeDepth := 10) [stopPicker, hk]
@[simp] theorem keeps_resumeMotion {z s : State} (hk : Keeps z s)  : Keeps z (resumeMotion s) := by
  simp [resumeMotion, hk]
@[simp] theorem keeps_resumeMove {z s : State} (hk : Keeps z s)  : Keeps z (resumeMove s) := by
  simp (maxDischargeDepth := 10) [resumeMove, hk]
@[simp] theorem keeps_restartPicker {z s : State} (hk : Keeps z s)  : Keeps z (restartPicker s) := by
  unfold restartPicker
  (repeat' split) <;> simp (maxDischargeDepth := 60) [hk]
@[simp] theorem keeps_mailUnknown {z s : State} (hk : Keeps z s) (pea : Nat) : Keeps z (mailUnknown s pea) := by
  simp [mailUnknown, hk]


/-! ### DriveReplies -/

@[simp] theorem keeps_threadedGood {z s : State} (hk : Keeps z s) (b : Bay) (cls : Nat) (wp : Bool) : Keeps z (threadedGood s b cls wp) := by
  unfold threadedGood
  dsimp only
  (repeat' split) <;> simp (maxDischargeDepth := 60) [hk]
@[simp] theorem keeps_threadedBad {z s : State} (hk : Keeps z s) (b : Bay) : Keeps z (threadedBad s b) := by
  simp [threadedBad, hk]
@[simp] theorem keeps_loadFailed {z s : State} (hk : Keeps z s) (b : Bay) (f : Drive → Drive) : Keeps z (loadFailed s b f) := by
  simp (maxDischargeDepth := 10) [loadFailed, hk]
@[simp] theorem keeps_unloadDone {z s : State} (hk : Keeps z s) (b : Bay) : Keeps z (unloadDone s b) := by
  unfold unloadDone
  dsimp only
  (repeat' split) <;> simp (maxDischargeDepth := 60) [hk]
@[simp] theorem keeps_owedAtStart {z s : State} (hk : Keeps z s) (b : Bay) : Keeps z (owedAtStart s b) := by
  simp [owedAtStart, hk]
@[simp] theorem keeps_statusPresent {z s : State} (hk : Keeps z s) (b : Bay) (l : Option Label) (threaded : Bool) (cls : Nat) (wp : Bool) : Keeps z (statusPresent s b l threaded cls wp) := by
  simp (maxDischargeDepth := 10) [statusPresent, hk]
@[simp] theorem keeps_statusAbsent {z s : State} (hk : Keeps z s) (b : Bay) : Keeps z (statusAbsent s b) := by
  simp [statusAbsent, hk]
@[simp] theorem keeps_positionReported {z s : State} (hk : Keeps z s) (b : Bay) (frame : Nat) : Keeps z (positionReported s b frame) := by
  simp (maxDischargeDepth := 10) [positionReported, hk]
@[simp] theorem keeps_locateBlank {z s : State} (hk : Keeps z s) (b : Bay) (a : Nat) : Keeps z (locateBlank s b a) := by
  simp (maxDischargeDepth := 10) [locateBlank, hk]
@[simp] theorem keeps_readFailed {z s : State} (hk : Keeps z s) (b : Bay) (block : Nat) : Keeps z (readFailed s b block) := by
  simp [readFailed, hk]
@[simp] theorem keeps_commitRecord {z s : State} (hk : Keeps z s) (b : Bay) (f : Flight) (r : Rec) : Keeps z (commitRecord s b f r) := by
  unfold commitRecord
  (repeat' split) <;> simp (maxDischargeDepth := 60) [hk]
@[simp] theorem keeps_commitTaken {z s : State} (hk : Keeps z s) (b : Bay) (f : Flight) (later : List Flight) : Keeps z (commitTaken s b f later) := by
  unfold commitTaken
  dsimp only
  (repeat' split) <;> simp (maxDischargeDepth := 60) [hk]
@[simp] theorem keeps_askGap {z s : State} (hk : Keeps z s) (b : Bay) (r last : Nat) : Keeps z (askGap s b r last) := by
  simp (maxDischargeDepth := 10) [askGap, hk]
@[simp] theorem keeps_faultTaken {z s : State} (hk : Keeps z s) (b : Bay) (f : Flight) (later : List Flight) : Keeps z (faultTaken s b f later) := by
  simp (maxDischargeDepth := 10) [faultTaken, hk]
@[simp] theorem keeps_gapTaken {z s : State} (hk : Keeps z s) (b : Bay) : Keeps z (gapTaken s b) := by
  simp (maxDischargeDepth := 10) [gapTaken, hk]
@[simp] theorem keeps_dataTaken {z s : State} (hk : Keeps z s) (b : Bay) (block : Nat) (h : TapeHeader) (stored : List Byte) : Keeps z (dataTaken s b block h stored) := by
  unfold dataTaken
  dsimp only
  (repeat' split) <;> simp (maxDischargeDepth := 60) [hk]
@[simp] theorem keeps_readFaulted {z s : State} (hk : Keeps z s) (b : Bay) (block : Nat) : Keeps z (readFaulted s b block) := by
  simp [readFaulted, hk]


/-! ### EngineEvents -/

@[simp] theorem keeps_takeItem {z s : State} (hk : Keeps z s) (i : Item) : Keeps z (takeItem s i) := by
  simp [takeItem, hk]
@[simp] theorem keeps_engineFree {z s : State} (hk : Keeps z s)  : Keeps z (engineFree s) := by
  simp [engineFree, hk]
@[simp] theorem keeps_shrinkDiscarded {z s : State} (hk : Keeps z s) (b : Bay) (r : Rec) : Keeps z (shrinkDiscarded s b r) := by
  simp (maxDischargeDepth := 10) [shrinkDiscarded, hk]
@[simp] theorem keeps_shrinkStored {z s : State} (hk : Keeps z s) (b : Bay) (r : Rec) (x : Form × List Byte) : Keeps z (shrinkStored s b r x) := by
  simp (maxDischargeDepth := 10) [shrinkStored, hk]
@[simp] theorem keeps_shrinkTaken {z s : State} (hk : Keeps z s) (i : Item) (on : Bool) : Keeps z (shrinkTaken s i on) := by
  unfold shrinkTaken
  (repeat' split) <;> simp (maxDischargeDepth := 60) [hk]
@[simp] theorem keeps_deliverGood {z s : State} (hk : Keeps z s) (b : Bay) (e : Staged) (i : Item) (raw : List Byte) : Keeps z (deliverGood s b e i raw) := by
  simp (maxDischargeDepth := 10) [deliverGood, hk]
@[simp] theorem keeps_deliverFailed {z s : State} (hk : Keeps z s) (b : Bay) (r : RestoreRun) (e : Staged) (i : Item) (code : ReplyCode) : Keeps z (deliverFailed s b r e i code) := by
  simp (maxDischargeDepth := 10) [deliverFailed, hk]
@[simp] theorem keeps_deliverResult {z s : State} (hk : Keeps z s) (i : Item) (x : List Byte × CheckResult) : Keeps z (deliverResult i x s) := by
  unfold deliverResult
  (repeat' split) <;> simp (maxDischargeDepth := 60) [hk]
@[simp] theorem keeps_deliverTaken {z s : State} (hk : Keeps z s) (i : Item) : Keeps z (deliverTaken s i) :=
  keeps_onRunOf hk _ _ _ fun _ h => keeps_deliverResult h _ _
@[simp] theorem keeps_checkResult {z s : State} (hk : Keeps z s) (i : Item) (res : CheckResult) : Keeps z (checkResult i res s) := by
  unfold checkResult
  (repeat' split) <;> simp (maxDischargeDepth := 60) [hk]
@[simp] theorem keeps_verifyCheckTaken {z s : State} (hk : Keeps z s) (i : Item) (res : CheckResult) : Keeps z (verifyCheckTaken s i res) :=
  keeps_onVerifyOf hk _ _ _ fun _ h => keeps_checkResult h _ _
@[simp] theorem keeps_indexResolved {z s : State} (hk : Keeps z s) (b : Bay) (r : RestoreRun) (x : IndexRead) (entry : Option Nat) : Keeps z (indexResolved s b r x entry) := by
  unfold indexResolved
  (repeat' split) <;> simp (maxDischargeDepth := 60) [hk]
@[simp] theorem keeps_indexCheckTaken {z s : State} (hk : Keeps z s) (i : Item) (res : CheckResult) (e : Nat) : Keeps z (indexCheckTaken s i res e) := by
  unfold indexCheckTaken
  (repeat' split) <;> simp (maxDischargeDepth := 60) [hk]


/-! ### BufferEvents -/

theorem keeps_dropRead {z s : State} (hk : Keeps z s) (b : Bay) : Keeps z { s with buffer := s.buffer.dropRead b } :=
  keeps_buffer hk _ (fun _ _ h => owes_same h rfl rfl rfl rfl rfl rfl)
@[simp] theorem keeps_readIssued {z s : State} (hk : Keeps z s) (b : Bay) (r : RestoreRun) (id : Option Nat) :
    Keeps z (readIssued s b r id) := by
  unfold readIssued
  extract_lets s1
  have h1 : Keeps z s1 := keeps_dropRead hk b
  clear_value s1
  repeat' split
  all_goals simp (maxDischargeDepth := 40) [h1, hk]

theorem keeps_reservationMet {z s : State} (hk : Keeps z s) (b : Bay) (r : VerifyRun) (hw : s.buffer.reserveWhole = true) :
    Keeps z (reservationMet s b r) := by
  unfold reservationMet
  extract_lets id s1
  have h1 : Keeps z s1 := keeps_onBuffer hk _ (fun _ _ h =>
    owes_takeReserve hw (owes_same h rfl rfl rfl rfl rfl rfl))
  clear_value id s1
  simp (maxDischargeDepth := 40) [h1]

@[simp] theorem keeps_expandReady {z s : State} (hk : Keeps z s) (b : Bay) (id : Option Nat) : Keeps z (expandReady b id s) := by
  simp [expandReady, hk]
@[simp] theorem keeps_frameEnded {z s : State} (hk : Keeps z s) (p : Port) (f : Frame) : Keeps z (frameEnded s p f) := by
  unfold frameEnded
  repeat' split
  · simp [hk]
  · exact hk
  · exact hk
  · exact keeps_bufSettle (keeps_onRunOf hk _ _ _ fun _ h => keeps_recordDelivered h _ _ _)
@[simp] theorem keeps_idleCommit {z s : State} (hk : Keeps z s) (p : Port) (b : Bay) : Keeps z (idleCommit s p b) := by
  unfold idleCommit
  dsimp only
  split <;> simp [hk]

@[simp] theorem keeps_idleReport {z s : State} (hk : Keeps z s) (p : Port) : Keeps z (idleReport s p) := by
  simp (maxDischargeDepth := 10) [idleReport, hk]


/-! ### Clock -/

theorem keeps_tick {z s : State} (hk : Keeps z s) : Keeps z (tick s) := hk.of_eq rfl rfl rfl rfl rfl rfl

end Sys2Proof.Machine
end

