-- ==== Sys2Proof/WellFormed.lean ====
section
/-! DEFINITION. Which commands can come about: the ranges of the fields that a command's Lean type leaves wider than
the block, drive or reader that sends it. A command that is not well-formed is one that no line can carry. -/

namespace Sys2Proof

/-- A block address or frame count as a drive reports it: 4 bytes (R185, R186). -/
def fitsWord (n : Nat) : Bool := decide (n < 4294967296)

/-- What the label reader or a drive reports is a label of the 36 characters, or no label (R7, R12). -/
def labelReadOk : Option Label → Bool
  | some l => l.valid
  | none => true

/-- Well-formed commands. -/
def Instr.wellFormed : Instr → Bool
  | .configure _ _ entries => decide (entries.length ≤ 26)
  | .writeRecord _ _ _ raw => decide (raw.length ≤ 65531)
  | .unknownRequest _ type kind _ body => decide (body.length ≤ 65535) && !blockKnown type kind body
  | .fetchComplete _ label => labelReadOk label
  | .auditSlotReading (.label l) => l.valid
  | .status _ _ label _ cls _ => labelReadOk label && decide (cls < 256)
  | .threaded _ cls _ => decide (cls < 256)
  | .located _ block frame => fitsWord block && fitsWord frame
  | .committed _ block => fitsWord block
  | .writeFault _ block => fitsWord block
  | .data _ block _ stored => fitsWord block && decide (stored.length < 4294967296)
  | .readFault _ block => fitsWord block
  | _ => true

end Sys2Proof
end

