-- ==== Sys2Proof/Tests/Slice0.lean ====
section
/-! SUPPORT. The model's own tests: ill-formed commands refused by each check of WellFormed, request blocks written out from Table
10-2, figures that the spec works out, and, for each statement of Certificates/Slice0 with hypotheses, a state and operands that
meet them. -/

namespace Sys2Proof.Tests

open Sys2Proof.Machine

-- One test after another: each waits for the kernel, and a hundred that wait at once take a thread each.
set_option Elab.async false

/-! ### Small states -/

/-- The labels VOL00001 and so on, and one that no record carries. -/
def l1 : Label := ⟨0x564F4C3030303031⟩
def l2 : Label := ⟨0x564F4C3030303032⟩
def l9 : Label := ⟨0x564F4C3030303039⟩

/-- A volume with ten blocks, one mark at block 4. -/
def vol2 (loc : Location) : Volume :=
  { newVolume l2 17 with owner := some .p0, location := loc, cls := some 1, eod := some 10, framesUsed := 40, marks := [4] }

def fill (st : ElemState) (pea : Nat) (s : State) : State := setElem s pea st

/-- Every port UP, the library READY; VOL00001 scratch in slot 16, VOL00002 of P0 in slot 17, everything else EMPTY. -/
def ready : State :=
  { State.reset with
    picker := { State.reset.picker with state := .idle, condition := .ready, timer := .stopped, motion := none, startupDue := false }
    ports := .all { PortCtl.reset with up := true }
    elements := (installedPeas 0).map fun q => ⟨q, if q = 16 then .full (some l1) .normal else if q = 17 then
      .full (some l2) .normal else .empty, none⟩
    store := { State.reset.store with volumes := [newVolume l1 16, vol2 (.element 17)] } }

/-- VOL00002 threaded in D0 for P0, the drive at block 0 and frame 0. -/
def loaded : State :=
  { (fill (.full (some l2) .normal) 1 (fill .empty 17 ready)).modDrive .d0 fun d =>
      { d with state := .idle, volume := some l2, claim := some .p0, position := some ⟨some 0, some 0⟩ }
    with store := { ready.store with volumes := [newVolume l1 16, vol2 (.element 1)] } }

/-- A record of four bytes that stands in descriptor 0, and its tape header. -/
def raw4 : List Byte := [1, 2, 3, 4]
def rec0 : Rec := ⟨0, .data, 4, .stored, some ⟨.plain, 4, checkWord raw4⟩, none, 0, 0, none⟩
def head4 : TapeHeader := ⟨0, 0, 0, 4, 4, checkWord raw4, 0⟩

/-- D0's stream OPEN for P0, in state `st`, its drive IDLE and free of orders. -/
def streaming (st : StreamState) : State :=
  (loaded.modDrive .d0 fun d => { d with activity := .stream .p0, position := some ⟨some 10, some 40⟩ }).modStream .d0 fun c =>
    { c with state := st, port := some .p0, volume := some l2, start := 10, nextBlock := 10 }

/-- The stream with one block in flight. -/
def writing : State :=
  ((streaming .open).modDrive .d0 fun d =>
    { d with state := .writing, inFlight := [⟨10, false, 2, 0, head4⟩], timer := .running 600000,
             position := some ⟨some 11, some 42⟩ }).modStream .d0 fun c =>
    { c with records := [{ rec0 with state := .inDrive, block := some 10, writes := 1 }], nextRecord := 1, nextBlock := 11 }

/-- A descriptor in hand, number 0, of P0's read home. -/
def held0 : Desc := ⟨0, .readHome .p0, List.replicate 64 (.readHome .p0), [], [], []⟩

/-- A restore run of P0 on D0, reading. -/
def run0 : RestoreRun :=
  { phase := .reading, port := .p0, tag := some 0, volume := l2, address := .block 0, count := 256, clamped := false,
    stopAtMark := false, eod := 10, target := 0, start := some 0, next := 0, blocksRead := 0, delivered := 0, markRead := false,
    staged := [], index := none, ending := none, aborts := [] }

def restoring (staged : List Staged) : State :=
  { (loaded.setRestore .d0 (some { run0 with staged := staged })).modDrive .d0 fun d => { d with activity := .restore .p0 }
    with buffer := { State.reset.buffer with descs := [held0] } }

/-- A verify run of P0 on D0. -/
def pass0 : VerifyRun :=
  { phase := .reserving, port := .p0, tag := some 0, volume := l2, form := .full, start := 0, limit := 10, eod := 10, next := 0,
    checked := 0, inHand := none, driveFailed := false, ending := none, aborts := [] }

def verifying (r : VerifyRun) : State :=
  (loaded.setVerify .d0 (some r)).modDrive .d0 fun d => { d with activity := .verify .p0 }

/-- A move in hand, of P0, and a queue that holds it alone. -/
def move0 (kind : MoveKind) (src : Nat) (dst : Option Nat) (ph : Phase) : MoveEntry :=
  ⟨0, .port .p0 (some 0), kind, src, dst, some l1, ph, .outward, false⟩

/-- The picker with one entry in hand and the motion command outstanding. -/
def moving (e : MoveEntry) (m : Motion) : State :=
  ready.modPicker fun k => { k with state := .moving, queue := [e], motion := some m, timer := .running 20000 }

/-- An item in the engine's hand, and the engine that has it. -/
def item (k : ItemKind) : Item := ⟨.d0, k, 0, head4, false⟩
def inHand (k : ItemKind) (s : State) : State :=
  s.modEngine fun e => { e with inHand := some (item k), workRaw := raw4 }

/-- The state a command leaves. -/
def after (c : Instr) (s : State) : State :=
  match exec c s with
  | .next t => t
  | _ => s

/-! ### WellFormed refuses each ill-formed command -/

def entry0 : SettingEntry := ⟨1, 0, 0⟩
/-- A label that starts with a byte outside the 36 codes. -/
def badLabel : Label := ⟨0x004F4C3030303031⟩

theorem test_wf_configure : (Instr.configure .p0 0 (List.replicate 27 entry0)).wellFormed = false
    ∧ (Instr.configure .p0 0 (List.replicate 26 entry0)).wellFormed = true := by decide +kernel
theorem test_wf_writeRecord : (Instr.writeRecord .p0 0 0 (List.replicate 65532 0)).wellFormed = false := by
  simp only [Instr.wellFormed, List.length_replicate]; rfl
theorem test_wf_unknownRequest : (Instr.unknownRequest .p0 1 0x05 0 []).wellFormed = false
    ∧ (Instr.unknownRequest .p0 1 0x05 0 [0]).wellFormed = true := by decide +kernel
theorem test_wf_unknownRequest_long : (Instr.unknownRequest .p0 1 0xFF 0 (List.replicate 65536 0)).wellFormed = false := by
  simp only [Instr.wellFormed, List.length_replicate]; rfl
theorem test_wf_fetchComplete : (Instr.fetchComplete true (some badLabel)).wellFormed = false := by decide +kernel
theorem test_wf_auditSlotReading : (Instr.auditSlotReading (.label badLabel)).wellFormed = false := by decide +kernel
theorem test_wf_status : (Instr.status .d0 true (some badLabel) true 1 false).wellFormed = false
    ∧ (Instr.status .d0 true none true 256 false).wellFormed = false := by decide +kernel
theorem test_wf_threaded : (Instr.threaded .d0 256 false).wellFormed = false := by decide +kernel
theorem test_wf_located : (Instr.located .d0 4294967296 0).wellFormed = false
    ∧ (Instr.located .d0 0 4294967296).wellFormed = false := by decide +kernel
theorem test_wf_committed : (Instr.committed .d0 4294967296).wellFormed = false := by decide +kernel
theorem test_wf_writeFault : (Instr.writeFault .d0 4294967296).wellFormed = false := by decide +kernel
theorem test_wf_data : (Instr.data .d0 4294967296 head4 raw4).wellFormed = false := by decide +kernel
theorem test_wf_readFault : (Instr.readFault .d0 4294967296).wellFormed = false := by decide +kernel

/-! ### Request blocks, from Table 10-2 -/

/-- A LOAD by label of VOL00001 to D1 (LEA 2): form 1, LEA unused, destination, reserved, label. -/
theorem test_block_load : decodeBlock .p1 false 1 0x02 3 [1, 0, 2, 0, 0x56, 0x4F, 0x4C, 0x30, 0x30, 0x30, 0x30, 0x31]
    = .load .p1 3 1 0 2 l1 := by decide +kernel
/-- A READ-RECORDS by set 1, record 2, on D0: count 300, no stop at mark. -/
theorem test_block_readRecords : decodeBlock .p0 false 1 0x30 0 [0, 1, 0, 0, 0x01, 0x2C, 0, 0, 0, 0, 0, 1, 0, 0, 0, 2, 0, 0, 0, 0]
    = .readRecords .p0 0 0 1 0 300 1 2 0 := by decide +kernel
/-- A WRITE-RECORD of two raw bytes on stream 1, and an AUDIT whose body is too long. -/
theorem test_block_write : decodeBlock .p2 false 1 0x21 0xFF [1, 0, 0, 0, 7, 8] = .writeRecord .p2 1 0 [7, 8]
    ∧ decodeBlock .p0 false 1 0x05 0 [0] = .unknownRequest .p0 1 0x05 0 [0] := by decide +kernel
/-- Table 10-1: two blocks as a port receives them, a SYNC of tag 5 on stream 0 with bytes 3 to 5 not examined, and the part of an AUDIT. -/
theorem test_inbound : decodeInbound .p0 false [1, 0x24, 5, 0xAA, 0xBB, 0xCC, 0, 4, 0, 0, 0, 0, 1, 0x05, 2]
    = some (.sync .p0 5 0, [1, 0x05, 2]) ∧ decodeInbound .p0 false [1, 0x05, 2] = none := by decide +kernel
/-- The table's rows carry no bits. -/
theorem test_tableWord : decodeTableWord 8 0 = none := rfl

/-! ### Figures the spec works out -/

/-- Section 6.6: the nine bytes ABABABABX shrink to 20h 90h A0h 04h 65h 80h, with check word 0BA10265h, and expand back. -/
def ababababx : List Byte := [0x41, 0x42, 0x41, 0x42, 0x41, 0x42, 0x41, 0x42, 0x58]
theorem test_shrink_short : shrinkRecord true ababababx = (.shrunk, [0x20, 0x90, 0xA0, 0x04, 0x65, 0x80]) := by decide +kernel
theorem test_check_short : checkWord ababababx = 0x0BA10265 := by decide +kernel
theorem test_expand_short : expandRecord ⟨0, 1, 0, 9, 6, 0x0BA10265, 0⟩ [0x20, 0x90, 0xA0, 0x04, 0x65, 0x80]
    = (ababababx, .good) := by decide +kernel
/-- "Had the stored length been given as 4 ... FORMAT ERROR". -/
theorem test_expand_cut : (expandRecord ⟨0, 1, 0, 9, 4, 0x0BA10265, 0⟩ [0x20, 0x90, 0xA0, 0x04]).2 = .formatError := by decide +kernel
/-- Section 11.1: the totals 16,000 and 6,064 give figure 18. -/
theorem test_figure_111 : ratioFigure 16000 6064 = some 18 := by decide +kernel

/-! ### One-step tests from the spec's examples -/

/-- Table 1-3: LAYOUT value 1, magazines 0 and 1 of P0, 3 of P1, 5 of P2, 2 and 4 SHARED. -/
def mapped : State :=
  { ready with
    strap := 1, elements := resetElements 1
    store := { ready.store with settings := { Settings.default with
      partition := [.owned .p0, .owned .p0, .shared, .owned .p1, .shared, .owned .p2, .shared, .shared] } } }
theorem test_decode_table13 : decodeLea mapped .p0 34 = some 40 ∧ decodeLea mapped .p1 28 = some 40 ∧ decodeLea mapped .p1 34 = none
    ∧ decodeLea mapped .p1 16 = some 34 ∧ decodeLea mapped .p2 16 = some 46 ∧ decodeLea mapped .p0 39 = some 45
    ∧ encodeLea mapped .p0 40 = some 34 ∧ encodeLea mapped .p1 46 = none := by decide +kernel
theorem test_shared_table13 : sharedSlots mapped = [28, 29, 30, 31, 32, 33, 40, 41, 42, 43, 44, 45] := by decide +kernel

/-- Table 4-2: an attach at the default settings leaves 192 units and 20 descriptors granted. -/
theorem test_attach_table42 : ((State.reset.buffer.attach State.reset.creditEnv .p1).share.get .p1).cumUnits = 192
    ∧ ((State.reset.buffer.attach State.reset.creditEnv .p1).share.get .p1).cumDescs = 20 := by decide +kernel

/-- Table 4-3: of a pool unit with P1 the current port at a count of 1 and weights 1, 2, 4, P1 takes the first, and the turn is P2's. -/
def waitShare (window readFree : Nat) : Share :=
  { Share.layout .default .p0 with writeFree := 0, writeGranted := window, readFree := readFree }
def pool43 : Buffer :=
  { Buffer.layout .default with
    poolFree := 0, turnPort := .p1, turnCount := 1
    share := ⟨waitShare 150 60, waitShare 100 0, waitShare 50 0⟩
    descs := [⟨0, .readHome .p0, List.replicate 60 (.readHome .p0), [], [], []⟩,
              ⟨1, .readHome .p0, List.replicate 8 (.readHome .p0), [], [], []⟩]
    allocs := [⟨.p0, .d0, .read, some 0⟩] }
def env43 : CreditEnv := .of { Settings.default with weight := ⟨1, 2, 4⟩ } ⟨true, true, true⟩
theorem test_turns_table43 : ((releaseUnit env43 pool43 .pool).share.get .p1).unitWindow = 101
    ∧ (releaseUnit env43 pool43 .pool).turnPort = .p2 ∧ (releaseUnit env43 pool43 .pool).turnCount = 0
    ∧ ((releaseUnits env43 pool43 (List.replicate 6 .pool)).desc 0).map (·.units.length) = some 61 := by decide +kernel

/-! ### One-step tests of points the review raised -/

/-- R46, R9, R21: the mail door opened while a FETCH from mail slot 4 ran. The label read is the one expected: the picker's entry is FULL
and the volume is in the picker. -/
def mailFetch : State :=
  { fill (.unknown (some l1)) 4 (fill .empty 16 (moving (move0 .move 4 (some 18) (.run .fetch)) (.fetch 4))) with
    mailOpen := true, store := { ready.store with volumes := [{ newVolume l1 16 with location := .unknown }, vol2 (.element 17)] } }
theorem test_fetch_unknown_source : (after (.fetchComplete true (some l1)) mailFetch).elemState 0 = some (.full (some l1) .normal)
    ∧ ((after (.fetchComplete true (some l1)) mailFetch).volume l1).map (·.location) = some .picker := by decide +kernel
/-- R21: so it does when the mail audit found the slot EMPTY meanwhile and the record is OUTSIDE. -/
def mailFetchGone : State :=
  let s := fill .empty 4 mailFetch
  { s with store := { s.store with volumes := [{ newVolume l1 16 with location := .outside 0 }, vol2 (.element 17)] } }
theorem test_fetch_after_export : (after (.fetchComplete true (some l1)) mailFetchGone).elemState 0 = some (.full (some l1) .normal)
    ∧ ((after (.fetchComplete true (some l1)) mailFetchGone).volume l1).map (·.location) = some .picker := by decide +kernel

/-- R183: a CONFIGURE that gives magazine 3 to P1 is being written. P0's LEA 34 is on the old map; the MOVE is tested on the new one. -/
def toP1 : SettingEntry := ⟨0x01, 3, 1⟩
def remapping : State := { ready with storeWrite := some ⟨.p1, some 0, [toP1]⟩ }
theorem test_move_on_new_map : (after (.move .p0 0 0 16 34 l9) ready).picker.queue.length = 1
    ∧ (after (.move .p0 0 0 16 34 l9) remapping).picker.queue = [] ∧ ((after (.move .p0 0 0 16 33 l9) remapping).picker.queue.length = 1) := by
  decide +kernel

/-- R72: five tests, and the run that a drive fault ended goes on beside the stream that opens. -/
theorem test_open_beside_left_run : (((after (.openStream .p0 0 0 0 1 0) (loaded.setRestore .d0 (some { run0 with tag := none }))).stream .d0).state
      = .opening)
    ∧ ((after (.openStream .p0 0 0 0 1 0) (loaded.setRestore .d0 (some { run0 with tag := none }))).restores.get .d0)
      = ⟨none, [{ run0 with tag := none }]⟩ := by decide +kernel

/-- R73: THREAD-FAULT leaves the continuation block, EJECTED makes it absent. -/
theorem test_threadFault_continuation :
    ((after (.threadFault .d0) (loaded.modDrive .d0 fun d =>
      { d with order := some .thread, state := .threading, continuation := some 5 })).drive .d0).continuation = some 5
    ∧ ((after (.ejected .d0) (loaded.modDrive .d0 fun d =>
      { d with order := some (.unthread false), state := .unthreading, continuation := some 5 })).drive .d0).continuation = none := by
  decide +kernel
/-- R60: a tape of a class that is none stands at block 0 and frame 0 while it is unthreaded. -/
theorem test_threaded_unsupported : ((after (.threaded .d0 7 false) (loaded.modDrive .d0 fun d =>
    { d with order := some .thread, state := .threading, position := none })).drive .d0).position = some ⟨some 0, some 0⟩ := by decide +kernel

/-- R47: a mail door open at an earlier reading and closed again when the mail slots are reached leaves them to be read. -/
theorem test_audit_reaches_mail : (after (.auditSlotReading .empty) { ready with
    mailOpen := true
    picker := { ready.picker with state := .auditing, motion := some (.reading 16), timer := .running 20000,
                                  audit := some ⟨true, false, [17, 4, 5], [.d0, .d1], none, [], [], []⟩ } }).picker.audit.map (·.slots)
      = some [4, 5] := by decide +kernel
/-- Table 3-2, R58: IDLE issues UNTHREAD, whatever activity the bay took after the UNLOAD was accepted. -/
theorem test_unthread_by_state : ((startUnload (loaded.modDrive .d0 fun d => { d with activity := .verify .p0 })
    (move0 .unload 1 (some 17) .queued) .d0).drive .d0).order = some (.unthread false) := by decide +kernel
/-- R96, R183: raising P0's write-home allotment by 8 units sets 8 units of the pool aside; they are P0's when the write completes. -/
def raise8 : State := after (.configure .p0 0 [⟨0x02, 0, BitVec.ofNat 32 (Settings.default.writeUnits.p0 + 8)⟩]) ready
theorem test_allotment_lands : raise8.buffer.poolFree + 8 = ready.buffer.poolFree
    ∧ (raise8.buffer.share.get .p0).writeFree = (ready.buffer.share.get .p0).writeFree
    ∧ raise8.shownBuffer.poolFree = ready.buffer.poolFree
    ∧ ((after .settingsStoreWriteComplete raise8).buffer.share.get .p0).unitWindow
      + ((after .settingsStoreWriteComplete raise8).buffer.share.get .p0).writeFree
      = (ready.buffer.share.get .p0).unitWindow + (ready.buffer.share.get .p0).writeFree + 8 := by decide +kernel

/-- R16: the reply of a release waits for the end of its store write, while its tag stays open. -/
theorem test_release_waits : ((after (.releaseVolume .p0 2 l2) ready).port .p0).sending = none
    ∧ ((after (.releaseVolume .p0 2 l2) ready).port .p0).tagKind 2 = some .releaseVolume
    ∧ ((after .settingsStoreWriteComplete { openTag ready .p0 2 .releaseVolume with
        releaseWrites := [⟨.p0, some 2, false, vol2 (.element 17)⟩] }).port .p0).sending
      = some (.control (.reply ⟨ReqKind.releaseVolume.code, 2, .done, false, .none, true⟩)) := by decide +kernel
/-- R96: W_u of P1, DOWN, is being lowered to 100. P1 comes UP meanwhile, and its window is no higher. -/
def lower100 : State := after (.configure .p0 0 [⟨0x02, 1, 100⟩]) (ready.modPort .p1 fun c => { c with up := false })
theorem test_no_window_above_lowered : lower100.storeWrite.isSome = true
    ∧ ((after (.linkUp .p1) lower100).buffer.share.get .p1).unitWindow = 100 := by decide +kernel
/-- R89: 8 pool units are set aside, so the pool's FREE count is above 0 and it is not congested: a unit released is FREE. -/
theorem test_set_aside_is_free :
    congested { env43 with next := { env43.settings with writeUnits := ⟨200, 192, 192⟩ } } pool43 = false
    ∧ (releaseUnit { env43 with next := { env43.settings with writeUnits := ⟨200, 192, 192⟩ } } pool43 .pool).poolFree = 1 := by
  decide +kernel
/-- R12: a record located at the slot where another cartridge is then placed loses its place. -/
theorem test_place_displaces : ((placeTaken (fill (.full (some l1) .normal) 0 { ready with
      store := { ready.store with volumes := [{ newVolume l1 16 with location := .picker }, vol2 (.element 17)] } }) 17).volume l2).map
        (·.location) = some .unknown := by decide +kernel
/-- R62: an offer whose block is not the position's block is not taken. -/
theorem test_offer_waits_for_position :
    (offerOnce ((streaming .open).modStream .d0 fun c => { c with records := [rec0], nextRecord := 1 }) .d0).isSome = true
    ∧ offerOnce ((streaming .open).modStream .d0 fun c => { c with records := [rec0], nextRecord := 1, nextBlock := 9 }) .d0 = none := by
  decide +kernel

/-! ### Witnesses: the hypotheses of each statement can be met, clause by clause -/

theorem witness_StepRunsFrontCommand :
    ({ State.reset with pending := [.audit .p0 0, .carryComplete] } : State).pending = .audit .p0 0 :: [.carryComplete] := rfl

/-- A state in which a timer of each kind runs, one of each kind that can be held is held, and the queue is empty. -/
def ticking : State :=
  (((State.reset.modDrive .d0 fun d => { d with timer := .running 1 }).modStream .d1 fun c => { c with timer := .running 200 }).modPort .p2
    fun c => { c with claimTimer := .running 60000 })
theorem witness_EmptyQueuePassesOneMillisecond : ticking.pending = [] ∧ ticking.picker.timer = .running (19999 + 1)
    ∧ (ticking.modPicker fun k => { k with timer := .held 7000 }).picker.timer = .held 7000
    ∧ (ticking.drive .d0).timer = .running (0 + 1) ∧ (ticking.stream .d1).timer = .running (199 + 1)
    ∧ (ticking.port .p2).claimTimer = .running (59999 + 1) ∧ (ticking.port .p0).claimTimer = .stopped := by decide +kernel

theorem witness_EachCommandKeepsToItsBlocks : (∃ t, exec .carryComplete ready = .next t)
    ∧ (∀ a b d e, Instr.carryComplete ≠ .powerOn a b d e ∧ Instr.carryComplete ≠ .boardReset a b d e)
    ∧ Instr.carryComplete ≠ .settingsStoreWriteComplete :=
  ⟨⟨_, rfl⟩, fun _ _ _ _ => ⟨nofun, nofun⟩, nofun⟩

theorem witness_OtherBayUntouched : bayNamed (.gapDone .d1) = some .d1 ∧ bayNamed (.sync .p0 0 1) = some .d1
    ∧ (∃ t, exec (.gapDone .d1) ready = .next t) ∧ ∃ t, exec (.sync .p0 0 1) ready = .next t :=
  ⟨rfl, rfl, ⟨_, rfl⟩, ⟨_, rfl⟩⟩

/-- With two volumes in order, and a command waiting. -/
theorem witness_TablesKept : ({ ready with pending := [.carryComplete] } : State).tablesHold
    ∧ ∃ t, step { ready with pending := [.carryComplete] } = .next t := by
  refine ⟨⟨by decide +kernel, ⟨?_, ?_, trivial⟩, by decide +kernel⟩, ⟨_, rfl⟩⟩
  · simp [l1, l2, vol2, newVolume]
  · simp

/-- With P1 attached: 192 units and 20 descriptors GRANTED to it. -/
def attached : State := { ready with buffer := State.reset.buffer.attach State.reset.creditEnv .p1, pending := [.carryComplete] }
theorem witness_BufferLawKept : attached.creditHolds ∧ ∃ t, step attached = .next t := by
  refine ⟨⟨by decide, ?_, nofun⟩, ⟨_, rfl⟩⟩
  intro o
  cases o with
  | writeHome p => cases p <;> decide +kernel
  | readHome p => cases p <;> decide +kernel
  | pool => decide +kernel
  | internal => decide +kernel

/-- Move 255 the next, one move waiting, P1 DOWN; and a command waiting. -/
def ranging : State :=
  { (ready.modPicker fun k => { k with nextMove := 255, queue := [move0 .move 16 (some 18) .queued] }).modPort .p1 fun c => { c with up := false }
    with pending := [.carryComplete] }
theorem witness_RangesKept : ranging.inRange ∧ ∃ t, step ranging = .next t := by
  refine ⟨⟨fun p => ?_, ?_, by decide +kernel⟩, ⟨_, rfl⟩⟩
  · cases p
    · exact ⟨rfl, nofun⟩
    · exact ⟨rfl, fun _ => ⟨by decide +kernel, rfl, rfl, rfl⟩⟩
    · exact ⟨rfl, nofun⟩
  · unfold Picker.inRange; decide +kernel

/-- The release of VOL00002 by P0, its tag 2 open: being written; behind a CONFIGURE; and before one. -/
def release1 (behind : Bool) : ReleaseWrite := ⟨.p0, some 2, behind, vol2 (.element 17)⟩
def releasing : State := { openTag ready .p0 2 .releaseVolume with releaseWrites := [release1 false] }
def configuring (behind : Bool) : State :=
  { openTag ready .p0 2 .releaseVolume with storeWrite := some ⟨.p0, some 1, [entry0]⟩, releaseWrites := [release1 behind] }
theorem witness_ResetsRebuild_store : (configuring false).releaseWrites = release1 false :: [] ∧ (release1 false).behind = false
    ∧ (configuring true).storeWrite = some ⟨.p0, some 1, [entry0]⟩ ∧ State.reset.releaseWrites = [] := by decide +kernel
theorem witness_ResetsRebuild : State.reset.storeWrite = none ∧ State.reset.picker.state ≠ .disabled
    ∧ (ready.modPicker fun k => { k with state := .disabled }).picker.state = .disabled
    ∧ (∃ t, exec (.powerOn false false false false) ready = .next t ∧ State.reset.scratchPointer < (sharedSlots t).length)
    ∧ ∃ t, exec (.powerOn false false false false) ready = .next t
      ∧ (sharedSlots t).length ≤ ({ ready with scratchPointer := 24 } : State).scratchPointer :=
  ⟨rfl, by decide, rfl, ⟨_, rfl, by decide +kernel⟩, ⟨_, rfl, by decide +kernel⟩⟩

theorem witness_UnfoundedReportsIgnored : (ready.port .p0).up = true ∧ (State.reset.port .p0).up = false ∧ (ready.port .p0).sending = none
    ∧ (ready.port .p0).claimTimer.isRunning = false ∧ (ready.drive .d0).order ≠ some .thread
    ∧ (∀ x, (ready.drive .d0).order ≠ some (.unthread x)) ∧ (ready.drive .d0).order ≠ some .query ∧ (ready.drive .d0).order = none
    ∧ ((ready.drive .d0).inFlight.all fun f => f.block ≠ 0) = true ∧ ((writing.drive .d0).inFlight.all fun f => f.block ≠ 11) = true
    ∧ (ready.drive .d0).gap = false ∧ (ready.drive .d0).owes = false ∧ (ready.drive .d0).timer.isRunning = false
    ∧ (ready.stream .d0).timer.isRunning = false ∧ ready.picker.timer.isRunning = false ∧ ready.picker.motion = none
    ∧ ready.engine.inHand = none ∧ (inHand .deliver ready).engine.inHand.isSome = true ∧ ready.storeWrite = none
    ∧ ready.releaseWrites = [] := by
  refine ⟨?_, ?_, ?_, ?_, ?_, nofun, ?_⟩ <;> decide +kernel

theorem witness_ElementAddressesInvert : mapped.elements.map (·.pea) = installedPeas mapped.strap ∧ decodeLea mapped .p0 0 = some 0
    ∧ decodeLea mapped .p0 7 = some 7 ∧ decodeLea mapped .p0 16 = some 16 ∧ decodeLea mapped .p0 39 = some 45
    ∧ mapped.visible .p0 40 = true ∧ mapped.visible .p1 46 = false ∧ mapped.visible .p0 99 = false := by decide +kernel

theorem witness_ScratchChoiceIsFirstReady : ready.scratchPointer ≤ (sharedSlots ready).length ∧ chooseScratch ready = some (0, 16)
    ∧ (sharedSlots ready)[0]? = some 16 ∧ scratchReady ready 16 = true
    ∧ ({ ready with scratchPointer := 24 } : State).scratchPointer ≤ (sharedSlots ready).length
    ∧ chooseScratch { ready with scratchPointer := 24 } = some (0, 16) ∧ chooseScratch State.reset = none := by decide +kernel

theorem witness_ReadingLeavesOneRecord : ∃ v ∈ (reconcile ready 16 (some l1) []).store.volumes, v.location = .element 16 := by decide +kernel

/-- The header of a record of the bytes x: lengths at both ends of the range, and the kind and length of an index record. -/
def headOf (on : Bool) (kind : Byte) (x : List Byte) : TapeHeader :=
  ⟨kind, (shrinkRecord on x).1.code, 0, BitVec.ofNat 32 x.length, BitVec.ofNat 32 (shrinkRecord on x).2.length, checkWord x, 0⟩
theorem witness_ShrunkRecordsExpandBack : 1 ≤ ababababx.length ∧ ababababx.length ≤ 32768
    ∧ (headOf true 0 ababababx).rawLen.toNat = ababababx.length
    ∧ (headOf true 0 ababababx).storedLen.toNat = (shrinkRecord true ababababx).2.length ∧ (headOf true 0 ababababx).kind = 0
    ∧ (headOf false 1 raw4).rawLen.toNat = raw4.length ∧ (headOf false 1 raw4).storedLen.toNat = (shrinkRecord false raw4).2.length
    ∧ (headOf false 1 raw4).kind = 1 ∧ raw4.length % 4 = 0 := by decide +kernel
theorem witness_ShrunkRecordsExpandBack_longest : (List.replicate 32768 (0 : Byte)).length ≤ 32768
    ∧ (headOf false 0 (List.replicate 32768 0)).rawLen.toNat = (List.replicate 32768 (0 : Byte)).length
    ∧ (headOf false 0 (List.replicate 32768 0)).storedLen.toNat = (shrinkRecord false (List.replicate 32768 (0 : Byte))).2.length := by
  simp only [headOf, shrinkRecord, Bool.false_and, Bool.false_eq_true, if_false, List.length_replicate]
  decide +kernel

theorem witness_RatioFigureIsGreatest : 0 < 1 ∧ 7 ≤ 7 ∧ (8 + 7) * 2 ^ 7 * 1 ≤ 16 * 120 ∧ 120 * 1 ≤ 120 := by decide +kernel

/-- P0's tag 0 is free; its replies wait in order. -/
def busyReply : Reply := ⟨0x05, 1, .done, false, .none, true⟩
def queued (cs : List Control) (fs : List DataFrame) (x : Option Frame) : State :=
  ready.modPort .p0 fun c => { c with control := cs, frames := fs, sending := x }
def frame0 : DataFrame := ⟨.d0, some 0, 0, true, 0, []⟩
theorem witness_RepliesAndFrames : (ready.takes .p0 0 ∧ ready.takes .p0 7 ∧ (ready.port .p0).tags.length = 8 ∧ (ready.port .p0).control = []
      ∧ (ready.port .p0).sending = none ∧ (ready.port .p0).up = true)
    ∧ (State.reset.port .p0).up = false ∧ ((queued [] [] (some (.data frame0))).port .p0).sending.isSome = true
    ∧ ((queued [.reply busyReply] [] none).port .p0).control = .reply busyReply :: []
    ∧ ((queued [] [frame0] none).port .p0).frames = frame0 :: [] ∧ ((queued [] [frame0] none).port .p0).control = [] := by
  unfold State.takes; decide +kernel

def sendingEntry : Staged := ⟨0, some 0, .sending, none, false, false⟩
def delivering : State := (restoring [sendingEntry]).modPort .p0 fun c => { c with sending := some (.data frame0) }
/-- R147: with an UNTHREAD outstanding, which is no READ, the place that a frame sent frees brings a READ allocation. -/
theorem test_reads_ahead_while_unthreading : (after (.frameSent .p0) (delivering.modDrive .d0 fun d =>
    d.issue (.unthread false) .unthreading)).buffer.readAlloc .d0 ≠ none := by decide +kernel
theorem witness_FrameSentFreesAndDelivers :
    ((queued [.notice (.condition .ready)] [] (some (.control (.reply busyReply)))).port .p0).sending = some (.control (.reply busyReply))
    ∧ ((queued [.notice (.condition .ready)] [] (some (.control (.reply busyReply)))).port .p0).control ≠ []
    ∧ ((queued [.reply busyReply] [] (some (.control (.notice (.condition .ready))))).port .p0).sending
        = some (.control (.notice (.condition .ready)))
    ∧ ((queued [.reply busyReply] [] (some (.control (.notice (.condition .ready))))).port .p0).control ≠ []
    ∧ (delivering.port .p0).sending = some (.data frame0) ∧ delivering.restore frame0.bay = some { run0 with staged := [sendingEntry] }
    ∧ [sendingEntry].find? (fun x => x.block = frame0.block && x.desc = frame0.desc && x.stage = .sending) = some sendingEntry := by decide +kernel

def oneTag : State := openTag ready .p0 7 .sync
theorem witness_TaggedRequestsAdmitted : tagOf (.audit .p0 7) = some (.p0, 7, .audit) ∧ tagOf (.audit .p0 8) = some (.p0, 8, .audit)
    ∧ (State.reset.port .p0).up = false ∧ (ready.port .p0).up = true ∧ 7 < (8 : Byte).toNat ∧ (7 : Byte).toNat ≤ 7
    ∧ (oneTag.port .p0).up = true ∧ (oneTag.port .p0).tagKind 7 ≠ none := by decide +kernel

theorem witness_UnknownBlocksRefused : (ready.port .p0).up = true ∧ blockKnown 1 0xFF [] = false ∧ blockKind 1 0xFF = none
    ∧ blockKnown 1 0x05 [0] = false ∧ blockKind 1 0x05 = some .audit ∧ ReqKind.audit.tagged = true ∧ ready.takes .p0 0
    ∧ blockKnown 1 0x22 [] = false ∧ blockKind 1 0x22 = some .writeMark ∧ ReqKind.writeMark.tagged = false := by
  unfold State.takes; decide +kernel

theorem witness_LinkUpAttaches : (ready.port .p0).up = true ∧ (State.reset.port .p0).up = false ∧ (State.reset.port .p0).control = []
    ∧ (State.reset.port .p0).sending = none := by decide +kernel

/-- P0's bay D0 claimed as its link goes down: with the claim hold of 60 s, with none, and already in the released-bay list. -/
def noHold : State :=
  { loaded with store := { loaded.store with settings := { Settings.default with claimHold := 0 } } }
def listed : State := loaded.modPort .p0 fun c => { c with released := [.d0] }
theorem witness_LinkDownAndReset : (ready.port .p0).up = true
    ∧ ({ ready with storeWrite := some ⟨.p0, some 0, [entry0]⟩ } : State).storeWrite = some ⟨.p0, some 0, [entry0]⟩
    ∧ bayClaimed (after (.linkDown .p0) loaded) .p0 .d0 = true ∧ Bay.d0 ∉ (loaded.port .p0).released ∧ loaded.settings.claimHold ≠ 0
    ∧ bayClaimed (after (.linkDown .p0) noHold) .p0 .d0 = true ∧ Bay.d0 ∉ (noHold.port .p0).released ∧ noHold.settings.claimHold = 0
    ∧ bayClaimed (after (.linkDown .p0) listed) .p0 .d0 = true ∧ bayClaimed (after (.linkDown .p0) listed) .p0 .d1 = false
    ∧ Bay.d0 ∈ (listed.port .p0).released := by decide +kernel

/-- P0's claim hold running on a DOWN port that claims D0, the timer loaded for it; D0 then in its released-bay list, at rest; then
marked. -/
def leaving : State := loaded.modPort .p0 fun c => { c with up := false, claimTimer := .running 1, holding := ⟨true, false⟩ }
def left : State := loaded.modPort .p0 fun c => { c with up := false, released := [.d0] }
def marked : State := left.modPicker fun k => { k with unloadOwed := (PerBay.all false).set .d0 true }
theorem witness_ClaimHoldEnds : (leaving.port .p0).claimTimer.isRunning = true
    ∧ (leaving.port .p0).holding.get .d0 = true ∧ bayClaimed leaving .p0 .d0 = true
    ∧ Bay.d0 ∈ ((after (.claimHoldTimerExpiry .p0) leaving).port .p0).released ∧ Bay.d0 ∉ (leaving.port .p0).released
    ∧ bayOwedBy (after (.claimHoldTimerExpiry .p0) leaving) .p0 .d0 = true
    ∧ bayOwedBy left .p0 .d0 = true ∧ left.picker.unloadOwed.get .d0 = false
    ∧ marked.picker.unloadOwed = (PerBay.all false).set .d0 true ∧ marked.picker.internalEntries < 2
    ∧ marked.isClaimed (bayPea .d0) = false := by decide +kernel

/-- P0 went down again with D0 in its list, marked, its UNLOAD having found no slot; the timer runs for D1, whose stream drains. -/
def holdingD1 : State :=
  (marked.modPort .p0 fun c => { c with claimTimer := .running 1, holding := ⟨false, true⟩ }).modDrive .d1 fun d =>
    { d with state := .idle, claim := some .p0, activity := .stream .p0 }
theorem witness_ClaimHoldEnds_listed : (holdingD1.port .p0).claimTimer.isRunning = true ∧ Bay.d0 ∈ (holdingD1.port .p0).released
    ∧ (after (.claimHoldTimerExpiry .p0) holdingD1).picker.unloadOwed = holdingD1.picker.unloadOwed := by decide +kernel
/-- R179: "such a timer governs those claims alone". D1 enters the list, and D0's UNLOAD is not queued again; nor is D0 listed again if its
UNLOAD has completed DRIVE FAULT meanwhile, which leaves the claim with P0 (R178). -/
theorem test_hold_governs_alone :
    ((after (.claimHoldTimerExpiry .p0) holdingD1).port .p0).released = [.d0, .d1]
    ∧ (after (.claimHoldTimerExpiry .p0) holdingD1).picker.queue = []
    ∧ ((after (.claimHoldTimerExpiry .p0) (clearOwed (leaveReleased holdingD1 .d0) .d0)).port .p0).released = [.d1] := by decide +kernel

theorem witness_EntriesTakeFreeNumbers : ready.picker.queue.length < 256
    ∧ (ready.modPicker fun k => { k with nextMove := 255, queue := [{ move0 .move 16 (some 18) .queued with number := 255 }] }).picker.nextMove
      < 256 := by decide +kernel

theorem witness_MovesRefusedNotReady : (ready.modPicker fun k => { k with condition := .auditing }).takes .p0 0
    ∧ (ready.modPicker fun k => { k with condition := .auditing }).picker.condition ≠ .ready
    ∧ (sourceOf 0 16 badLabel).isSome = true ∧ (sourceOf 1 0 l1).isSome = true ∧ (flagOf 1).isSome = true
    ∧ ((bayOfLea 1).all fun b => !(ready.port .p0).released.contains b) = true := by
  unfold State.takes; decide +kernel

theorem witness_MovesAccepted : (ready.takes .p0 0 ∧ ready.picker.condition = .ready ∧ sourceOf 0 16 l9 = some (.lea 16)
      ∧ sourceOf 1 0 l1 = some (.label l1) ∧ sourcePea ready.planned .p0 (.lea 16) = some 16 ∧ sourcePea ready.planned .p0 (.label l1) = some 16
      ∧ decodeLea ready.planned .p0 39 = some 39 ∧ isSlot 16 = true ∧ isSlot 39 = true ∧ ready.element 16 = some ⟨16, .full (some l1) .normal, none⟩
      ∧ ready.element 39 = some ⟨39, .empty, none⟩ ∧ ready.planned.visible .p0 16 = true
      ∧ ((ready.elemVolume 16).all fun v => v.owner.isNone || v.owner = some .p0) = true ∧ ready.mailOpen = false
      ∧ ready.picker.portEntries < 8 ∧ (ready.picker.entriesOf .p0).length < 3)
    ∧ loaded.takes .p0 0 ∧ (1 : Byte).toNat = bayPea .d0 ∧ Bay.d0 ∉ (loaded.port .p0).released ∧ loaded.picker.condition = .ready
    ∧ (loaded.drive .d0).claim = some .p0 ∧ (loaded.drive .d0).carriesActivity = false
    ∧ loaded.element (bayPea .d0) = some ⟨1, .full (some l2) .normal, none⟩ ∧ loaded.picker.portEntries < 8
    ∧ (loaded.picker.entriesOf .p0).length < 3 ∧ decodeLea loaded.planned .p0 17 = some 17 ∧ isSlot 17 = true
    ∧ loaded.element 17 = some ⟨17, .empty, none⟩ := by
  unfold State.takes; decide +kernel

theorem witness_LoadsAccepted : ready.takes .p0 0 ∧ ready.picker.condition = .ready ∧ sourceOf 0 16 l9 = some (.lea 16)
    ∧ sourcePea ready.planned .p0 (.lea 16) = some 16 ∧ (2 : Byte).toNat = bayPea .d1 ∧ isSlot 16 = true
    ∧ ready.element 16 = some ⟨16, .full (some l1) .normal, none⟩ ∧ ready.element (bayPea .d1) = some ⟨2, .empty, none⟩
    ∧ ready.planned.visible .p0 16 = true ∧ ((ready.elemVolume 16).all fun v => v.owner.isNone || v.owner = some .p0) = true
    ∧ ready.mailOpen = false ∧ ready.picker.portEntries < 8 ∧ (ready.picker.entriesOf .p0).length < 3
    ∧ (ready.drive .d1).state = .empty ∧ (ready.drive .d1).claim = none ∧ ready.installed (bayPea .d1) = true
    ∧ chooseScratch ready.planned = some (0, 16) := by
  unfold State.takes; decide +kernel
theorem witness_LoadsAccepted_noScratch : (setElem ready 16 .empty).takes .p0 0 ∧ (setElem ready 16 .empty).picker.condition = .ready
    ∧ (setElem ready 16 .empty).element (bayPea .d1) = some ⟨2, .empty, none⟩ ∧ chooseScratch (setElem ready 16 .empty).planned = none := by
  unfold State.takes; decide +kernel

def faulted : State := ready.modPicker fun k => { k with state := .faulted, condition := .motionFault }
theorem witness_AuditAndRecoverAccepted : ready.takes .p0 0 ∧ ready.picker.condition = .ready ∧ faulted.takes .p0 0
    ∧ faulted.picker.condition = .motionFault ∧ (faulted.picker.queue.all fun e => decide (e.kind ≠ .recover)) = true
    ∧ (recoveryDest faulted).isSome = true ∧ faulted.installed 0 = true := by
  unfold State.takes; decide +kernel

/-- A RECOVER between a recovery's last motion and its full audit: both wait, and homing comes before the audit (log entry 79). -/
def inTheGap : State :=
  faulted.modPicker fun k => { k with state := .idle, auditPending := true, recoverWaiting := [(.p1, 4)] }
theorem test_recover_in_the_gap : (after (.recover .p0 0 false) inTheGap).picker.recoverWaiting = [(.p1, 4), (.p0, 0)]
    ∧ (after (.recover .p0 0 false) inTheGap).picker.motion = some .homing
    ∧ (after (.recover .p0 0 false) inTheGap).picker.auditPending = true := by decide +kernel

def fetching : State := moving (move0 .move 16 (some 18) (.run .fetch)) (.fetch 16)
def carrying : State := moving (move0 .move 16 (some 18) (.run .carry)) .carry
/-- The same FETCH, with the record of the slot's label at no known place. -/
def lastKnown16 : Volume := { newVolume l1 16 with location := .unknown }
def unplaced : State := { fetching with store := { ready.store with volumes := [lastKnown16, vol2 (.element 17)] } }
theorem witness_FetchAndCarryReported : (fetching.picker.state ≠ .stopped ∧ fetching.picker.motion = some (.fetch 16)
      ∧ fetching.inHandMove = some (move0 .move 16 (some 18) (.run .fetch)) ∧ isBay 16 = false
      ∧ fetching.elemState 16 = some (.full (some l1) .normal) ∧ fetching.installed 0 = true
      ∧ (move0 .move 16 (some 18) (.run .fetch)).expected = some l1 ∧ (fetching.elemVolume 16).isSome = true)
    ∧ (fetching.mailOpen = false ∧ (move0 .move 16 (some 18) (.run .fetch)).expected ≠ some l9)
    ∧ (fetching.installed 16 = true ∧ fetching.picker.doorAudit = false ∧ newVolume l1 16 ∈ fetching.store.volumes
      ∧ (newVolume l1 16).location = .element 16 ∧ lastKnown16 ∈ unplaced.store.volumes ∧ lastKnown16.location = .unknown
      ∧ (unplaced.elemState 16).bind (·.anyLabel) = some lastKnown16.label
      ∧ (move0 .move 16 (some 18) (.run .fetch)).requester = .port .p0 (some 0) ∧ (fetching.port .p0).up = true)
    ∧ carrying.picker.state ≠ .stopped ∧ carrying.picker.motion = some .carry
    ∧ carrying.inHandMove = some (move0 .move 16 (some 18) (.run .carry)) := by decide +kernel

/-- A PLACE outstanding, VOL00001 in the picker's hand. -/
def placing (e : MoveEntry) (q : Nat) : State :=
  { fill (.full (some l1) .normal) 0 (fill .empty 16 (moving e (.place q))) with
    store := { ready.store with volumes := [{ newVolume l1 16 with location := .picker }, vol2 (.element 17)] } }
theorem witness_PlaceReported : ((placing (move0 .move 16 (some 18) (.run .place)) 18).picker.state ≠ .stopped
      ∧ (placing (move0 .move 16 (some 18) (.run .place)) 18).picker.motion = some (.place 18)
      ∧ (placing (move0 .move 16 (some 18) (.run .place)) 18).inHandMove = some (move0 .move 16 (some 18) (.run .place))
      ∧ (placing (move0 .move 16 (some 18) (.run .place)) 18).installed 18 = true
      ∧ (placing (move0 .move 16 (some 18) (.run .place)) 18).elemState 0 = some (.full (some l1) .normal)
      ∧ ((placing (move0 .move 16 (some 18) (.run .place)) 18).elemVolume 0).isSome = true ∧ peaBay 18 = none
      ∧ MoveKind.move.isLoad = false)
    ∧ (placing (move0 .load 16 (some 1) (.run .place)) 1).inHandMove = some (move0 .load 16 (some 1) (.run .place))
    ∧ (placing (move0 .load 16 (some 1) (.run .place)) 1).installed 1 = true
    ∧ (placing (move0 .load 16 (some 1) (.run .place)) 1).elemState 0 = some (.full (some l1) .normal)
    ∧ (move0 .load 16 (some 1) (.run .place)).kind.isLoad = true ∧ 1 = bayPea .d0
    ∧ (placing (move0 .load 16 (some 1) (.run .place)) 1).picker.doorAudit = false := by decide +kernel
/-- The cartridge MISPLACED; and the PLACE of a recovery, with a next slot for it and with none. -/
def misplaced : State := fill (.full (some l1) .misplaced) 0 (placing (move0 .move 16 (some 18) (.run .place)) 18)
def recover0 : MoveEntry := ⟨0, .internal, .recover, 0, some 18, none, .run .place, .outward, false⟩
def noSlots (s : State) : State :=
  { s with elements := s.elements.map fun e => if isStorage e.pea then { e with state := .full none .noLabel } else e }
theorem witness_PlaceReported_misplaced : misplaced.inHandMove = some (move0 .move 16 (some 18) (.run .place))
    ∧ misplaced.picker.motion = some (.place 18) ∧ misplaced.elemState 0 = some (.full (some l1) .misplaced)
    ∧ misplaced.volume l1 = some { newVolume l1 16 with location := .picker } ∧ misplaced.picker.doorAudit = false
    ∧ misplaced.installed 18 = true ∧ misplaced.visibleToOwner none 18 = true := by decide +kernel
theorem witness_PlaceReported_recovery : (placing recover0 18).picker.motion = some (.place 18)
    ∧ (placing recover0 18).inHandMove = some recover0 ∧ (placing recover0 18).installed 18 = true
    ∧ (placing recover0 18).installed 0 = true ∧ (placing recover0 18).elemState 0 = some (.full (some l1) .normal)
    ∧ ((placing recover0 18).elemVolume 0).isSome = true
    ∧ recoveryDest (placeObstructed (clearClaims (placing recover0 18) 0) 18) = some 16
    ∧ (noSlots (placing recover0 18)).inHandMove = some recover0
    ∧ recoveryDest (placeObstructed (clearClaims (noSlots (placing recover0 18)) 0) 18) = none := by decide +kernel

def audit1 : AuditRun := ⟨true, false, [17, 18], [.d0, .d1], none, [], [], []⟩
def auditing : State :=
  ready.modPicker fun k => { k with state := .auditing, motion := some (.reading 16), audit := some audit1, timer := .running 20000 }
theorem witness_AuditsRead : State.reset.picker.state ≠ .stopped ∧ State.reset.picker.motion = some .homing ∧ State.reset.inHandMove = none
    ∧ auditing.picker.state ≠ .stopped ∧ auditing.picker.motion = some (.reading 16) ∧ auditing.picker.audit = some audit1
    ∧ slotsLeft auditing audit1 = 17 :: [18] ∧ auditing.installed 16 = true ∧ isMail 16 = false
    ∧ newVolume l1 16 ∈ auditing.store.volumes ∧ (newVolume l1 16).location = .element 16
    ∧ auditing.volume l9 = none ∧ auditing.store.volumes.length < 64 ∧ auditing.volume l1 = some (newVolume l1 16)
    ∧ unplaced.volume l1 = some lastKnown16 ∧ lastKnown16.location = .unknown := by decide +kernel
/-- The audit a at mail slot 4, where the record of VOL00001 stands; a full audit at its last slot; a mail audit with a slot left, and at
its last. -/
def auditingMail (a : AuditRun) : State :=
  { fill (.full (some l1) .normal) 4 auditing with
    picker := { auditing.picker with motion := some (.reading 4), audit := some a }
    store := { ready.store with volumes := [newVolume l1 4, vol2 (.element 17)] } }
def lastAudit : AuditRun := { audit1 with slots := [] }
def mailAudit (slots : List Nat) : AuditRun := ⟨false, false, slots, [], none, [], [], []⟩
theorem witness_AuditsRead_mail : (auditingMail (mailAudit [5])).picker.motion = some (.reading 4) ∧ isMail 4 = true
    ∧ slotsLeft (auditingMail (mailAudit [5])) (mailAudit [5]) = 5 :: [] ∧ (auditingMail (mailAudit [5])).installed 4 = true
    ∧ newVolume l1 4 ∈ (auditingMail (mailAudit [5])).store.volumes ∧ (newVolume l1 4).location = .element 4
    ∧ slotsLeft (auditingMail lastAudit) lastAudit = [] ∧ lastAudit.full = true ∧ lastAudit.bays = [.d0, .d1]
    ∧ bayWaits (auditingMail lastAudit) .d0 = false ∧ ((auditingMail lastAudit).drive .d0).owes = false
    ∧ ((auditingMail lastAudit).drive .d0).state = .empty ∧ slotsLeft (auditingMail (mailAudit [])) (mailAudit []) = []
    ∧ (mailAudit []).full = false ∧ (auditingMail (mailAudit [])).picker.held = none := by decide +kernel

def recovering : State := moving ⟨0, .internal, .recover, 0, some 16, none, .run .homing, .outward, false⟩ .homing
/-- A put-back outstanding at slot 16, of a cartridge whose label was read as l. -/
def puttingBack (l : Label) : State := moving (move0 .move 16 (some 18) (.run .fetch)) (.putBack 16 (some l))
theorem witness_MotionLimitExpires : carrying.picker.timer.isRunning = true
    ∧ (carrying.inHandMove.any fun e => decide (e.kind = .recover)) = false ∧ recovering.picker.timer.isRunning = true
    ∧ (recovering.inHandMove.any fun e => decide (e.kind = .recover)) = true
    ∧ carrying.inHandMove = some (move0 .move 16 (some 18) (.run .carry)) ∧ (carrying.port .p0).up = true
    ∧ carrying.picker.motion = some .carry ∧ (carrying.elemState 0).any (·.isFull) = false ∧ isBay 16 = false
    ∧ ((setClaim carrying 16 0).element 16).bind (·.claim) = some (move0 .move 16 (some 18) (.run .carry)).number
    ∧ (placing (move0 .move 16 (some 18) (.run .place)) 18).picker.timer.isRunning = true
    ∧ (placing (move0 .move 16 (some 18) (.run .place)) 18).elemState 0 = some (.full (some l1) .normal)
    ∧ (puttingBack l9).picker.timer.isRunning = true ∧ (puttingBack l9).picker.motion = some (.putBack 16 (some l9))
    ∧ (puttingBack l9).inHandMove = some (move0 .move 16 (some 18) (.run .fetch)) := by decide +kernel

def stopped : State :=
  { ready.modPicker fun k => { k with state := .stopped, condition := .serviceDoor } with serviceOpen := true }
theorem witness_DoorsReported : ready.picker.state = .idle ∧ carrying.picker.state = .moving ∧ auditing.picker.state = .auditing
    ∧ stopped.picker.state = .stopped ∧ stopped.inHandMove = none ∧ stopped.picker.needHoming = false
    ∧ stopped.picker.motion ≠ some .homing ∧ 4 ∈ mailSlots ready.strap ∧ 7 ∈ mailSlots ready.strap ∧ 16 ∉ mailSlots ready.strap
    ∧ ready.elemState 4 = some .empty ∧ ready.picker.held = none
    ∧ (fill (.full (some l1) .normal) 4 ready).elemState 4 = some (.full (some l1) .normal) := by decide +kernel

def entry1 : MoveEntry := move0 .move 16 (some 18) .queued
def waiting : State := ready.modPicker fun k => { k with queue := [entry1] }
theorem witness_PickerTakesWork : ((ready.modPicker fun k => { k with auditPending := true }).picker.auditPending = true
      ∧ ready.picker.state = .idle ∧ ready.picker.condition = .ready ∧ (ready.picker.queue.all fun e => !e.replied) = true
      ∧ ready.picker.mailAuditDue = false)
    ∧ waiting.picker.state = .idle ∧ waiting.picker.condition = .ready ∧ waiting.picker.mailAuditDue = false
    ∧ waiting.picker.auditPending = false ∧ waiting.mailOpen = false ∧ waiting.picker.queue = entry1 :: []
    ∧ (([entry1]).all fun x => !x.replied && !x.requester.isInternal) = true ∧ entry1.phase = .queued ∧ recheck waiting entry1 = none
    ∧ isBay entry1.source = false := by decide +kernel

theorem witness_VolumeReleased : ready.takes .p0 0 ∧ l9.valid = true ∧ l2.valid = true ∧ ready.volume l9 = none
    ∧ ready.volume l2 = some (vol2 (.element 17)) ∧ (vol2 (.element 17)).owner = some .p0 ∧ Port.p0 ≠ .p1 ∧ ready.takes .p1 0
    ∧ loaded.volume l2 = some (vol2 (.element (bayPea .d0))) ∧ isBay 17 = false ∧ ready.isClaimed 17 = false
    ∧ ready.volume l1 = some (newVolume l1 16) ∧ (newVolume l1 16).owner = none ∧ (setClaim ready 17 0).isClaimed 17 = true
    ∧ (placing (move0 .move 16 (some 18) (.run .place)) 18).volume l1 = some { newVolume l1 16 with location := .picker } := by
  unfold State.takes; decide +kernel
theorem witness_VolumeReleased_written : releasing.releaseWrites = release1 false :: [] ∧ releasing.storeWrite = none
    ∧ (configuring false).releaseWrites = release1 false :: [] ∧ (release1 false).behind = false ∧ (release1 false).tag = some 2
    ∧ (releasing.port .p0).up = true := by decide +kernel

theorem witness_ReportsAnswered : ready.takes .p0 0 ∧ (64 : Half) ≠ 0 ∧ (65 : Half) ≠ 0 ∧ l2.valid = true
    ∧ ready.volume l2 = some (vol2 (.element 17))
    ∧ ((vol2 (.element 17)).owner.isNone || (vol2 (.element 17)).owner = some .p0) = true := by
  unfold State.takes; decide +kernel

theorem witness_ReportSettings : ready.takes .p0 0 := by unfold State.takes; decide +kernel

/-- The motion limit set to 30 s (Table 10-5, setting 09h); a setting that is none. -/
def limit30 : SettingEntry := ⟨0x09, 0, 30⟩
def noSetting : SettingEntry := ⟨0x7F, 0, 0⟩
def storing : State := { ready with storeWrite := some ⟨.p0, some 1, [limit30]⟩ }
theorem witness_SettingsTaken : ready.takes .p0 0 ∧ (ready.port .p0).tags.length = 8 ∧ ready.configWaiting = [] ∧ ready.storeWrite = none ∧ configRefusal ready [limit30] = none
    ∧ configRefusal ready [] = none ∧ configRefusal ready [noSetting] = some .badRequest ∧ storing.takes .p0 0
    ∧ storing.storeWrite.isSome = true ∧ storing.storeWrite = some ⟨.p0, some 1, [limit30]⟩ ∧ storing.configWaiting = []
    ∧ (storing.releaseWrites.head?.all fun r => r.behind) = true ∧ ((configuring true).releaseWrites.head?.all fun r => r.behind) = true
    ∧ [limit30] ≠ [] ∧ (storing.port .p0).up = true
    ∧ configRefusal ready [toP1] = none ∧ (ready.settings.with [toP1]).partition ≠ ready.settings.partition
    ∧ (ready.settings.with [limit30]).partition = ready.settings.partition := by
  unfold State.takes; decide +kernel
theorem witness_SettingsTaken_law : storing.creditHolds := by
  refine ⟨by decide, fun o => ?_, fun q h => ?_⟩
  · cases o with
    | writeHome p => cases p <;> decide +kernel
    | readHome p => cases p <;> decide +kernel
    | pool => decide +kernel
    | internal => decide +kernel
  · cases h; decide +kernel

/-- The drive at block 10 and frame 40, where VOL00002's data end. -/
def atEnd : State := loaded.modDrive .d0 fun d => { d with position := some ⟨some 10, some 40⟩ }
/-- An opening of port p on D0 that waits, its drive at rest. -/
def startup0 (p : Port) : State := loaded.modStream .d0 fun _ => openedStream p 0 (vol2 (.element 1)) 1 0 4
theorem witness_OpenStreamAccepted : loaded.takes .p0 0 ∧ bayOf 0 = some .d0 ∧ Bay.d0 ∉ (loaded.port .p0).released
    ∧ bayRefusal ready .p0 .d0 = some .driveBusy ∧ bayRefusal (startup0 .p0) .p0 .d0 = some .driveBusy ∧ bayRefusal loaded .p0 .d0 = none
    ∧ loaded.driveVolume .d0 = some (vol2 (.element 1)) ∧ firstRefusal (openTests loaded .p0 .d0 0 1 0) = none
    ∧ firstRefusal (openTests loaded .p0 .d0 1 0 10) = none
    ∧ (loaded.drive .d0).standsAt 10 (openNeedsFrame (vol2 (.element 1)) 0 0) = false
    ∧ (atEnd.drive .d0).standsAt 10 (openNeedsFrame (vol2 (.element 1)) 0 0) = true
    ∧ bayRefusal atEnd .p0 .d0 = none ∧ firstRefusal (openTests atEnd .p0 .d0 0 1 0) = none := by
  unfold State.takes; decide +kernel

/-- An opening of P0 on D0 FROM block 4, its LOCATE outstanding. -/
def opening (from_ : Option Nat) : State :=
  (loaded.modDrive .d0 fun d => { d with state := .positioning, order := some (.locate 4), timer := .running 600000 }).modStream .d0
    fun _ => { openedStream .p0 0 (vol2 (.element 1)) 1 0 4 with openFrom := from_ }
theorem witness_OverwriteAtOpening : ((opening (some 4)).driveVolume .d0 = some (vol2 (.element 1))
      ∧ ((opening (some 4)).drive .d0).order = some (.locate 4) ∧ ((opening (some 4)).stream .d0).state = .opening
      ∧ ((opening (some 4)).stream .d0).abandoned = false ∧ ((opening (some 4)).stream .d0).port = some .p0
      ∧ ((opening (some 4)).stream .d0).openFrom = some 4 ∧ 4 < (vol2 (.element 1)).eod.getD 0)
    ∧ (((none : Option Nat).all fun n => decide ((vol2 (.element 1)).eod.getD 0 ≤ n)) = true)
    ∧ (((some 10).all fun n => decide ((vol2 (.element 1)).eod.getD 0 ≤ n)) = true)
    ∧ loaded.takes .p0 0 ∧ bayOf 0 = some .d0 ∧ Bay.d0 ∉ (loaded.port .p0).released ∧ bayRefusal loaded .p0 .d0 = none
    ∧ firstRefusal (openTests loaded .p0 .d0 1 0 0) = none ∧ (loaded.drive .d0).position = some ⟨some 0, some 0⟩ ∧ l1 ≠ l2 := by
  unfold State.takes; decide +kernel
theorem witness_OverwriteAtOpening_runs : (∃ t, exec (.located .d0 4 9) (opening (some 4)) = .next t)
    ∧ ∃ t, exec (.openStream .p0 0 0 1 0 0) loaded = .next t := ⟨⟨_, rfl⟩, ⟨_, rfl⟩⟩

/-- P0's windows open at the default settings, its stream in state st. -/
def granted (st : StreamState) : State :=
  { streaming st with buffer := State.reset.buffer.attach State.reset.creditEnv .p0 }
/-- One record RAW before the mark. -/
def behindRaw : State := (granted .open).modStream .d0 fun c => { c with records := [{ rec0 with state := .raw, coded := none }] }
theorem witness_WritesAppendRecords : ((granted .open).port .p0).up = true ∧ bayOf 0 = some .d0 ∧ ((granted .open).stream .d0).port = some .p0
    ∧ ((granted .open).stream .d0).state = .open ∧ windowsHold (granted .open).buffer .p0 64 = true ∧ unitsFor 32768 = 64
    ∧ unitsFor 1 = 1 ∧ windowsHold (granted .open).buffer .p0 1 = true ∧ raw4.length % 4 = 0
    ∧ markCount (granted .open) .d0 < 63 ∧ windowsHold (granted .open).buffer .p0 0 = true
    ∧ windowsHold behindRaw.buffer .p0 0 = true ∧ (behindRaw.stream .d0).state = .open ∧ markCount behindRaw .d0 < 63
    ∧ (((behindRaw.stream .d0).records.find? fun r => decide (r.state ≠ .inDrive)).any fun r => decide (r.state ≠ .stored)) = true := by
  decide +kernel

/-- A stream with 63 marks in its list, and one FAULTED. -/
def fullMarks : State :=
  { granted .open with
    store := { loaded.store with volumes := [newVolume l1 16, { vol2 (.element 1) with eod := some 100, marks := List.range 63 }] } }
def faultedStream : State := (streaming .faulted).modStream .d0 fun c => { c with fault := some .writeFault }
theorem witness_WritesRefused : ((granted .open).port .p0).up = true ∧ bayOf 0 = some .d0 ∧ (flagOf 1).isSome = true
    ∧ ((granted .open).stream .d0).port = some .p0 ∧ ((granted .open).stream .d0).state = .open ∧ [1, 2, 3].length % 4 ≠ 0
    ∧ ((streaming .open).stream .d0).state = .open ∧ ((streaming .open).port .p0).up = true
    ∧ windowsHold (streaming .open).buffer .p0 (unitsFor raw4.length) = false ∧ 63 ≤ markCount fullMarks .d0
    ∧ (fullMarks.stream .d0).state = .open ∧ ((streaming .writeHalted).stream .d0).state = .writeHalted
    ∧ ((streaming .mediumEnd).stream .d0).state = .mediumEnd ∧ ((streaming .draining).stream .d0).state = .draining
    ∧ (faultedStream.stream .d0).state = .faulted ∧ (faultedStream.stream .d0).fault = some .writeFault := by decide +kernel

/-- The stream with a record not committed, and one SYNC pending for what is. -/
def synced : State :=
  (streaming .open).modStream .d0 fun c => { c with highestCommitted := some 0, nextRecord := 1, syncs := [⟨0, 1⟩] }
theorem witness_ResumeAndSync : (streaming .open).takes .p0 0 ∧ bayOf 0 = some .d0 ∧ ((streaming .open).stream .d0).port = some .p0
    ∧ ((streaming .open).stream .d0).state = .open ∧ (streaming .writeHalted).takes .p0 0
    ∧ ((streaming .writeHalted).stream .d0).state = .writeHalted
    ∧ ((streaming .open).stream .d0).syncOutcome ((streaming .open).stream .d0).nextRecord = some .done
    ∧ (writing.stream .d0).syncOutcome (writing.stream .d0).nextRecord = none ∧ writing.takes .p0 0
    ∧ (synced.stream .d0).syncs = [⟨0, 1⟩] ∧ (⟨0, 1⟩ : PendingSync).upTo ≤ (synced.stream .d0).committedCount
    ∧ synced.takes .p0 0 := by
  unfold State.takes; decide +kernel

/-- P0's stream drained, an ABORT of P1 waiting for its close: P1 claims the bay (log entry 16). -/
def abortWaits : State :=
  (openTag (streaming .draining) .p1 3 .abort).modStream .d0 fun c => { c with closing := [⟨.p1, true, .discard, some 3⟩] }
/-- R122: the ABORT is answered to the port that sent it. -/
theorem test_abort_answered_to_sender : ((after (.streamClose .d0) abortWaits).port .p1).sending
      = some (.control (.reply ⟨ReqKind.abort.code, 3, .done, false, .none, true⟩))
    ∧ ((after (.streamClose .d0) abortWaits).port .p0).sending = none := by decide +kernel
theorem witness_StreamsClose : (streaming .open).takes .p0 0 ∧ bayOf 0 = some .d0 ∧ ((streaming .open).stream .d0).port = some .p0
    ∧ ((streaming .open).stream .d0).state = .open ∧ ((streaming .writeHalted).stream .d0).state = .writeHalted
    ∧ ((streaming .mediumEnd).stream .d0).state = .mediumEnd ∧ ((streaming .draining).stream .d0).state = .draining
    ∧ faultedStream.takes .p0 0 ∧ (faultedStream.stream .d0).state = .faulted ∧ (flagOf 0).isSome = true
    ∧ streamDrained abortWaits .d0 = true ∧ (abortWaits.stream .d0).closing = [⟨.p1, true, .discard, some 3⟩] ∧ (abortWaits.port .p1).up = true
    ∧ streamDrained (streaming .draining) .d0 = true ∧ ((streaming .draining).drive .d0).activity = .stream .p0 := by
  unfold State.takes; decide +kernel

theorem witness_RunsAccepted_read : loaded.takes .p0 0 ∧ bayOf 0 = some .d0 ∧ Bay.d0 ∉ (loaded.port .p0).released
    ∧ bayRefusal loaded .p0 .d0 = none ∧ addressOf 0 9 0 0 = some (.block 9) ∧ flagOf 1 = some true ∧ 1 ≤ (1 : Half).toNat
    ∧ firstRefusal (readableTests loaded .p0 .d0) = none ∧ loaded.driveVolume .d0 = some (vol2 (.element 1))
    ∧ addressOf 0 10 0 0 = some (.block 10)
    ∧ resolve (vol2 (.element 1)) (loaded.drive .d0).continuation (.block 10) = .inl .beyondData
    ∧ resolve (vol2 (.element 1)) (loaded.drive .d0).continuation (.block 9) = .inr 9
    ∧ (loaded.drive .d0).posBlock ≠ some 9 := by
  unfold State.takes; decide +kernel

/-- VOL00002 verified to its end. -/
def verified : State :=
  { loaded with store := { loaded.store with volumes := [newVolume l1 16, { vol2 (.element 1) with verifiedTo := 10 }] } }
theorem witness_RunsAccepted_verify : loaded.takes .p0 0 ∧ bayOf 0 = some .d0 ∧ Bay.d0 ∉ (loaded.port .p0).released
    ∧ bayRefusal loaded .p0 .d0 = none ∧ verifyFormOf 2 1 9 = some (.range 1 9)
    ∧ firstRefusal (verifyTests loaded .p0 .d0 (.range 1 9)) = none ∧ loaded.driveVolume .d0 = some (vol2 (.element 1))
    ∧ verifyRange (vol2 (.element 1)) (.range 1 9) = (1, 10) ∧ (loaded.drive .d0).posBlock ≠ some 1
    ∧ verified.takes .p0 0 ∧ bayRefusal verified .p0 .d0 = none ∧ verifyFormOf 1 0 0 = some .resume
    ∧ firstRefusal (verifyTests verified .p0 .d0 .resume) = none
    ∧ (verified.driveVolume .d0).map (verifyRange · .resume) = some (10, 10) := by
  unfold State.takes; decide +kernel

/-- A run of port q that a drive fault ended, on the bay that P0 has since claimed. -/
def otherRun (q : Port) : State := loaded.setRestore .d0 (some { run0 with port := q })
/-- P1's runs that are still the activity of the bay that P0 has since claimed (log entry 16). -/
def claimedRun : State := (otherRun .p1).modDrive .d0 fun d => { d with activity := .restore .p1 }
def claimedPass : State := (verifying { pass0 with port := .p1 }).modDrive .d0 fun d => { d with activity := .verify .p1 }
/-- P0 returned, its run of before the link loss still to close. -/
def lostRun : State :=
  (loaded.setRestore .d0 (some { run0 with tag := none, phase := .ending, ending := some ⟨.aborted, none⟩ })).modDrive .d0 fun d =>
    { d with activity := .restore .p0 }
theorem witness_AbortEndsTheBay : (loaded.takes .p0 0 ∧ (loaded.drive .d0).claim = some .p0 ∧ loaded.restore .d0 = none
      ∧ loaded.verifyRun .d0 = none ∧ (loaded.stream .d0).state = .closed)
    ∧ ((streaming .open).takes .p0 0 ∧ ((streaming .open).drive .d0).claim = some .p0 ∧ (streaming .open).restore .d0 = none
      ∧ (streaming .open).verifyRun .d0 = none ∧ ((streaming .open).stream .d0).active = true)
    ∧ ((restoring []).takes .p0 1 ∧ ((restoring []).drive .d0).claim = some .p0 ∧ (restoring []).runLost .p0 .d0 = false
      ∧ (restoring []).restore .d0 = some run0)
    ∧ (lostRun.takes .p0 1 ∧ (lostRun.drive .d0).claim = some .p0 ∧ lostRun.runLost .p0 .d0 = true)
    ∧ ((otherRun .p1).takes .p0 1 ∧ ((otherRun .p1).drive .d0).claim = some .p0 ∧ (otherRun .p1).restore .d0 = some { run0 with port := .p1 }
      ∧ (otherRun .p1).verifyRun .d0 = none ∧ ((otherRun .p1).stream .d0).state = .closed)
    ∧ (verifying pass0).takes .p0 1 ∧ ((verifying pass0).drive .d0).claim = some .p0 ∧ (verifying pass0).restore .d0 = none
    ∧ (verifying pass0).runLost .p0 .d0 = false
    ∧ (verifying pass0).verifyRun .d0 = some pass0
    ∧ ((otherRun .p1).drive .d0).activity.isRestore = false
    ∧ (claimedRun.takes .p0 1 ∧ (claimedRun.drive .d0).claim = some .p0 ∧ claimedRun.runLost .p0 .d0 = false
      ∧ claimedRun.restore .d0 = some { run0 with port := .p1 } ∧ (claimedRun.drive .d0).activity.isRestore = true)
    ∧ claimedPass.takes .p0 1 ∧ (claimedPass.drive .d0).claim = some .p0 ∧ claimedPass.runLost .p0 .d0 = false
    ∧ claimedPass.restore .d0 = none ∧ claimedPass.verifyRun .d0 = some { pass0 with port := .p1 }
    ∧ (claimedPass.drive .d0).activity.isVerify = true := by
  unfold State.takes; decide +kernel

theorem witness_AbortEndsTheBay_streams : ((opening none).takes .p0 1 ∧ ((opening none).drive .d0).claim = some .p0
      ∧ (opening none).restore .d0 = none ∧ (opening none).verifyRun .d0 = none ∧ ((opening none).stream .d0).state = .opening)
    ∧ faultedStream.takes .p0 0 ∧ (faultedStream.drive .d0).claim = some .p0 ∧ faultedStream.restore .d0 = none
    ∧ faultedStream.verifyRun .d0 = none ∧ (faultedStream.stream .d0).state = .faulted := by
  unfold State.takes; decide +kernel

/-- P0 ends P1's run; its own ABORT is answered, to P0, when the run closes, also after P1's link is lost. -/
theorem test_abort_ends_anothers_run : (after (.abort .p0 1 0) claimedRun).restore .d0
      = some { run0 with port := .p1, phase := .ending, ending := some ⟨.aborted, none⟩, aborts := [⟨.p0, 1⟩] }
    ∧ ((after (.restoreRunClose .d0) (after (.linkDown .p1) (after (.abort .p0 1 0) claimedRun))).drive .d0).activity = .none
    ∧ ((after (.restoreRunClose .d0) (after (.linkDown .p1) (after (.abort .p0 1 0) claimedRun))).port .p0).control
      = [.reply ⟨ReqKind.abort.code, 1, .done, false, .none, true⟩]
    ∧ ((after (.linkDown .p0) (after (.abort .p0 1 0) claimedRun)).restore .d0).map (·.aborts) = some [] := by decide +kernel

def endedRun : RestoreRun := { run0 with phase := .ending, ending := some ⟨.endOfData, some 10⟩ }
def closingRestore : State := (loaded.setRestore .d0 (some endedRun)).modDrive .d0 fun d => { d with activity := .restore .p0 }
def endedPass : VerifyRun := { pass0 with phase := .ending, ending := some ⟨.done, some 10⟩ }
theorem witness_RunsClose : closingRestore.restore .d0 = some endedRun ∧ endedRun.ending = some ⟨.endOfData, some 10⟩
    ∧ restoreCloses closingRestore .d0 endedRun = true ∧ (closingRestore.drive .d0).activity = .restore endedRun.port
    ∧ (verifying endedPass).verifyRun .d0 = some endedPass ∧ endedPass.ending = some ⟨.done, some 10⟩
    ∧ verifyCloses (verifying endedPass) .d0 endedPass = true ∧ ((verifying endedPass).drive .d0).activity = .verify endedPass.port
    ∧ (verifying endedPass).volume endedPass.volume = some (vol2 (.element 1)) := by decide +kernel
/-- The same runs left behind by newer work. -/
def leftRuns : State := setAside (closingRestore.setVerify .d0 (some endedPass)) .d0
theorem witness_RunsClose_left : leftRuns.restore .d0 = none ∧ (leftRuns.restores.get .d0).left = endedRun :: []
    ∧ leftRestoreCloses leftRuns .d0 endedRun = true ∧ leftRuns.verifyRun .d0 = none
    ∧ (leftRuns.verifies.get .d0).left = endedPass :: [] ∧ leftVerifyCloses endedPass = true
    ∧ leftRuns.volume endedPass.volume = some (vol2 (.element 1)) := by decide +kernel

def ordered (o : Order) (st : DriveState) : State :=
  loaded.modDrive .d0 fun d => { d with order := some o, state := st, timer := .running 600000 }
def threading : State :=
  (ordered .thread .threading).modPicker fun k => { k with queue := [move0 .load 17 (some 1) .threadWait] }
def ejecting : State :=
  (ordered (.unthread false) .unthreading).modPicker fun k => { k with queue := [move0 .unload 1 (some 17) .unthreadWait] }
theorem witness_ThreadingReported : (threading.drive .d0).order = some .thread ∧ 1 ≤ 1 ∧ 3 ≤ 3
    ∧ threading.driveVolume .d0 = some (vol2 (.element 1))
    ∧ threadWaiter threading .d0 = some (move0 .load 17 (some 1) .threadWait) ∧ (threading.drive .d0).volume = some l2
    ∧ threading.volume l2 = some (vol2 (.element 1)) ∧ (ejecting.drive .d0).order = some (.unthread false)
    ∧ unthreadWaiter ejecting .d0 = some (move0 .unload 1 (some 17) .unthreadWait)
    ∧ (move0 .unload 1 (some 17) .unthreadWait).dest.isSome = true := by decide +kernel

theorem witness_StatusRebuilds : ((ordered .query .idle).drive .d0).order = some .query ∧ (ordered .query .idle).picker.audit = none
    ∧ (ordered .query .idle).picker.held = none ∧ (ordered .query .idle).installed (bayPea .d0) = true
    ∧ ((ordered .query .idle).drive .d0).state ≠ .faulted ∧ 1 ≤ 1 ∧ 3 ≤ 3 := by decide +kernel
/-- The query of D0 within a full audit: the last bay, and the start-up audit with D1 still to ask. -/
def asking (startup : Bool) (bays : List Bay) : State :=
  (ordered .query .idle).modPicker fun k =>
    { k with state := .auditing, condition := .auditing, audit := some ⟨true, startup, [], bays, some .d0, [], [], []⟩ }
theorem witness_StatusRebuilds_audit : ((asking false []).drive .d0).order = some .query
    ∧ (asking false []).picker.audit = some ⟨true, false, [], [], some .d0, [], [], []⟩ ∧ (asking false []).picker.held = none
    ∧ ((asking true [.d1]).drive .d0).order = some .query
    ∧ (asking true [.d1]).picker.audit = some ⟨true, true, [], [Bay.d0.other], some .d0, [], [], []⟩
    ∧ ((asking true [.d1]).drive .d1).owes = false ∧ (asking true [.d1]).picker.held = none
    ∧ ((asking true [.d1]).picker.queue.all fun e => e.phase ≠ .threadWait && e.phase ≠ .unthreadWait) = true
    ∧ (asking true [.d1]).installed (bayPea .d0) = true := by decide +kernel

def seeking : State :=
  (verifying { pass0 with phase := .positioning }).modDrive .d0 fun d =>
    { d with state := .positioning, order := some (.locate 0), timer := .running 600000 }
theorem witness_PositioningReported : ((opening none).drive .d0).order = some (.locate 4) ∧ ((opening none).stream .d0).state = .opening
    ∧ ((opening none).stream .d0).abandoned = false ∧ ((opening none).stream .d0).port = some .p0
    ∧ (opening none).driveVolume .d0 = some (vol2 (.element 1)) ∧ (seeking.drive .d0).order = some (.locate 0)
    ∧ (seeking.stream .d0).state ≠ .opening ∧ seeking.restore .d0 = none
    ∧ seeking.verifyRun .d0 = some { pass0 with phase := .positioning } ∧ pass0.ending = none := by decide +kernel

def late (up : Bool) : State :=
  (writing.modStream .d0 fun c => { c with timer := .running 200, highestCommitted := some 0, unreported := 1 }).modPort .p0 fun c =>
    { c with up := up }
/-- A mark in flight in place of the block. -/
def writingMark : State :=
  (writing.modDrive .d0 fun d => { d with inFlight := [⟨10, true, 1, 0, head4⟩] }).modStream .d0 fun c =>
    { c with records := c.records.map fun r => { r with kind := .mark, rawLen := 0, coded := none } }
theorem witness_CommitsRecordedAndReported : (writing.drive .d0).inFlight = ⟨10, false, 2, 0, head4⟩ :: []
    ∧ (⟨10, false, 2, 0, head4⟩ : Flight).isMark = false
    ∧ (writing.stream .d0).records.find? (fun x => x.num = 0) = some { rec0 with state := .inDrive, block := some 10, writes := 1 }
    ∧ writing.driveVolume .d0 = some (vol2 (.element 1)) ∧ (writingMark.drive .d0).inFlight = ⟨10, true, 1, 0, head4⟩ :: []
    ∧ (⟨10, true, 1, 0, head4⟩ : Flight).isMark = true
    ∧ ((writingMark.stream .d0).records.find? fun x => x.num = 0).isSome = true
    ∧ writingMark.driveVolume .d0 = some (vol2 (.element 1)) ∧ ((late true).stream .d0).timer.isRunning = true
    ∧ ((late true).stream .d0).port = some .p0 ∧ ((late true).port .p0).up = true ∧ ((late false).port .p0).up = false := by decide +kernel

/-- The third write of the record fails; and the gap that follows. -/
def thirdWrite : State := writing.modStream .d0 fun c => { c with records := c.records.map fun r => { r with writes := 3 } }
def gapping : State := writing.modDrive .d0 fun d => { d with inFlight := [], gap := true }
/-- A record to be written again, its first write under set number 7; and the header of a first write. -/
def rewriting : State :=
  (gapping.modDrive .d0 fun d => { d with position := some ⟨some 10, none⟩ }).modStream .d0 fun c =>
    { c with records := [{ rec0 with block := some 10, writes := 1, header := some { head4 with setNumber := 7 } }] }
/-- R186: the rewrite repeats the header of the first write, though the mark list gives set number 1 now. -/
theorem test_rewrite_repeats_header :
    ((after (.gapDone .d0) rewriting).drive .d0).inFlight = [⟨10, false, 2, 0, { head4 with setNumber := 7 }⟩]
    ∧ setNumberAt rewriting .d0 0 10 = 1 := by decide +kernel
theorem witness_WriteFaultsRecovered : (thirdWrite.drive .d0).inFlight = ⟨10, false, 2, 0, head4⟩ :: [] ∧ (thirdWrite.drive .d0).gap = false
    ∧ (thirdWrite.drive .d0).position = some ⟨some 11, some 42⟩ ∧ thirdWrite.driveVolume .d0 = some (vol2 (.element 1))
    ∧ (thirdWrite.stream .d0).discard = false ∧ (thirdWrite.stream .d0).firstUnsent = none
    ∧ ((thirdWrite.stream .d0).records.all fun x => decide (x.num = 0 → x.writes < 4)) = true
    ∧ (vol2 (.element 1)).framesUsed + 2 + 64 ≤ Config.capacity (vol2 (.element 1)).cls ∧ (gapping.drive .d0).gap = true
    ∧ gapping.driveVolume .d0 = some (vol2 (.element 1)) := by decide +kernel

def readingEntry : Staged := ⟨0, some 0, .reading, none, false, false⟩
def reading : State :=
  (restoring [readingEntry]).modDrive .d0 fun d => { d with state := .reading, order := some (.read 0), timer := .running 600000 }
theorem witness_ReadsReported : (reading.drive .d0).order = some (.read 0) ∧ reading.restore .d0 = some { run0 with staged := [readingEntry] }
    ∧ run0.ending = none ∧ run0.index = none ∧ [readingEntry].find? (fun x => x.stage = .reading) = some readingEntry
    ∧ readingEntry.desc = some 0 ∧ dataFits head4 raw4 = true ∧ dataFits ⟨2, 0, 0, 0, 0, 0, 0⟩ [] = true := by decide +kernel
/-- The index block of the run being read: a data block, an index block, and one whose header fails R128. -/
def index0 : IndexRead := ⟨0, some 0, .reading⟩
def readingIndex : State := reading.modRestore .d0 fun r => { r with index := some index0, staged := [] }
theorem witness_ReadsReported_index : (readingIndex.drive .d0).order = some (.read 0)
    ∧ readingIndex.restore .d0 = some { run0 with index := some index0 } ∧ run0.ending = none ∧ index0.stage = .reading
    ∧ index0.desc = some 0 ∧ head4.kind ≠ kindIndex ∧ dataFits { head4 with kind := kindIndex } raw4 = true
    ∧ headerPasses { head4 with kind := kindIndex } = true ∧ headerPasses { head4 with kind := kindIndex, storedLen := 3 } = false
    ∧ dataFits { head4 with kind := kindIndex, storedLen := 3 } [1, 2, 3] = true ∧ readingIndex.offered .d0 = none
    ∧ readingIndex.volume run0.volume = some (vol2 (.element 1)) := by decide +kernel

theorem witness_BaysGoDown : reading.picker.audit = none ∧ (reading.drive .d0).owes = true ∧ (reading.drive .d0).state ≠ .offline
    ∧ (reading.drive .d0).timer.isRunning = true := by decide +kernel

/-- Both offer places full, D1 last served; and D0's alone. -/
def twoOffers : State :=
  ready.modEngine fun e => { e with offer := ⟨some (item .deliver), some { item .deliver with bay := .d1 }⟩ }
def oneOffer : State := ready.modEngine fun e => { e with offer := ⟨some (item .deliver), none⟩ }
/-- One item behind another; and an entry due an offer place that is empty. -/
def stackedOffer : State := oneOffer.modEngine fun e => { e with behind := ⟨[item .deliver], []⟩ }
def dueEntry : Staged := ⟨0, some 0, .expanding, some head4, true, false⟩
def due : State := restoring [dueEntry]
/-- A RAW record in the engine's hand, and the drive busy with as many writes as it takes. -/
def shrinking : State :=
  inHand (.shrink true) (((streaming .open).modStream .d0 fun c =>
    { c with records := [{ rec0 with state := .inEngine, coded := none }], nextRecord := 1 }).modDrive .d0 fun d => { d with gap := true })
theorem witness_EngineServesTheBays : (twoOffers.engine.inHand = none
      ∧ twoOffers.engine.offer.get twoOffers.engine.lastServed.other = some (item .deliver)
      ∧ (item .deliver).bay = twoOffers.engine.lastServed.other
      ∧ twoOffers.engine.offer.get twoOffers.engine.lastServed = some { item .deliver with bay := .d1 })
    ∧ (oneOffer.engine.inHand = none ∧ oneOffer.engine.offer.get (item .deliver).bay = some (item .deliver)
      ∧ oneOffer.engine.offer.get (item .deliver).bay.other = none ∧ oneOffer.restores.get (item .deliver).bay.other = ⟨none, []⟩
      ∧ oneOffer.engine.behind.get (item .deliver).bay = [] ∧ oneOffer.restores.get (item .deliver).bay = ⟨none, []⟩
      ∧ (stackedOffer.engine.inHand = none ∧ stackedOffer.engine.offer.get .d0 = some (item .deliver)
        ∧ stackedOffer.engine.offer.get .d1 = none ∧ stackedOffer.engine.behind.get .d0 = item .deliver :: []))
    ∧ (due.engine.inHand = none ∧ due.engine.offer = .all none ∧ due.restores.get .d1 = ⟨none, []⟩
      ∧ due.restores.get .d0 = ⟨some { run0 with staged := [dueEntry] }, []⟩
      ∧ [dueEntry].find? (fun x => x.stage = .expanding && !x.offered) = some dueEntry ∧ dueEntry.rawReady = true
      ∧ due.engine.lastServed = .d1)
    ∧ shrinking.engine.inHand = some (item (.shrink true)) ∧ (item (.shrink true)).abandoned = false
    ∧ (shrinking.stream .d0).records.find? (fun x => x.desc = 0) = some { rec0 with state := .inEngine, coded := none }
    ∧ (shrinking.drive .d0).takesWrite = false ∧ (shrinking.stream .d0).nextBlock < 4294967295
    ∧ ((shrinking.stream .d0).records.all fun x => decide (x.block.getD 0 < 4294967295)) = true := by decide +kernel

/-- A PLAIN record staged and in the engine's hand: its bytes in descriptor 0, right or wrong. -/
def expandingEntry : Staged := ⟨0, some 0, .expanding, some head4, true, true⟩
def withBytes (bytes : List Byte) (s : State) : State :=
  { s with buffer := { s.buffer with descs := [{ held0 with units := [.readHome .p0], data := bytes }] } }
def expanding (bytes : List Byte) : State := inHand .deliver (withBytes bytes (restoring [expandingEntry]))
def checked : VerifyRun := { pass0 with phase := .checking, inHand := some (0, 0), next := 1 }
def checking (bytes : List Byte) : State := inHand .checkVerify (withBytes bytes (verifying checked))
/-- The run's index block in the engine's hand for entry e: its bytes, and the working store. -/
def indexing (bytes work : List Byte) (e : Nat) : State :=
  ((inHand (.checkIndex e) (withBytes bytes (restoring []))).modEngine fun g => { g with workRaw := work }).modRestore .d0 fun r =>
    { r with index := some ⟨0, some 0, .expanding⟩ }
/-- The entry 7 of a record that is GOOD, an entry beyond the data, an absent one, one past the record, and a record that fails. -/
theorem witness_ExpansionsComplete_index : (indexing raw4 [0, 0, 0, 7] 0).engine.inHand = some (item (.checkIndex 0))
    ∧ (indexing raw4 [0, 0, 0, 7] 0).restore .d0 = some { run0 with index := some ⟨0, some 0, .expanding⟩ } ∧ run0.ending = none
    ∧ (expandRecord head4 (itemBytes (indexing raw4 [0, 0, 0, 7] 0) (item (.checkIndex 0)))).2 = .good
    ∧ indexEntry (indexing raw4 [0, 0, 0, 7] 0).engine.workRaw 0 = some 7 ∧ 7 < run0.eod
    ∧ ((indexing raw4 [0, 0, 0, 7] 0).drive .d0).posBlock ≠ some 7 ∧ ((indexing raw4 [0, 0, 0, 7] 0).drive .d0).state = .idle
    ∧ indexEntry (indexing raw4 [0, 0, 0, 10] 0).engine.workRaw 0 = some 10 ∧ run0.eod ≤ 10
    ∧ indexEntry (indexing raw4 [255, 255, 255, 255] 0).engine.workRaw 0 = some 4294967295
    ∧ indexEntry (indexing raw4 [0, 0, 0, 7] 1).engine.workRaw 1 = none
    ∧ (expandRecord head4 (itemBytes (indexing [0, 0, 0, 7] [0, 0, 0, 7] 0) (item (.checkIndex 0)))).2 ≠ .good
    ∧ (indexing [0, 0, 0, 7] [0, 0, 0, 7] 0).volume run0.volume = some (vol2 (.element 1)) := by decide +kernel
theorem witness_ExpansionsComplete : ((expanding raw4).engine.inHand = some (item .deliver) ∧ (item .deliver).abandoned = false
      ∧ (expanding raw4).restore .d0 = some { run0 with staged := [expandingEntry] } ∧ run0.ending = none
      ∧ (expanding raw4).volume run0.volume = some (vol2 (.element 1))
      ∧ [expandingEntry].find? (fun x => x.desc = some 0) = some expandingEntry
      ∧ (expandRecord head4 (itemBytes (expanding raw4) (item .deliver))).2 = .good
      ∧ (expandRecord head4 (itemBytes (expanding [9, 2, 3, 4]) (item .deliver))).2 ≠ .good)
    ∧ (checking raw4).engine.inHand = some (item .checkVerify) ∧ (checking raw4).verifyRun .d0 = some checked
    ∧ checked.inHand = some (0, (item .checkVerify).desc) ∧ (checking raw4).volume checked.volume = some (vol2 (.element 1))
    ∧ (expandRecord head4 (itemBytes (checking raw4) (item .checkVerify))).2 = .good
    ∧ (expandRecord head4 (itemBytes (checking [9, 2, 3, 4]) (item .checkVerify))).2 ≠ .good := by decide +kernel

def reservingEntry : Staged := ⟨0, none, .reserving, none, false, false⟩
def wholeAlloc : Alloc := ⟨.p0, .d0, .read, some 0⟩
def allocated : State :=
  { restoring [reservingEntry] with buffer := { (restoring []).buffer with allocs := [wholeAlloc] } }
def expandAlloc : Alloc := ⟨.p0, .d0, .expand 0, some 0⟩
def expandAllocated : State :=
  { restoring [expandingEntry] with buffer := { (restoring []).buffer with allocs := [expandAlloc] } }
def reserved : State := { verifying pass0 with buffer := { State.reset.buffer with verifyWaiting := [.d0] } }
def allocatedIndex : State := { allocated with restores := .all ⟨some { run0 with index := some ⟨0, none, .reserving⟩ }, []⟩ }
/-- The state with D0 at block 5, as when its cartridge has been exchanged (log entry 16). -/
def movedOff (s : State) : State := s.modDrive .d0 fun d => { d with position := some ⟨some 5, none⟩ }
theorem witness_AllocationsComplete_elsewhere : ((movedOff allocated).buffer.readAlloc .d0 = some wholeAlloc
      ∧ (movedOff allocated).buffer.allocComplete wholeAlloc = true ∧ ((movedOff allocated).drive .d0).posBlock ≠ some 0
      ∧ ((movedOff allocated).drive .d0).owes = false ∧ ((movedOff allocated).drive .d0).state = .idle)
    ∧ (allocatedIndex.buffer.readAlloc .d0 = some wholeAlloc ∧ allocatedIndex.buffer.allocComplete wholeAlloc = true
      ∧ allocatedIndex.restore .d0 = some { run0 with index := some ⟨0, none, .reserving⟩ } ∧ (allocatedIndex.drive .d0).owes = false
      ∧ (allocatedIndex.drive .d0).state = .idle ∧ (allocatedIndex.drive .d0).posBlock = some 0)
    ∧ ((movedOff allocatedIndex).drive .d0).posBlock ≠ some 0 ∧ (movedOff reserved).buffer.verifyWaiting = .d0 :: []
    ∧ (movedOff reserved).verifyRun .d0 = some pass0 ∧ ((movedOff reserved).drive .d0).posBlock ≠ some pass0.next
    ∧ ((movedOff reserved).drive .d0).owes = false ∧ ((movedOff reserved).drive .d0).state = .idle := by decide +kernel
theorem witness_AllocationsComplete : (allocated.drive .d0).posBlock = some 0 ∧ (reserved.drive .d0).posBlock = some pass0.next
    ∧ (allocated.buffer.readAlloc .d0 = some wholeAlloc ∧ allocated.buffer.allocComplete wholeAlloc = true
      ∧ allocated.restore .d0 = some { run0 with staged := [reservingEntry] } ∧ run0.ending = none ∧ run0.index = none
      ∧ [reservingEntry].find? (fun x => x.stage = .reserving) = some reservingEntry ∧ (allocated.drive .d0).owes = false
      ∧ (allocated.drive .d0).state = .idle)
    ∧ (expandAllocated.buffer.readyExpand .d0 = some expandAlloc
      ∧ expandAllocated.restore .d0 = some { run0 with staged := [expandingEntry] })
    ∧ reserved.buffer.verifyWaiting = .d0 :: [] ∧ reserved.verifyRun .d0 = some pass0 ∧ pass0.phase = .reserving
    ∧ reserved.buffer.internalFree = 64 ∧ 0 < reserved.buffer.descInternalFree ∧ (reserved.drive .d0).owes = false
    ∧ (reserved.drive .d0).state = .idle := by decide +kernel

theorem witness_RefillFillsTheUnitWindow : (pool43.share.get .p1).unitWindow ≤ env43.unitCeiling .p1
    ∧ env43.unitCeiling .p1 ≤ ((attached.buffer).share.get .p1).unitWindow
    ∧ (State.reset.buffer.share.get .p0).unitWindow ≤ State.reset.creditEnv.unitCeiling .p0 := by decide +kernel

theorem witness_CongestedUnitsGoByTurns : congested env43 pool43 = true ∧ poolWaiter env43 pool43 pool43.turnPort = true
    ∧ pool43.filling .p1 = none
    ∧ congested { env43 with up := ⟨true, false, true⟩ } pool43 = true
    ∧ poolWaiter { env43 with up := ⟨true, false, true⟩ } pool43 pool43.turnPort = false
    ∧ poolWaiter { env43 with up := ⟨true, false, true⟩ } pool43 pool43.turnPort.next = true
    ∧ pool43.filling .p0 = some ⟨.p0, .d0, .read, some 0⟩ ∧ env43.weight .p1 ≤ pool43.turnCount + 1
    ∧ { pool43 with turnCount := 0 }.turnCount + 1 < env43.weight .p1
    ∧ poolWaiter env43 (releaseUnit env43 pool43 .pool) Port.p1.next = true := by decide +kernel

end Sys2Proof.Tests
end

section
/-! PROOFS. What an opening leaves of the volume table (R15, R26, R100): the record under a label after one store write, the record of an
opening, and the two commands that report one. -/

namespace Sys2Proof.Machine

/-! ### Records under their labels (R12) -/

/-- A record read after a store write: the label asked for is the one written, or its record stands. -/
theorem volume_modVolume (s : State) (k l : Label) (f : Volume → Volume) (hf : ∀ v, (f v).label = v.label) :
    (modVolume s k f).volume l = (s.volume l).map fun v => if l = k then f v else v := by
  have hlabel : ((fun v : Volume => decide (v.label = l)) ∘ fun v => if v.label = k then f v else v)
      = fun v => decide (v.label = l) := by
    funext v
    by_cases hk : v.label = k <;> simp [hk, hf]
  simp only [State.volume, modVolume, mapVolumes, setVolumes, List.find?_map, hlabel]
  refine Option.map_congr fun v hv => ?_
  have : v.label = l := by simpa using List.find?_some hv
  rw [this]

theorem volume_of_store_eq {s t : State} (h : t.store = s.store) (l : Label) : t.volume l = s.volume l := by
  simp only [State.volume, h]

theorem driveVolume_eq_some_iff (s : State) (b : Bay) (v : Volume) :
    s.driveVolume b = some v ↔ (s.drive b).volume = some v.label ∧ s.volume v.label = some v := by
  constructor
  · intro h
    obtain ⟨l, hl, hv⟩ := Option.bind_eq_some_iff.mp h
    have : v.label = l := by simpa using List.find?_some hv
    rw [this]
    exact ⟨hl, hv⟩
  · rintro ⟨hl, hv⟩
    simp only [State.driveVolume, hl, Option.bind_some, hv]

/-! ### The record of an opening (R15, R26) -/

/-- A volume record as the opening of an APPEND (`none`) or a FROM n by port p leaves it, reported with frame count f. -/
def Volume.opened (p : Port) (openFrom : Option Nat) (f : Nat) (v : Volume) : Volume :=
  let w := match openFrom with
    | some n => if n < v.eod.getD 0 then v.overwrite n f else v
    | none => v
  { w with owner := some p }

theorem Volume.opened_of_nothing_cut {p : Port} {openFrom : Option Nat} {v : Volume} (f : Nat)
    (h : openFrom.all (fun n => decide (v.eod.getD 0 ≤ n)) = true) : v.opened p openFrom f = { v with owner := some p } := by
  cases openFrom with
  | none => rfl
  | some n =>
    have : ¬ n < v.eod.getD 0 := by simpa using h
    simp only [Volume.opened, if_neg this]

theorem Volume.opened_of_below_eod {p : Port} {n : Nat} {v : Volume} (f : Nat) (h : n < v.eod.getD 0) :
    v.opened p (some n) f = { v.overwrite n f with owner := some p } := by
  simp only [Volume.opened, if_pos h]

@[simp] theorem Volume.opened_label (p : Port) (openFrom : Option Nat) (f : Nat) (v : Volume) :
    (v.opened p openFrom f).label = v.label := by
  cases openFrom with
  | none => rfl
  | some n => by_cases h : n < v.eod.getD 0 <;> simp [Volume.opened, h]

/-- The failure block stands below the cut alone. -/
theorem Volume.overwrite_failure (v : Volume) (n f : Nat) : (v.overwrite n f).failure = v.failure.filter fun x => decide (x < n) := by
  cases h : v.failure with
  | none => simp [Volume.overwrite, h]
  | some x => by_cases hx : n ≤ x <;> simp [Volume.overwrite, h, hx, Option.filter]

theorem Volume.overwrite_eq (v : Volume) (n f : Nat) : v.overwrite n f
    = { v with eod := if n = 0 then none else some n, framesUsed := f, marks := v.marks.filter fun m => decide (m < n),
               verifiedTo := min v.verifiedTo n, failure := v.failure.filter fun x => decide (x < n), rawTotal := 0,
               storedTotal := 0 } := by
  rw [← Volume.overwrite_failure v n f]
  rfl

theorem openVolume_eq_modVolume {s : State} {b : Bay} {v : Volume} (p : Port) (f : Nat) (hv : s.driveVolume b = some v) :
    openVolume s b p f = modVolume s v.label (Volume.opened p (s.stream b).openFrom f) := by
  obtain ⟨hl, -⟩ := (driveVolume_eq_some_iff s b v).mp hv
  simp only [openVolume, modDriveVolume, hl]
  rfl

/-! ### The end of an opening (R100) -/

theorem openingDone_store {s : State} {b : Bay} {p : Port} (f : Nat) (hp : (s.stream b).port = some p) :
    (openingDone s b f).store = (openVolume s b p f).store := by
  simp [openingDone, hp]

theorem openingDone_drives {s : State} {b : Bay} {p : Port} (f : Nat) (hp : (s.stream b).port = some p) :
    (openingDone s b f).drives = (s.modDrive b fun d => { d with activity := .stream p }).drives := by
  simp [openingDone, hp, State.modDrive]

theorem openingDone_drive_volume {s : State} {b : Bay} {p : Port} (f : Nat) (hp : (s.stream b).port = some p) :
    ((openingDone s b f).drive b).volume = (s.drive b).volume := by
  simp only [State.drive, openingDone_drives f hp]
  simp [State.modDrive]

/-- From s to t an opening of port p on bay b is reported with frame count `frame`: it ends on a state u that has the store, and in the
drive the volume, of s. -/
def OpeningReported (s t : State) (b : Bay) (p : Port) (openFrom : Option Nat) (frame : Nat) : Prop :=
  ∃ u, u.store = s.store ∧ (u.drive b).volume = (s.drive b).volume ∧ (u.stream b).port = some p ∧ (u.stream b).openFrom = openFrom
    ∧ t.store = (openingDone u b frame).store ∧ t.drives = (openingDone u b frame).drives

section
variable {s t : State} {b : Bay} {p : Port} {openFrom : Option Nat} {frame : Nat} {v : Volume}

theorem OpeningReported.volume (h : OpeningReported s t b p openFrom frame) (hv : s.driveVolume b = some v) (l : Label) :
    t.volume l = (s.volume l).map fun w => if l = v.label then w.opened p openFrom frame else w := by
  obtain ⟨u, hus, hud, hp, ho, hts, -⟩ := h
  have huv : u.driveVolume b = some v := by
    rw [driveVolume_eq_some_iff] at hv ⊢
    rwa [hud, volume_of_store_eq hus]
  calc t.volume l = (openVolume u b p frame).volume l := volume_of_store_eq (hts.trans (openingDone_store frame hp)) l
    _ = (u.volume l).map _ := by
        rw [openVolume_eq_modVolume p frame huv, ho]
        exact volume_modVolume u v.label l _ (Volume.opened_label p openFrom frame)
    _ = (s.volume l).map _ := by rw [volume_of_store_eq hus]

theorem OpeningReported.driveVolume (h : OpeningReported s t b p openFrom frame) (hv : s.driveVolume b = some v) :
    t.driveVolume b = some (v.opened p openFrom frame) := by
  have hvol := h.volume hv v.label
  obtain ⟨u, -, hud, hp, -, -, htd⟩ := h
  obtain ⟨hl, hsv⟩ := (driveVolume_eq_some_iff s b v).mp hv
  have htv : (t.drive b).volume = some v.label := by
    rw [State.drive, htd]
    exact (openingDone_drive_volume frame hp).trans (hud.trans hl)
  rw [driveVolume_eq_some_iff, Volume.opened_label]
  exact ⟨htv, by simp [hvol, hsv]⟩

theorem OpeningReported.volume_of_ne (h : OpeningReported s t b p openFrom frame) (hv : s.driveVolume b = some v) {l : Label}
    (hl : l ≠ v.label) : t.volume l = s.volume l := by
  simp [h.volume hv l, hl]

/-! ### The commands that report an opening (R61, R99) -/

theorem openingReported_of_located {a : Nat} (ho : (s.drive b).order = some (.locate a)) (hst : (s.stream b).state = .opening)
    (hab : (s.stream b).abandoned = false) (hp : (s.stream b).port = some p) (hf : (s.stream b).openFrom = openFrom)
    (hx : exec (.located b a frame) s = .next t) : OpeningReported s t b p openFrom frame := by
  let u := s.modDrive b fun d => { d.answered .idle with position := some ⟨some a, some frame⟩ }
  have hstep : exec (.located b a frame) s = finishCredit (openingDone u b frame) := by
    change execLocated b a frame s = _
    simp [execLocated, ho, positionReported, hst, hab, u]
  obtain rfl : pump (onBuffer (openingDone u b frame) settle) = t := by
    rw [hstep] at hx
    exact Host.Outcome.next.inj hx
  exact ⟨u, rfl, by simp [u, Drive.answered, Drive.replied], hp, hf, by simp, by simp⟩

/-- The state in which an accepted OPEN-STREAM asks for the start block (R99). -/
def openStarted (s : State) (p : Port) (tag : Byte) (b : Bay) (v : Volume) (mode shrink : Byte) (n : Nat) : State :=
  ((setAside s b).modStream b fun _ => openedStream p tag v mode shrink n).modDrive b fun d => { d with continuation := none }

@[simp] theorem openStarted_store (tag mode shrink : Byte) (n : Nat) :
    (openStarted s p tag b v mode shrink n).store = s.store := rfl

@[simp] theorem openStarted_drive (tag mode shrink : Byte) (n : Nat) :
    (openStarted s p tag b v mode shrink n).drive b = { s.drive b with continuation := none } :=
  (modDrive_at _ b b _).trans (if_pos rfl)

@[simp] theorem openStarted_stream (tag mode shrink : Byte) (n : Nat) :
    (openStarted s p tag b v mode shrink n).stream b = openedStream p tag v mode shrink n :=
  (modStream_at (setAside s b) b b fun _ => openedStream p tag v mode shrink n).trans (if_pos rfl)

/-- R61: the drive stands at the start block with its frame known, so no LOCATE is asked for. -/
theorem acceptOpen_of_position {tag mode shrink : Byte} {n : Nat}
    (hq : (s.drive b).position = some ⟨some (if mode = 1 then n else v.eod.getD 0), some frame⟩) :
    acceptOpen s p tag b v mode shrink n = openingDone (openStarted s p tag b v mode shrink n) b frame := by
  have hstand : ((openStarted s p tag b v mode shrink n).drive b).standsAt (openedStream p tag v mode shrink n).start
      (openNeedsFrame v mode n) = true := by
    simp [Drive.standsAt, Drive.posBlock, Drive.posFrame, hq, openedStream]
  have hframe : ((openStarted s p tag b v mode shrink n).drive b).posFrame.getD 0 = frame := by
    simp [Drive.posFrame, hq]
  rw [← hframe]
  exact if_pos hstand

/-- An OPEN_STREAM that passes every test is the acceptance on the state with its tag open. -/
theorem exec_openStream_accepted {tag bay mode shrink : Byte} {n : Word} (ht : s.takes p tag) (hb : bayOf bay = some b)
    (hr : b ∉ (s.port p).released) (h72 : bayRefusal s p b = none) (h99 : firstRefusal (openTests s p b mode shrink n.toNat) = none)
    (hv : s.driveVolume b = some v) : exec (.openStream p tag bay mode shrink n) s
      = .next (pump (acceptOpen (openTag s p tag .openStream) p tag b v mode shrink n.toNat)) := by
  have h72' : bayRefusal (openTag s p tag .openStream) p b = none := h72
  have h99' : firstRefusal (openTests (openTag s p tag .openStream) p b mode shrink n.toNat) = none := h99
  have hv' : (openTag s p tag .openStream).driveVolume b = some v := hv
  change execOpenStream p tag bay mode shrink n s = _
  rw [execOpenStream, request_taken _ _ ht, hb, unlessReleased_some _ _ _ _ _ _ (by rwa [openTag_released])]
  simp only [h72', h99', hv']

theorem openingReported_of_openStream {tag bay mode shrink : Byte} {n : Word} (ht : s.takes p tag) (hb : bayOf bay = some b)
    (hr : b ∉ (s.port p).released) (h72 : bayRefusal s p b = none) (h99 : firstRefusal (openTests s p b mode shrink n.toNat) = none)
    (hv : s.driveVolume b = some v)
    (hq : (s.drive b).position = some ⟨some (if mode = 1 then n.toNat else v.eod.getD 0), some frame⟩)
    (hx : exec (.openStream p tag bay mode shrink n) s = .next t) :
    OpeningReported s t b p (if mode = 1 then some n.toNat else none) frame := by
  let u := openStarted (openTag s p tag .openStream) p tag b v mode shrink n.toNat
  have haccept : acceptOpen (openTag s p tag .openStream) p tag b v mode shrink n.toNat = openingDone u b frame :=
    acceptOpen_of_position hq
  obtain rfl : pump (openingDone u b frame) = t := by
    rw [exec_openStream_accepted ht hb hr h72 h99 hv, haccept] at hx
    exact Host.Outcome.next.inj hx
  exact ⟨u, rfl, by rw [openStarted_drive]; rfl, by rw [openStarted_stream]; rfl, by rw [openStarted_stream]; rfl,
    pump_store _, pump_drives _⟩

end

/-- Settles O41: either report ends the opening on the record the drive names, and `Volume.opened` says what that leaves of it. -/
theorem overwriteAtOpening : Obligations.OverwriteAtOpening := by
  intro s t b p v openFrom frame hv hreport
  have hopen : OpeningReported s t b p openFrom frame := by
    rcases hreport with ⟨a, ho, hst, hab, hp, hf, hx⟩ | ⟨tag, bay, mode, shrink, n, ht, hb, hr, h72, h99, hq, rfl, hx⟩
    · exact openingReported_of_located ho hst hab hp hf hx
    · exact openingReported_of_openStream ht hb hr h72 h99 hv hq hx
  refine ⟨fun hall => ?_, ?_, fun l hl => hopen.volume_of_ne hv hl⟩
  · rw [hopen.driveVolume hv, Volume.opened_of_nothing_cut frame hall]
  · rintro n rfl hn
    rw [hopen.driveVolume hv, Volume.opened_of_below_eod frame hn, Volume.overwrite_eq]

end Sys2Proof.Machine
end

section
/-! PROOFS. The ratio figure (R138, R139): the scan over the codes is the library's `Nat.findGreatest` of the test, and each clause of
R139 is read off from that. -/

namespace Sys2Proof.Machine

section
variable {p : Nat → Bool} {r s c : Nat}

/-- Scanning the codes upward and keeping the last that passes finds the greatest, or 0 when none passes. -/
theorem foldl_range_keep_last (p : Nat → Bool) (n : Nat) :
    (List.range (n + 1)).foldl (fun best c => if p c then c else best) 0 = Nat.findGreatest (fun c => p c) n := by
  induction n with
  | zero => simp
  | succ n ih => rw [List.range_succ, List.foldl_append, ih, Nat.findGreatest_succ]; rfl

theorem figureMeets_iff : figureMeets c r s ↔ (8 + c % 8) * 2 ^ (c / 8) * s ≤ 16 * r := decide_eq_true_iff

/-- R138: the code c = 8e + f carries e and f as its two digits to the base 8. -/
theorem figureMeets_digits (e : Nat) {f : Nat} (hf : f ≤ 7) :
    figureMeets (8 * e + f) r s ↔ (8 + f) * 2 ^ e * s ≤ 16 * r := by
  have hmod : (8 * e + f) % 8 = f := by omega
  have hdiv : (8 * e + f) / 8 = e := by omega
  rw [figureMeets_iff, hmod, hdiv]

/-- Code 63 stands for the value 120, the largest of Table 6-2. -/
theorem figureMeets_63 : figureMeets 63 r s ↔ 120 * s ≤ r := by
  rw [figureMeets_iff]
  omega

theorem ratioFigure_zero (r : Nat) : ratioFigure r 0 = none := if_pos rfl

theorem ratioFigure_of_pos (r : Nat) (hs : 0 < s) :
    ratioFigure r s = some (Nat.findGreatest (fun c => figureMeets c r s) 63) :=
  (if_neg hs.ne').trans (congrArg some (foldl_range_keep_last (fun c => figureMeets c r s) 63))

end

/-- A search for the greatest either finds a number that passes, or answers 0 because none passes. -/
theorem findGreatest_passes_or_none (p : Nat → Bool) (n : Nat) :
    p (Nat.findGreatest (fun c => p c) n) ∨ (Nat.findGreatest (fun c => p c) n = 0 ∧ ∀ c ≤ n, ¬ p c) := by
  by_cases hsome : ∃ c ≤ n, p c
  · obtain ⟨c, hc, hpc⟩ := hsome
    exact .inl (Nat.findGreatest_spec (P := fun c => p c) hc hpc)
  · have hnone : ∀ c ≤ n, ¬ p c := fun c hc hpc => hsome ⟨c, hc, hpc⟩
    exact .inr ⟨Nat.findGreatest_eq_zero_iff.mpr fun c _ hc => hnone c hc, hnone⟩

/-- Settles O17: the figure is the greatest passing code up to 63, and the pairs (e, f) of R139 are the codes 8e + f up to 63. -/
theorem ratioFigureIsGreatest : Obligations.RatioFigureIsGreatest := by
  intro r s
  refine ⟨ratioFigure_zero r, fun hs => ⟨_, ratioFigure_of_pos r hs, Nat.findGreatest_le 63, ?greatest, ?meets, ?top⟩⟩
  case greatest =>
    intro e f he hf hmeets
    exact Nat.le_findGreatest (by omega) ((figureMeets_digits e hf).mpr hmeets)
  case meets =>
    refine (findGreatest_passes_or_none (fun c => figureMeets c r s) 63).imp figureMeets_iff.mp ?_
    rintro ⟨hzero, hnone⟩
    exact ⟨hzero, fun e f he hf hmeets => hnone (8 * e + f) (by omega) ((figureMeets_digits e hf).mpr hmeets)⟩
  case top =>
    intro h120
    exact Nat.findGreatest_eq (figureMeets_63.mpr h120)

end Sys2Proof.Machine
end

section
/-! PROOFS. REPORT_SETTINGS (R181): the reply's body is read from the settings store and the strap as they stand when the request is
taken, which opening its tag leaves alone. -/

namespace Sys2Proof.Machine

theorem exec_reportSettings (p : Port) (tag : Byte) (s : State) :
    exec (.reportSettings p tag) s = execReportSettings p tag s := rfl

/-- The admission of a request (R173) is the port controller's alone: the settings and the strap that R181 reports stand. -/
theorem settingsReport_openTag (s : State) (p : Port) (tag : Byte) (k : ReqKind) :
    settingsReport (openTag s p tag k).settings (openTag s p tag k).strap = settingsReport s.settings s.strap := rfl

/-- No condition of the library enters the answer (R181): it is the same in every state that takes the request. -/
theorem exec_reportSettings_taken {s : State} {p : Port} {tag : Byte} (h : s.takes p tag) :
    exec (.reportSettings p tag) s
      = .next (s.replied p tag .reportSettings .done (.settings (settingsReport s.settings s.strap))) := by
  rw [exec_reportSettings, execReportSettings, request_taken _ _ h, settingsReport_openTag, State.replied]

/-- Table 10-5 entry by entry: the eight magazine positions, the ports' values in port order, the single settings, the strap last. -/
theorem settingsReport_eq (st : Settings) (strap : Nat) : settingsReport st strap =
    ((List.range 8).map fun k => settingEntry 0x01 k ((st.partition.getD k .shared).num))
    ++ [ settingEntry 0x02 0 st.writeUnits.p0, settingEntry 0x02 1 st.writeUnits.p1, settingEntry 0x02 2 st.writeUnits.p2,
         settingEntry 0x03 0 st.readUnits.p0, settingEntry 0x03 1 st.readUnits.p1, settingEntry 0x03 2 st.readUnits.p2,
         settingEntry 0x04 0 st.writeDescs.p0, settingEntry 0x04 1 st.writeDescs.p1, settingEntry 0x04 2 st.writeDescs.p2,
         settingEntry 0x05 0 st.weight.p0, settingEntry 0x05 1 st.weight.p1, settingEntry 0x05 2 st.weight.p2,
         settingEntry 0x06 0 st.threshold, settingEntry 0x07 0 (st.commitCount.getD 0), settingEntry 0x08 0 st.commitLatency,
         settingEntry 0x09 0 st.motionLimit, settingEntry 0x0A 0 st.claimHold, settingEntry 0x0B 0 st.margin,
         settingEntry 0x0C 0 strap ] := by
  simp only [settingsReport, perPort, List.append_assoc, List.cons_append, List.nil_append]

/-- Settles O38: a request that is taken is answered at once, and the answer's body is the report of Table 10-5 entry by entry. -/
theorem reportSettings : Obligations.ReportSettings := by
  intro s p tag htakes
  rw [exec_reportSettings_taken htakes, settingsReport_eq, State.settings]

end Sys2Proof.Machine
end

section
/-! PROOFS. Every command completes, and keeps the tables (R7, R12), the law of the segment buffer (R76) and the commands that wait: one
lemma for each command, from the lemmas of Laws/Keeps about the operations it is made of. -/

namespace Sys2Proof.Machine

/-- A meaning completes, and from s to where it completes the three are kept. -/
def Completes (s : State) (r : Result) : Prop := ∃ t, r = .next t ∧ Keeps s t

section
variable {z s : State}

theorem completes_next (h : Keeps z s) : Completes z (.next s) := ⟨s, rfl, h⟩
theorem completes_finish (h : Keeps z s) : Completes z (finish s) := keeps_finish h
theorem completes_finishCredit (h : Keeps z s) : Completes z (finishCredit s) := keeps_finishCredit h
theorem completes_ite {c : Prop} [Decidable c] {x y : Result} (hx : Completes z x) (hy : Completes z y) :
    Completes z (if c then x else y) := by
  split
  · exact hx
  · exact hy

/-- A request that each admission completes, completes. -/
theorem completes_admission {p : Port} {tag : Byte} {k : ReqKind} {f g : State → Result} (hk : Keeps z s)
    (hf : ∀ u, Keeps z u → Completes z (f u)) (hg : ∀ u, Keeps z u → Completes z (g u)) :
    Completes z (match admission s p tag k with
      | .stopped t => f t
      | .taken t => g t) := by
  have ha := keeps_admission hk p tag k
  split at ha
  · rename_i h; simpa only [h] using hf _ ha
  · rename_i h; simpa only [h] using hg _ ha

end

variable (s : State) (p : Port) (b : Bay) (tag : Byte)

/-! ### Resets -/

theorem resetPart_tablesHold (l1 l0 x y : Bool) (h : s.tablesHold) : (resetPart s l1 l0 x y).tablesHold := by
  obtain ⟨-, hasc, hlen⟩ := h
  refine ⟨?_, ?_, ?_⟩
  · simp [resetPart, State.poweredOn, resetElements, Function.comp_def]
  · refine labelsAscend_map _ (fun v => ?_) _ hasc
    rw [← unreleased_label (cutShort s).2 v]
    unfold Volume.afterReset
    split <;> rfl
  · simpa [resetPart, State.poweredOn, storeAtReset] using hlen


theorem layout_lawful (st : Settings) : (Buffer.layout st).lawful st := by
  intro o
  rcases o with (_ | _ | _) | (_ | _ | _) | _ | _ <;>
    simp [Buffer.layout, Buffer.unitsIn, Buffer.descsIn, Settings.unitAllotment, Settings.descAllotment, Share.layout, PerPort.get,
      Buffer.heldUnits, Buffer.heldDescs]

/-- Whichever settings the reset finds in the store, their allotments fit the buffer. -/
theorem cutShort_sumsHeld (h : s.creditHolds) : sumsHeld (cutShort s).1 = true := by
  obtain ⟨hs, -, hw⟩ := h
  unfold cutShort
  split
  · exact hs
  · rename_i q hq _
    dsimp only
    split
    · exact hw q hq
    · exact hs
  · exact hs

theorem resetPart_creditHolds (l1 l0 x y : Bool) (h : s.creditHolds) : (resetPart s l1 l0 x y).creditHolds := by
  obtain ⟨hu, hd⟩ := aside_none (s := resetPart s l1 l0 x y) rfl
  refine ⟨cutShort_sumsHeld s h, ?_, by simp [resetPart, State.poweredOn]⟩
  rw [hu, hd]
  exact layout_lawful _

theorem keeps_resetPart (l1 l0 x y : Bool) : Keeps s (resetPart s l1 l0 x y) :=
  ⟨rfl, resetPart_tablesHold s l1 l0 x y, resetPart_creditHolds s l1 l0 x y⟩

theorem completes_powerOn (l1 l0 x y : Bool) : Completes s (execPowerOn l1 l0 x y s) :=
  completes_next (keeps_resetPart s l1 l0 x y)
theorem completes_boardReset (l1 l0 x y : Bool) : Completes s (execBoardReset l1 l0 x y s) := by
  have h := keeps_scratch (keeps_resetPart s l1 l0 x y) (keptPointer s (resetPart s l1 l0 x y))
  exact completes_next (keeps_ite (keeps_modPicker h _) h)

/-! ### Links (R170 to R172, R178) -/

theorem completes_linkUp : Completes s (execLinkUp p s) :=
  completes_ite (completes_next (.refl s)) (completes_finish (by simp))
theorem completes_linkDown : Completes s (execLinkDown p s) := by
  have h := keeps_linkLost (.refl s) p
  refine completes_ite (completes_next (.refl s)) (completes_ite (completes_ite ?_ ?_) (completes_finishCredit h))
  · exact completes_finishCredit (keeps_holdExpiry (keeps_beginHold h p) p)
  · exact completes_finishCredit (keeps_beginHold h p)
theorem completes_linkReset : Completes s (execLinkReset p s) :=
  completes_ite (completes_finish (by simp))
    (completes_finishCredit (keeps_linkUp (keeps_bufSettle (keeps_linkLost (.refl s) p)) p))
theorem completes_claimHoldTimerExpiry : Completes s (execClaimHoldTimerExpiry p s) :=
  completes_ite (completes_finish (by simp)) (completes_next (.refl s))
theorem completes_unloadOwedMark : Completes s (execUnloadOwedMark b s) :=
  completes_ite (completes_finish (by simp)) (completes_next (.refl s))
theorem completes_owedUnloadQueued : Completes s (execOwedUnloadQueued s) := completes_finish (by simp)

/-! ### Move requests, RELEASE_VOLUME, reports (R16, R28 to R32, R43, R48) -/

theorem completes_move (form src dst : Byte) (l : Label) : Completes s (execMove p tag form src dst l s) := by
  refine keeps_request (.refl s) _ _ _ _ fun u hu => ?_
  split
  · simp [hu]
  · exact keeps_decideMove hu _ _ _ _ _ (by simp [hu])
theorem completes_load (form src dst : Byte) (l : Label) : Completes s (execLoad p tag form src dst l s) := by
  refine keeps_request (.refl s) _ _ _ _ fun u hu => ?_
  split
  · simp [hu]
  · exact keeps_decideMove hu _ _ _ _ _ (by simp [hu])
theorem completes_loadScratch (lea : Byte) : Completes s (execLoadScratch p tag lea s) := by
  refine keeps_request (.refl s) _ _ _ _ fun u hu => keeps_decideMove hu _ _ _ _ _ ?_
  split
  · exact keeps_scratch (by simp [hu]) _
  · exact hu
theorem completes_unload (lea named dst : Byte) : Completes s (execUnload p tag lea named dst s) := by
  refine keeps_request (.refl s) _ _ _ _ fun u hu => keeps_unlessReleased hu _ _ _ _ _ ?_
  split
  · simp [hu]
  · exact keeps_decideMove hu _ _ _ _ _ (by simp [hu])
theorem completes_audit : Completes s (execAudit p tag s) :=
  keeps_request (.refl s) _ _ _ _ fun _ hu => keeps_ite (by simp [hu]) (by simp [hu])
theorem completes_recover (gripped : Bool) : Completes s (execRecover p tag gripped s) := by
  refine keeps_request (.refl s) _ _ _ _ fun u hu => keeps_ite (by simp [hu]) (keeps_ite (by simp [hu]) (keeps_ite (by simp [hu]) ?_))
  split
  · simp [hu]
  · simp [hu]
theorem completes_releaseVolume (l : Label) : Completes s (execReleaseVolume p tag l s) := by
  refine keeps_request (.refl s) _ _ _ _ fun u hu => ?_
  repeat' split
  all_goals simp [hu]
theorem completes_reportElements (first : Byte) (n : Half) : Completes s (execReportElements p tag first n s) := by
  refine keeps_request (.refl s) _ _ _ _ fun u hu => ?_
  repeat' split
  all_goals simp [hu]
theorem completes_reportVolumes (form : Byte) (l : Label) : Completes s (execReportVolumes p tag form l s) := by
  refine keeps_request (.refl s) _ _ _ _ fun u hu => ?_
  repeat' split
  all_goals simp [hu]
theorem completes_reportStatus : Completes s (execReportStatus p tag s) :=
  keeps_request (.refl s) _ _ _ _ fun _ hu => by simp [hu]
theorem completes_reportSettings : Completes s (execReportSettings p tag s) :=
  keeps_request (.refl s) _ _ _ _ fun _ hu => by simp [hu]

/-! ### Settings (R182, R183) -/

theorem completes_configure (es : List SettingEntry) : Completes s (execConfigure p tag es s) := by
  refine keeps_request (.refl s) _ _ _ _ fun u hu => ?_
  split
  · exact keeps_configWaiting hu _
  · rename_i h
    exact keeps_takeConfigs _ hu (by simpa using h)
theorem completes_settingsStoreWriteComplete : Completes s (execSettingsStoreWriteComplete s) := by
  unfold execSettingsStoreWriteComplete
  split
  · exact completes_finish (by simp)
  · rename_i q hq _
    exact completes_finish (keeps_configWritten (.refl s) hq)
  · exact completes_next (.refl s)

/-! ### Streams (chapter 5) -/

theorem completes_openStream (bay mode shrink : Byte) (n : Word) : Completes s (execOpenStream p tag bay mode shrink n s) := by
  refine keeps_request (.refl s) _ _ _ _ fun u hu => keeps_unlessReleased hu _ _ _ _ _ ?_
  repeat' split
  all_goals simp [hu]
theorem completes_writeRecord (stream kind : Byte) (raw : List Byte) : Completes s (execWriteRecord p stream kind raw s) := by
  unfold execWriteRecord
  refine completes_ite (completes_next (.refl s)) (completes_ite (completes_finish (by simp)) ?_)
  split
  · exact completes_finish (by simp)
  · refine completes_ite (completes_finish (by simp)) (completes_ite (completes_finish (by simp)) ?_)
    split
    · exact completes_finish (by simp)
    · rename_i h
      exact completes_finish (keeps_acceptRecord (.refl s) _ _ _ _ (by simpa using h))
theorem completes_writeMark (stream : Byte) : Completes s (execWriteMark p stream s) := by
  unfold execWriteMark
  refine completes_ite (completes_next (.refl s)) (completes_ite (completes_finish (by simp)) ?_)
  split
  · exact completes_finish (by simp)
  · refine completes_ite (completes_finish (by simp)) (completes_ite (completes_finish (by simp)) ?_)
    split
    · exact completes_finish (by simp)
    · rename_i h
      exact completes_finish (keeps_acceptMark (.refl s) _ _ (by simpa using h))
theorem completes_resumeStream (stream : Byte) : Completes s (execResumeStream p tag stream s) :=
  keeps_request (.refl s) _ _ _ _ fun _ hu => keeps_onStream hu _ _ _ _ _ _ fun _ =>
    have h := keeps_modStream (keeps_answer hu _ _ _ _ _ _) _ _
    keeps_ite (keeps_offerEngine h _) h
theorem completes_sync (stream : Byte) : Completes s (execSync p tag stream s) := by
  refine keeps_request (.refl s) _ _ _ _ fun _ hu => keeps_onStream hu _ _ _ _ _ _ fun _ => ?_
  dsimp only
  split
  · simp [hu]
  · simp [hu]
theorem completes_closeStream (stream mode : Byte) : Completes s (execCloseStream p tag stream mode s) := by
  refine completes_admission (.refl s) (fun _ hu => completes_finish hu) fun _ hu => completes_finishCredit ?_
  exact keeps_onStream hu _ _ _ _ _ _ fun _ => keeps_ite (by simp [hu]) (keeps_ite (by simp [hu]) (by simp [hu]))
theorem completes_commitLatencyTimerExpiry : Completes s (execCommitLatencyTimerExpiry b s) :=
  completes_ite (completes_next (.refl s)) (completes_ite (completes_finish (by simp)) (completes_finish (by simp)))
theorem completes_streamClose : Completes s (execStreamClose b s) :=
  completes_ite (completes_finish (by simp)) (completes_next (.refl s))
theorem completes_syncAnswered : Completes s (execSyncAnswered b s) := completes_finish (by simp)

/-! ### Runs (chapters 7 and 8) and blocks not known (R173) -/

theorem completes_readRecords (bay form stop : Byte) (n : Half) (first k e : Word) :
    Completes s (execReadRecords p tag bay form stop n first k e s) := by
  refine keeps_request (.refl s) _ _ _ _ fun u hu => keeps_unlessReleased hu _ _ _ _ _ ?_
  repeat' split
  all_goals simp [hu]
theorem completes_verify (bay form : Byte) (a n : Word) : Completes s (execVerify p tag bay form a n s) := by
  refine keeps_request (.refl s) _ _ _ _ fun u hu => keeps_unlessReleased hu _ _ _ _ _ ?_
  repeat' split
  all_goals simp [hu]
theorem completes_abort (bay : Byte) : Completes s (execAbort p tag bay s) := by
  refine completes_admission (.refl s) (fun _ hu => completes_finish hu) fun _ hu => completes_finishCredit ?_
  repeat' split
  all_goals simp [hu]
theorem completes_unknownRequest (type kind : Byte) (body : List Byte) : Completes s (execUnknownRequest p type kind tag body s) := by
  refine completes_ite (completes_next (.refl s)) ?_
  split
  · exact completes_ite (keeps_request (.refl s) _ _ _ _ fun _ hu => by simp [hu]) (completes_finish (by simp))
  · exact completes_finish (by simp)
theorem completes_restoreRunClose : Completes s (execRestoreRunClose b s) := by
  unfold execRestoreRunClose
  split
  · exact completes_ite (completes_finish (by simp)) (completes_finish (by simp))
  · exact completes_finish (by simp)
theorem completes_verifyRunClose : Completes s (execVerifyRunClose b s) := by
  unfold execVerifyRunClose
  split
  · exact completes_ite (completes_finish (by simp)) (completes_finish (by simp))
  · exact completes_finish (by simp)

/-! ### Picker reports (chapter 2) -/

theorem completes_fetchComplete (g : Bool) (l : Option Label) : Completes s (execFetchComplete g l s) := by
  unfold execFetchComplete
  split
  · exact completes_finish (by simp)
  · exact completes_finish (by simp)
  · exact completes_next (.refl s)
theorem completes_carryComplete : Completes s (execCarryComplete s) := by
  unfold execCarryComplete
  split
  · exact completes_finish (by simp)
  · exact completes_next (.refl s)
theorem completes_placeComplete (o : Bool) : Completes s (execPlaceComplete o s) := by
  unfold execPlaceComplete
  split
  · exact completes_finish (by simp)
  · exact completes_next (.refl s)
theorem completes_homingComplete : Completes s (execHomingComplete s) := by
  unfold execHomingComplete
  split
  · exact completes_finish (by simp)
  · exact completes_next (.refl s)
theorem completes_auditSlotReading (r : Reading) : Completes s (execAuditSlotReading r s) := by
  unfold execAuditSlotReading
  split
  · exact completes_finish (keeps_afterAudit (keeps_auditNext (keeps_takeReading (by simp) _ _ _)))
  · exact completes_next (.refl s)
theorem completes_motionTimerExpiry : Completes s (execMotionTimerExpiry s) :=
  completes_ite (completes_finish (by simp)) (completes_next (.refl s))
theorem completes_serviceDoorOpen : Completes s (execServiceDoorOpen s) := by
  have h := keeps_service (.refl s) true
  unfold execServiceDoorOpen
  dsimp only
  split
  iterate 3 exact completes_finish (keeps_stopPicker h)
  iterate 3 exact completes_next h
theorem completes_serviceDoorClosed : Completes s (execServiceDoorClosed s) :=
  completes_ite (completes_finish (keeps_restartPicker (keeps_service (.refl s) false))) (completes_next (keeps_service (.refl s) false))

/-- The mail slots set UNKNOWN by either report of the mail door. -/
theorem keeps_mailSlotsUnknown {z s : State} (h : Keeps z s) (isOpen due : Bool) (slots : List Nat) :
    Keeps z (slots.foldl mailUnknown { s with mailOpen := isOpen, picker := { s.picker with mailAuditDue := due } }) := by
  refine keeps_foldl ?_ mailUnknown (fun _ _ h => keeps_mailUnknown h _) slots
  exact h.of_eq rfl rfl rfl rfl rfl rfl

theorem completes_mailDoorOpen : Completes s (execMailDoorOpen s) := completes_finish (keeps_mailSlotsUnknown (.refl s) true false _)
theorem completes_mailDoorClosed : Completes s (execMailDoorClosed s) := by
  have h := keeps_mailSlotsUnknown (.refl s) false true (mailSlots s.strap)
  exact completes_ite (completes_finish (by simp [h])) (completes_finish h)
theorem completes_pickerTakeWork : Completes s (execPickerTakeWork s) :=
  completes_ite (completes_finish (by simp)) (completes_next (.refl s))

/-! ### Drive replies (chapter 3) -/

theorem completes_threaded (c : Nat) (w : Bool) : Completes s (execThreaded b c w s) :=
  completes_ite (completes_finish (by simp)) (completes_next (.refl s))
theorem completes_threadFault : Completes s (execThreadFault b s) :=
  completes_ite (completes_finish (by simp)) (completes_next (.refl s))
theorem completes_ejected : Completes s (execEjected b s) := by
  unfold execEjected
  split
  · exact completes_finish (by simp)
  · exact completes_finish (by simp)
  · exact completes_next (.refl s)
theorem completes_status (pr : Bool) (l : Option Label) (th : Bool) (c : Nat) (w : Bool) : Completes s (execStatus b pr l th c w s) :=
  completes_ite (completes_finish (keeps_afterAudit (keeps_bayAnswered (keeps_ite (by simp) (by simp)) b))) (completes_next (.refl s))
theorem completes_located (n f : Nat) : Completes s (execLocated b n f s) := by
  unfold execLocated
  split
  · exact completes_ite (completes_finishCredit (by simp)) (completes_finishCredit (by simp))
  · exact completes_next (.refl s)
theorem completes_blank : Completes s (execBlank b s) := by
  unfold execBlank
  split
  · exact completes_finishCredit (by simp)
  · exact completes_finishCredit (by simp)
  · exact completes_next (.refl s)
theorem completes_committed (n : Nat) : Completes s (execCommitted b n s) := by
  unfold execCommitted
  split
  · exact completes_finishCredit (by simp)
  · exact completes_finishCredit (by simp)
  · exact completes_next (.refl s)
theorem completes_writeFault (n : Nat) : Completes s (execWriteFault b n s) := by
  unfold execWriteFault
  split
  · exact completes_finishCredit (by simp)
  · exact completes_finishCredit (by simp)
  · exact completes_next (.refl s)
theorem completes_gapDone : Completes s (execGapDone b s) :=
  completes_ite (completes_finishCredit (by simp)) (completes_next (.refl s))
theorem completes_data (n : Nat) (h : TapeHeader) (x : List Byte) : Completes s (execData b n h x s) := by
  unfold execData
  split
  · exact completes_ite (completes_finishCredit (by simp))
      (completes_ite (completes_finishCredit (by simp)) (completes_finishCredit (by simp)))
  · exact completes_next (.refl s)
theorem completes_readFault (n : Nat) : Completes s (execReadFault b n s) := by
  unfold execReadFault
  split
  · exact completes_finishCredit (by simp)
  · exact completes_next (.refl s)
theorem completes_fault : Completes s (execFault b s) :=
  completes_ite (completes_finishCredit (by simp)) (completes_next (.refl s))
theorem completes_replyTimerExpiry : Completes s (execReplyTimerExpiry b s) :=
  completes_ite (completes_finishCredit (by simp)) (completes_next (.refl s))

/-! ### The engine, the buffer and the frames (chapters 4, 6 and 9) -/

theorem completes_shrinkComplete : Completes s (execShrinkComplete s) := by
  unfold execShrinkComplete
  split
  · split
    · exact completes_finishCredit (by simp)
    · exact completes_next (.refl s)
  · exact completes_next (.refl s)
theorem completes_expandDeliverComplete : Completes s (execExpandDeliverComplete s) := by
  unfold execExpandDeliverComplete
  split
  · exact completes_ite (completes_finishCredit (by simp)) (completes_next (.refl s))
  · exact completes_next (.refl s)
theorem completes_expandCheckComplete : Completes s (execExpandCheckComplete s) := by
  unfold execExpandCheckComplete
  split
  · dsimp only
    split
    · exact completes_finishCredit (by simp)
    · exact completes_finishCredit (by simp)
    · exact completes_next (.refl s)
  · exact completes_next (.refl s)
theorem completes_engineTakeItem : Completes s (execEngineTakeItem s) := by
  refine completes_ite (completes_next (.refl s)) ?_
  dsimp only
  split
  · exact completes_finish (keeps_offerDue (keeps_takeItem (by simp) _) _)
  · exact completes_next (.refl s)
theorem completes_readAllocationComplete : Completes s (execReadAllocationComplete b s) := by
  unfold execReadAllocationComplete
  split
  · exact completes_ite (completes_finish (by simp)) (completes_next (.refl s))
  · exact completes_next (.refl s)

/-- Once its EXPAND allocation is complete, a unit list grows no more; no unit moves. -/
theorem keeps_dropExpandOf {z s : State} (h : Keeps z s) (id : Option Nat) :
    Keeps z { s with buffer := match id with
      | some id => s.buffer.dropExpand id
      | none => s.buffer } := by
  split
  · exact keeps_buffer h _ fun _ _ h => owes_same h rfl rfl rfl rfl rfl rfl
  · exact h

theorem completes_expandAllocationComplete : Completes s (execExpandAllocationComplete b s) := by
  unfold execExpandAllocationComplete
  split
  · exact completes_finish (keeps_onRunOf (keeps_dropExpandOf (.refl s) _) _ _ _ fun _ h => keeps_expandReady h _ _)
  · exact completes_next (.refl s)
theorem completes_verifyReservationMet : Completes s (execVerifyReservationMet s) := by
  unfold execVerifyReservationMet
  split
  · split
    · split
      · rename_i h
        simp only [Bool.and_eq_true] at h
        exact completes_finish (keeps_reservationMet (.refl s) _ _ h.1.1)
      · exact completes_next (.refl s)
    · exact completes_next (.refl s)
  · exact completes_next (.refl s)
theorem completes_frameSent : Completes s (execFrameSent p s) := by
  unfold execFrameSent
  split
  · have h := keeps_frameEnded (keeps_modPort (.refl s) p fun c => { c with sending := none }) p
    exact completes_ite (completes_finish (keeps_idleReport (h _) p)) (completes_finish (h _))
  · exact completes_next (.refl s)

/-- Every command completes and keeps the three: the commands one by one. -/
theorem exec_completes (c : Instr) (s : State) : Completes s (exec c s) := by
  cases c with
  | powerOn layout1 layout0 serviceOpen mailOpen => exact completes_powerOn s layout1 layout0 serviceOpen mailOpen
  | boardReset layout1 layout0 serviceOpen mailOpen => exact completes_boardReset s layout1 layout0 serviceOpen mailOpen
  | linkUp p => exact completes_linkUp s p
  | linkDown p => exact completes_linkDown s p
  | linkReset p => exact completes_linkReset s p
  | move p tag form srcLea dstLea label => exact completes_move s p tag form srcLea dstLea label
  | load p tag form srcLea dstLea label => exact completes_load s p tag form srcLea dstLea label
  | loadScratch p tag driveLea => exact completes_loadScratch s p tag driveLea
  | unload p tag driveLea named dstLea => exact completes_unload s p tag driveLea named dstLea
  | audit p tag => exact completes_audit s p tag
  | recover p tag gripped => exact completes_recover s p tag gripped
  | releaseVolume p tag label => exact completes_releaseVolume s p tag label
  | reportElements p tag firstLea count => exact completes_reportElements s p tag firstLea count
  | reportVolumes p tag form label => exact completes_reportVolumes s p tag form label
  | reportStatus p tag => exact completes_reportStatus s p tag
  | reportSettings p tag => exact completes_reportSettings s p tag
  | configure p tag entries => exact completes_configure s p tag entries
  | settingsStoreWriteComplete => exact completes_settingsStoreWriteComplete s
  | openStream p tag bay mode shrink n => exact completes_openStream s p tag bay mode shrink n
  | writeRecord p stream kind data => exact completes_writeRecord s p stream kind data
  | writeMark p stream => exact completes_writeMark s p stream
  | resumeStream p tag stream => exact completes_resumeStream s p tag stream
  | sync p tag stream => exact completes_sync s p tag stream
  | closeStream p tag stream mode => exact completes_closeStream s p tag stream mode
  | readRecords p tag bay form stop count first k e => exact completes_readRecords s p tag bay form stop count first k e
  | verify p tag bay form a n => exact completes_verify s p tag bay form a n
  | abort p tag bay => exact completes_abort s p tag bay
  | unknownRequest p type kind tag body => exact completes_unknownRequest s p tag type kind body
  | fetchComplete gripped label => exact completes_fetchComplete s gripped label
  | carryComplete => exact completes_carryComplete s
  | placeComplete obstructed => exact completes_placeComplete s obstructed
  | homingComplete => exact completes_homingComplete s
  | auditSlotReading reading => exact completes_auditSlotReading s reading
  | motionTimerExpiry => exact completes_motionTimerExpiry s
  | serviceDoorOpen => exact completes_serviceDoorOpen s
  | serviceDoorClosed => exact completes_serviceDoorClosed s
  | mailDoorOpen => exact completes_mailDoorOpen s
  | mailDoorClosed => exact completes_mailDoorClosed s
  | pickerTakeWork => exact completes_pickerTakeWork s
  | owedUnloadQueued => exact completes_owedUnloadQueued s
  | threaded bay cls writeProtected => exact completes_threaded s bay cls writeProtected
  | threadFault bay => exact completes_threadFault s bay
  | ejected bay => exact completes_ejected s bay
  | status bay present label threaded cls writeProtected => exact completes_status s bay present label threaded cls writeProtected
  | located bay block frame => exact completes_located s bay block frame
  | blank bay => exact completes_blank s bay
  | committed bay block => exact completes_committed s bay block
  | writeFault bay block => exact completes_writeFault s bay block
  | gapDone bay => exact completes_gapDone s bay
  | data bay block header stored => exact completes_data s bay block header stored
  | readFault bay block => exact completes_readFault s bay block
  | fault bay => exact completes_fault s bay
  | replyTimerExpiry bay => exact completes_replyTimerExpiry s bay
  | shrinkComplete => exact completes_shrinkComplete s
  | expandDeliverComplete => exact completes_expandDeliverComplete s
  | expandCheckComplete => exact completes_expandCheckComplete s
  | engineTakeItem => exact completes_engineTakeItem s
  | readAllocationComplete bay => exact completes_readAllocationComplete s bay
  | expandAllocationComplete bay => exact completes_expandAllocationComplete s bay
  | verifyReservationMet => exact completes_verifyReservationMet s
  | frameSent p => exact completes_frameSent s p
  | commitLatencyTimerExpiry bay => exact completes_commitLatencyTimerExpiry s bay
  | claimHoldTimerExpiry p => exact completes_claimHoldTimerExpiry s p
  | unloadOwedMark bay => exact completes_unloadOwedMark s bay
  | streamClose bay => exact completes_streamClose s bay
  | syncAnswered bay => exact completes_syncAnswered s bay
  | restoreRunClose bay => exact completes_restoreRunClose s bay
  | verifyRunClose bay => exact completes_verifyRunClose s bay

theorem exec_keeps {c : Instr} {s t : State} (h : exec c s = .next t) : Keeps s t := by
  obtain ⟨u, hu, hk⟩ := exec_completes c s
  obtain rfl : u = t := Host.Outcome.next.inj (hu.symm.trans h)
  exact hk

/-- A step is a command carried out with the rest of the queue waiting, or a tick. -/
theorem step_cases {s t : State} (h : step s = .next t) :
    (s.pending = [] ∧ t = tick s) ∨ ∃ c rest, s.pending = c :: rest ∧ exec c { s with pending := rest } = .next t := by
  unfold step at h
  split at h
  · rename_i hp
    exact .inl ⟨hp, (Host.Outcome.next.inj h).symm⟩
  · rename_i c rest hp
    exact .inr ⟨c, rest, hp, h⟩

/-- Settles O3: each command's meaning is seen to complete, with the queue among what it keeps. -/
theorem everyCommandCompletes : Obligations.EveryCommandCompletes := by
  intro c s
  obtain ⟨t, ht, hk⟩ := exec_completes c s
  exact ⟨t, ht, hk.pending⟩

/-- Settles O6: a tick leaves the tables alone, and each command keeps them. -/
theorem tablesKept : Obligations.TablesKept := by
  intro s t hs hstep
  rcases step_cases hstep with ⟨-, rfl⟩ | ⟨c, rest, -, hx⟩
  · exact (keeps_tick (.refl s)).tables hs
  · exact (exec_keeps hx).tables hs

/-- Settles O7: a tick leaves the buffer alone, and each command keeps its law. -/
theorem bufferLawKept : Obligations.BufferLawKept := by
  intro s t hs hstep
  rcases step_cases hstep with ⟨-, rfl⟩ | ⟨c, rest, -, hx⟩
  · exact (keeps_tick (.refl s)).credit hs
  · exact (exec_keeps hx).credit hs

end Sys2Proof.Machine
end

section
/-! PROOFS. What every operation keeps of the settings, of the ports' ranges (R170, R173) and of the move queue's places (R33): one lemma
for each operation, in the order of the definitions. -/

namespace Sys2Proof.Machine

/-- The scratch pointer within the shared slots (R19). -/
def State.pointerInRange (s : State) : Prop :=
  (0 < (sharedSlots s).length → s.scratchPointer < (sharedSlots s).length) ∧ ((sharedSlots s).length = 0 → s.scratchPointer = 0)

/-- From z to s the settings stand; and every port, the move queue and the scratch pointer are in their ranges if they were. -/
structure Ranges (z s : State) : Prop where
  settings : s.settings = z.settings
  ports : (∀ p, (z.port p).inRange) → ∀ p, (s.port p).inRange
  picker : z.picker.inRange → s.picker.inRange
  pointer : z.pointerInRange → s.pointerInRange

theorem Ranges.refl (s : State) : Ranges s s := ⟨rfl, id, id, id⟩
theorem Ranges.trans {s t u : State} (h : Ranges s t) (g : Ranges t u) : Ranges s u :=
  ⟨g.settings.trans h.settings, g.ports ∘ h.ports, g.picker ∘ h.picker, g.pointer ∘ h.pointer⟩
theorem Ranges.inRange {s t : State} (h : Ranges s t) (hs : s.inRange) : t.inRange := by
  obtain ⟨hp, hk, hn⟩ := hs
  exact ⟨h.ports hp, h.picker hk, h.pointer hn⟩

section
variable {z u t : State}

/-- A change of other blocks. -/
theorem Ranges.of_eq (h : Ranges z u) (hs : t.settings = u.settings) (hp : t.ports = u.ports) (hk : t.picker = u.picker)
    (ht : t.strap = u.strap) (hn : t.scratchPointer = u.scratchPointer) : Ranges z t :=
  h.trans ⟨hs, by simp only [State.port, hp]; exact id, by rw [hk]; exact id,
    by simp only [State.pointerInRange, sharedSlots, hs, ht, hn]; exact id⟩

theorem ranges_modDrive (h : Ranges z u) {b f} : Ranges z (u.modDrive b f) := h.of_eq rfl rfl rfl rfl rfl
theorem ranges_modStream (h : Ranges z u) {b f} : Ranges z (u.modStream b f) := h.of_eq rfl rfl rfl rfl rfl
theorem ranges_setRestore (h : Ranges z u) {b r} : Ranges z (u.setRestore b r) := h.of_eq rfl rfl rfl rfl rfl
theorem ranges_setVerify (h : Ranges z u) {b r} : Ranges z (u.setVerify b r) := h.of_eq rfl rfl rfl rfl rfl
theorem ranges_setRestoreRuns (h : Ranges z u) {b r} : Ranges z (u.setRestoreRuns b r) := h.of_eq rfl rfl rfl rfl rfl
theorem ranges_setVerifyRuns (h : Ranges z u) {b r} : Ranges z (u.setVerifyRuns b r) := h.of_eq rfl rfl rfl rfl rfl
theorem ranges_modRestore (h : Ranges z u) {b f} : Ranges z (u.modRestore b f) := h.of_eq rfl rfl rfl rfl rfl
theorem ranges_modVerify (h : Ranges z u) {b f} : Ranges z (u.modVerify b f) := h.of_eq rfl rfl rfl rfl rfl
theorem ranges_modEngine (h : Ranges z u) {f} : Ranges z (u.modEngine f) := h.of_eq rfl rfl rfl rfl rfl
theorem ranges_elements (h : Ranges z u) {es} : Ranges z { u with elements := es } := h.of_eq rfl rfl rfl rfl rfl
theorem ranges_volumes (h : Ranges z u) {vs n} : 
    Ranges z { u with store := { u.store with volumes := vs, exportCounter := n } } := h.of_eq rfl rfl rfl rfl rfl
theorem ranges_buffer (h : Ranges z u) {b} : Ranges z { u with buffer := b } := h.of_eq rfl rfl rfl rfl rfl
theorem ranges_scratch (h : Ranges z u) {n : Nat} (hn : u.pointerInRange → State.pointerInRange { u with scratchPointer := n }) :
    Ranges z { u with scratchPointer := n } := h.trans ⟨rfl, id, id, hn⟩
theorem ranges_configWaiting (h : Ranges z u) {n} : Ranges z { u with configWaiting := n } := h.of_eq rfl rfl rfl rfl rfl
theorem ranges_releaseWrites (h : Ranges z u) {n} : Ranges z { u with releaseWrites := n } := h.of_eq rfl rfl rfl rfl rfl
theorem ranges_service (h : Ranges z u) {n} : Ranges z { u with serviceOpen := n } := h.of_eq rfl rfl rfl rfl rfl
theorem ranges_beginWrite (h : Ranges z u) {q rest} : Ranges z (beginWrite u q rest) := h.of_eq rfl rfl rfl rfl rfl

theorem ranges_foldl {α : Type} {f : State → α → State} {l : List α} (h : Ranges z u) (hf : ∀ t a, Ranges z t → Ranges z (f t a)) :
    Ranges z (l.foldl f u) := by
  induction l generalizing u with
  | nil => exact h
  | cons a l ih => exact ih (hf u a h)

theorem ranges_ite {c : Prop} [Decidable c] (h : Ranges z u) (g : Ranges z t) : Ranges z (if c then u else t) := by
  split
  · exact h
  · exact g

/-! ### A port (R170, R173) -/

theorem ranges_modPort {p : Port} {f : PortCtl → PortCtl} (h : Ranges z u) (hf : ∀ c, c.inRange → (f c).inRange) :
    Ranges z (u.modPort p f) := by
  refine h.trans ⟨rfl, fun hp q => ?_, id, id⟩
  rw [modPort_at]
  split
  · exact hf _ (hp p)
  · exact hp q

/-- What is done on an UP port alone, and leaves it UP with 8 tags. -/
theorem inRange_of_up {c d : PortCtl} (h : c.inRange) (hu : d.up = true) (ht : d.tags.length = c.tags.length) : d.inRange :=
  ⟨ht.trans h.1, fun hd => by simp [hu] at hd⟩

theorem inRange_guarded (g : PortCtl → PortCtl) (hu : ∀ c, (g c).up = c.up) (ht : ∀ c, (g c).tags = c.tags) (c : PortCtl) (h : c.inRange)
    :
    (if c.up then g c else c).inRange := by
  split
  · rename_i hc
    exact inRange_of_up h ((hu c).trans hc) (by rw [ht])
  · exact h

/-- On a DOWN port nothing changes but the claim hold, the released-bay list and the count of refusals dropped. -/
theorem inRange_of_same {c d : PortCtl} (h : c.inRange) (hu : d.up = c.up) (ht : d.tags = c.tags) (hk : d.control = c.control)
    (hf : d.frames = c.frames) (hs : d.sending = c.sending) : d.inRange := by
  simpa only [PortCtl.inRange, PortCtl.tagKind, hu, ht, hk, hf, hs] using h

/-! ### The picker (R33) -/

theorem ranges_modPicker_of {f : Picker → Picker} (h : Ranges z u) (hf : ∀ k, k.inRange → (f k).inRange) : Ranges z (u.modPicker f) :=
  h.trans ⟨rfl, id, hf _, id⟩

theorem ranges_modPicker {f : Picker → Picker} (h : Ranges z u) (hq : (f u.picker).queue = u.picker.queue)
    (hn : (f u.picker).nextMove = u.picker.nextMove) : Ranges z (u.modPicker f) := by
  refine h.trans ⟨rfl, id, ?_, id⟩
  rw [State.modPicker_picker]
  simp only [Picker.inRange, Picker.portEntries, Picker.internalEntries, hq, hn]
  exact id

/-- Entries that stay, each of its kind and of its sort of requester. -/
theorem Picker.inRange_map {k : Picker} (h : k.inRange) (g : MoveEntry → MoveEntry) (hk : ∀ e, (g e).kind = e.kind)
    (hr : ∀ e, (g e).requester.isInternal = e.requester.isInternal) (l : Picker) (hq : l.queue = k.queue.map g)
    (hn : l.nextMove = k.nextMove) : l.inRange := by
  simpa only [Picker.inRange, Picker.portEntries, Picker.internalEntries, hq, hn, List.filter_map, List.length_map, Function.comp_def,
    hk, hr] using h

theorem Picker.inRange_filter {k : Picker} (h : k.inRange) (g : MoveEntry → Bool) (l : Picker) (hq : l.queue = k.queue.filter g)
    (hn : l.nextMove = k.nextMove) : l.inRange := by
  obtain ⟨h1, h2, h3, h4⟩ := h
  have hle : ∀ p : MoveEntry → Bool, ((k.queue.filter g).filter p).length ≤ (k.queue.filter p).length := fun p =>
    (List.filter_sublist.filter p).length_le
  simp only [Picker.inRange, Picker.portEntries, Picker.internalEntries, hq, hn] at *
  exact ⟨h1, (hle _).trans h2, (hle _).trans h3, (hle _).trans h4⟩

/-- The places an entry of a requester and a kind needs free (R33; one RECOVER at a time, R43). -/
def Picker.hasPlace (k : Picker) (q : Requester) (kind : MoveKind) : Prop :=
  (q.isInternal = false → k.portEntries < Config.portPlaces)
    ∧ (q.isInternal = true → kind ≠ .recover → k.internalEntries < Config.internalPlaces)
    ∧ (kind = .recover → ∀ e ∈ k.queue, e.kind ≠ .recover)

end

/-- One more entry where, if it counts, one place is free. -/
theorem length_filter_concat_le {α : Type} (p : α → Bool) (l : List α) (e : α) {n : Nat} (hle : (l.filter p).length ≤ n)
    (hlt : p e = true → (l.filter p).length < n) : ((l ++ [e]).filter p).length ≤ n := by
  rw [List.filter_append, List.length_append]
  cases he : p e with
  | false => simpa [he] using hle
  | true => have := hlt he; simp [he]; omega

theorem Picker.inRange_append {k : Picker} (h : k.inRange) (e : MoveEntry) (hp : k.hasPlace e.requester e.kind) (l : Picker)
    (hq : l.queue = k.queue ++ [e]) (hn : l.nextMove < 256) : l.inRange := by
  obtain ⟨-, h2, h3, h4⟩ := h
  obtain ⟨p1, p2, p3⟩ := hp
  simp only [Picker.inRange, Picker.portEntries, Picker.internalEntries, hq]
  refine ⟨hn, length_filter_concat_le _ _ _ h2 fun he => p1 (by simpa using he),
    length_filter_concat_le _ _ _ h3 fun he => ?_, length_filter_concat_le _ _ _ h4 fun he => ?_⟩
  · simp only [Bool.and_eq_true, decide_eq_true_eq] at he
    exact p2 he.1 he.2
  · have h0 : (k.queue.filter fun e => e.kind = .recover) = [] := by simpa using p3 (by simpa using he)
    simp [h0]

/-! ### Ops -/

section
variable {z s : State}

theorem ranges_queueNotice {p : Port} {n : Notice} (h : Ranges z s) : Ranges z (queueNotice s p n) :=
  ranges_modPort h (inRange_guarded (fun c => { c with control := queueControl n c.control }) (fun _ => rfl) fun _ => rfl)
theorem ranges_queueNoticeAll {n : Notice} (h : Ranges z s) : Ranges z (queueNoticeAll s n) :=
  ranges_queueNotice (ranges_queueNotice (ranges_queueNotice h))
theorem ranges_queueReply {p : Port} {r : Reply} (h : Ranges z s) : Ranges z (queueReply s p r) :=
  ranges_modPort h (inRange_guarded (fun c => { c with control := c.control ++ [.reply r] }) (fun _ => rfl) fun _ => rfl)
theorem ranges_queueFrames {p : Port} {fs : List DataFrame} (h : Ranges z s) : Ranges z (queueFrames s p fs) :=
  ranges_modPort h (inRange_guarded (fun c => { c with frames := c.frames ++ fs }) (fun _ => rfl) fun _ => rfl)
theorem ranges_queueLimited {p : Port} {sort : Control → Bool} {r : Reply} (h : Ranges z s) : Ranges z (queueLimited s p sort r) := by
  refine ranges_modPort h fun c hc => ?_
  split
  · exact hc
  · rename_i hup
    have hup : c.up = true := by simpa using hup
    split
    · exact hc
    · split <;> exact inRange_of_up hc hup rfl
theorem ranges_queueWriteRefused {p : Port} {kind : ReqKind} {stream : Byte} {code : ReplyCode} {record : Option Nat} (h : Ranges z s) :
    Ranges z (queueWriteRefused s p kind stream code record) := ranges_queueLimited h
theorem ranges_queueLooseBadRequest {p : Port} {kind tag : Byte} (h : Ranges z s) : Ranges z (queueLooseBadRequest s p kind tag) :=
  ranges_queueLimited h
theorem ranges_queueTagInUse {p : Port} {kind : ReqKind} {tag : Byte} (h : Ranges z s) : Ranges z (queueTagInUse s p kind tag) := by
  refine ranges_modPort h fun c hc => ?_
  split
  · exact hc
  · rename_i hup
    split
    · exact hc
    · exact inRange_of_up hc (by simpa using hup) rfl
theorem ranges_answer {p : Port} {tag : Byte} {kind : ReqKind} {code : ReplyCode} {body : ReplyBody} {clamped : Bool} (h : Ranges z s) :
    Ranges z (answer s p tag kind code body clamped) := ranges_queueReply h
theorem ranges_answerHeld {p : Port} {tag : Option Byte} {kind : ReqKind} {code : ReplyCode} {body : ReplyBody} {clamped : Bool}
    (h : Ranges z s) : Ranges z (answerHeld s p tag kind code body clamped) := by
  unfold answerHeld
  split
  · exact ranges_answer h
  · exact h
theorem ranges_refuse {p : Port} {tag : Byte} {kind : ReqKind} {code : ReplyCode} (h : Ranges z s) :
    Ranges z (refuse s p tag kind code) := ranges_answer h

theorem pump_inRange (c : PortCtl) (hc : c.inRange) : c.pump.inRange := by
  unfold PortCtl.pump
  split
  · exact hc
  · rename_i hup
    simp only [Bool.or_eq_true, Bool.not_eq_true', not_or, Bool.not_eq_false] at hup
    split
    · exact inRange_of_up hc hup.1 rfl
    · exact inRange_of_up hc hup.1 rfl
    · exact hc
theorem ranges_pump (h : Ranges z s) : Ranges z (pump s) :=
  ranges_modPort (ranges_modPort (ranges_modPort h pump_inRange) pump_inRange) pump_inRange

/-- A tag is opened for a request that an UP port has taken (R169, R173). -/
theorem ranges_openTag {p : Port} {tag : Byte} {kind : ReqKind} (h : Ranges z s) (hup : (s.port p).up = true) :
    Ranges z (openTag s p tag kind) := by
  refine h.trans ⟨rfl, fun hp q => ?_, id, id⟩
  unfold openTag
  rw [modPort_at]
  split
  · exact inRange_of_up (hp p) hup (by simp)
  · exact hp q

theorem ranges_admission {p : Port} {tag : Byte} {k : ReqKind} (h : Ranges z s) : match admission s p tag k with
    | .stopped t => Ranges z t
    | .taken t => Ranges z t := by
  by_cases h1 : (s.port p).up = true
  · by_cases h2 : 7 < tag.toNat
    · simpa [admission, h1, h2] using ranges_queueLooseBadRequest h
    · cases h3 : ((s.port p).tagKind tag).isSome
      · simpa [admission, h1, h2, h3] using ranges_openTag h h1
      · simpa [admission, h1, h2, h3] using ranges_queueTagInUse h
  · simpa [admission, h1] using h

theorem ranges_unlessReleased {p : Port} {tag : Byte} {k : ReqKind} {b : Option Bay} {f : State → State} (h : Ranges z s)
    (hf : Ranges z (f s)) : Ranges z (unlessReleased s p tag k b f) := by
  unfold unlessReleased
  split
  · exact ranges_ite (ranges_refuse h) hf
  · exact hf

theorem ranges_setCondition {c : LibCondition} (h : Ranges z s) : Ranges z (setCondition s c) :=
  ranges_ite h (ranges_queueNoticeAll (ranges_modPicker h rfl rfl))
theorem ranges_modElement {pea : Nat} {f : Element → Element} (h : Ranges z s) : Ranges z (modElement s pea f) := ranges_elements h
theorem ranges_setElem {pea : Nat} {st : ElemState} (h : Ranges z s) : Ranges z (setElem s pea st) := ranges_elements h
theorem ranges_setClaim {pea n : Nat} (h : Ranges z s) : Ranges z (setClaim s pea n) := ranges_elements h
theorem ranges_clearClaims {n : Nat} (h : Ranges z s) : Ranges z (clearClaims s n) := ranges_elements h

/-! ### Volumes -/

theorem ranges_setVolumes {vs : List Volume} (h : Ranges z s) : Ranges z (setVolumes s vs) := h.of_eq rfl rfl rfl rfl rfl
theorem ranges_mapVolumes {f : Volume → Volume} (h : Ranges z s) : Ranges z (mapVolumes s f) := ranges_setVolumes h
theorem ranges_modVolume {l : Label} {f : Volume → Volume} (h : Ranges z s) : Ranges z (modVolume s l f) := ranges_setVolumes h
theorem ranges_modDriveVolume {b : Bay} {f : Volume → Volume} (h : Ranges z s) : Ranges z (modDriveVolume s b f) := by
  unfold modDriveVolume
  split
  · exact ranges_modVolume h
  · exact h
theorem ranges_renumberExports (h : Ranges z s) : Ranges z (renumberExports s) := by
  unfold renumberExports
  split
  · exact h
  · exact h.of_eq rfl rfl rfl rfl rfl
theorem ranges_exportVolume {l : Label} (h : Ranges z s) : Ranges z (exportVolume s l) :=
  (ranges_renumberExports h).of_eq rfl rfl rfl rfl rfl
theorem ranges_displaceFrom {pea : Nat} {keep : Option Label} (h : Ranges z s) : Ranges z (displaceFrom s pea keep) :=
  ranges_mapVolumes h
theorem ranges_foundEmpty {pea : Nat} {byAudit : Bool} (h : Ranges z s) : Ranges z (foundEmpty s pea byAudit) := by
  refine ranges_setElem ?_
  split
  · exact ranges_foldl h fun _ _ ht => ranges_exportVolume ht
  · exact ranges_foldl h fun _ _ ht => ranges_modVolume ht
end

/-! ### Credit -/

section
variable {z s : State}

theorem ranges_creditNotice {old : Buffer} {p : Port} (h : Ranges z s) : Ranges z (creditNotice old s p) := by
  unfold creditNotice
  extract_lets
  split
  · exact h
  · exact ranges_queueNotice h
theorem ranges_onBuffer {f : CreditEnv → Buffer → Buffer} (h : Ranges z s) : Ranges z (onBuffer s f) :=
  ranges_creditNotice (ranges_creditNotice (ranges_creditNotice (ranges_buffer h)))
end

/-! ### The picker's and the engine's operations -/

section
variable {z s : State}

theorem ranges_fetchTaken {pea : Nat} {read : Option Label} (h : Ranges z s) : Ranges z (fetchTaken s pea read) := by
  refine ranges_setElem (ranges_setElem ?_)
  split
  · exact ranges_modVolume h
  · exact h
theorem ranges_placeTaken {pea : Nat} (h : Ranges z s) : Ranges z (placeTaken s pea) := by
  refine ranges_setElem (ranges_setElem ?_)
  split
  · exact ranges_modVolume (ranges_displaceFrom h)
  · exact ranges_displaceFrom h
theorem ranges_placeObstructed {pea : Nat} (h : Ranges z s) : Ranges z (placeObstructed s pea) :=
  ranges_setElem (ranges_displaceFrom h)

/-! ### Credit -/

theorem ranges_releaseDesc {id} (h : Ranges z s) : Ranges z (releaseDesc s id) := ranges_onBuffer h
theorem ranges_trimDesc {id n} (h : Ranges z s) : Ranges z (trimDesc s id n) := ranges_onBuffer h
theorem ranges_placeBytes {id bytes} (h : Ranges z s) : Ranges z (placeBytes s id bytes) := ranges_buffer h

/-! ### Drive -/

theorem ranges_issueLocate {b : Bay} {a : Nat} (h : Ranges z s) : Ranges z (issueLocate s b a) := ranges_modDrive h
theorem ranges_offerItem {i : Item} (h : Ranges z s) : Ranges z (offerItem s i) := ranges_modEngine h
theorem ranges_withdrawItem {b : Bay} {id : Nat} (h : Ranges z s) : Ranges z (withdrawItem s b id) := ranges_modEngine h
theorem ranges_setAside {b : Bay} (h : Ranges z s) : Ranges z (setAside s b) := ranges_setVerifyRuns (ranges_setRestoreRuns h)
theorem ranges_abandonInHand {id : Nat} (h : Ranges z s) : Ranges z (abandonInHand s id) := ranges_modEngine h

/-! ### StreamOps -/

theorem ranges_toStreamPort {b : Bay} {n : Notice} (h : Ranges z s) : Ranges z (toStreamPort s b n) := by
  unfold toStreamPort
  split
  · exact ranges_queueNotice h
  · exact h
theorem ranges_commitNotice {b : Bay} (h : Ranges z s) : Ranges z (commitNotice s b) := ranges_modStream (ranges_toStreamPort h)
theorem ranges_testCommitNotice {b : Bay} (h : Ranges z s) : Ranges z (testCommitNotice s b) :=
  ranges_ite (ranges_commitNotice h) (ranges_ite h (ranges_modStream h))
theorem ranges_answerSync {b : Bay} {tag : Byte} {code : ReplyCode} (h : Ranges z s) : Ranges z (answerSync s b tag code) := by
  unfold answerSync
  dsimp only
  split
  · exact ranges_modStream (ranges_answer h)
  · exact h
theorem ranges_testSyncs {b : Bay} (h : Ranges z s) : Ranges z (testSyncs s b) :=
  ranges_foldl (ranges_modStream h) (fun _ _ hu => ranges_answerSync hu)
theorem ranges_giveUpRecord {b : Bay} {r : Rec} (h : Ranges z s) : Ranges z (giveUpRecord b s r) :=
  ranges_ite (ranges_abandonInHand h) (ranges_modStream (ranges_releaseDesc (ranges_withdrawItem h)))
theorem ranges_giveUpRecords {b : Bay} {f : Rec → Bool} (h : Ranges z s) : Ranges z (giveUpRecords s b f) :=
  ranges_foldl h (fun _ _ hu => ranges_giveUpRecord hu)
theorem ranges_mediumEnd {b : Bay} {u : Nat} (h : Ranges z s) : Ranges z (mediumEnd s b u) :=
  ranges_testSyncs (ranges_toStreamPort (ranges_giveUpRecords (ranges_modStream h)))
theorem ranges_clearStreamActivity {b : Bay} (h : Ranges z s) : Ranges z (clearStreamActivity s b) := ranges_modDrive h
theorem ranges_answerClosing {b : Bay} {q : Closing} (h : Ranges z s) : Ranges z (answerClosing b s q) :=
  ranges_ite (ranges_answerHeld h) (ranges_ite (ranges_modStream (ranges_answerHeld h)) h)
theorem ranges_closeStream {b : Bay} (h : Ranges z s) : Ranges z (closeStream s b) :=
  ranges_clearStreamActivity (ranges_modStream (ranges_ite (ranges_foldl (ranges_foldl h (fun _ _ hu => ranges_answerClosing hu)) (fun _
    _ hu => ranges_answerClosing hu)) (ranges_foldl (ranges_foldl (ranges_foldl h (fun _ _ hu => ranges_answerClosing hu)) (fun _ _ hu =>
    ranges_answerClosing hu)) (fun _ _ hu => ranges_answerSync hu))))
theorem ranges_loseRecord {b : Bay} {r : Rec} (h : Ranges z s) : Ranges z (loseRecord b s r) :=
  ranges_ite (ranges_abandonInHand h) (ranges_releaseDesc (ranges_withdrawItem h))
theorem ranges_streamFault {b : Bay} {code : FaultCode} (h : Ranges z s) : Ranges z (streamFault s b code) :=
  ranges_ite (ranges_closeStream (ranges_testSyncs (ranges_toStreamPort (ranges_modDriveVolume (ranges_modStream (ranges_foldl h (fun _ _
    hu => ranges_loseRecord hu))))))) (ranges_clearStreamActivity (ranges_modStream (ranges_testSyncs (ranges_toStreamPort
    (ranges_modDriveVolume (ranges_modStream (ranges_foldl h (fun _ _ hu => ranges_loseRecord hu))))))))
theorem ranges_offerEngine {b : Bay} (h : Ranges z s) : Ranges z (offerEngine s b) := by
  unfold offerEngine
  dsimp only
  repeat' split
  · exact ranges_offerItem (ranges_modStream h)
  · exact h
  · exact h
theorem ranges_earlyWarning {b : Bay} {num : Nat} (h : Ranges z s) : Ranges z (earlyWarning s b num) :=
  ranges_ite (ranges_modStream (ranges_toStreamPort h)) h
theorem ranges_sendBlock {b : Bay} {r : Rec} {block : Nat} (h : Ranges z s) : Ranges z (sendBlock s b r block) :=
  ranges_earlyWarning (ranges_modStream (ranges_modDrive h))
/-- One offer: the medium's end, or the block sent. -/
theorem ranges_offerOnce {b : Bay} {t : State} (h : Ranges z s) (ht : offerOnce s b = some t) : Ranges z t := by
  unfold offerOnce at ht
  dsimp only at ht
  repeat' split at ht
  all_goals cases ht
  · exact ranges_mediumEnd h
  · exact ranges_mediumEnd h
  · exact ranges_sendBlock h
theorem ranges_offerRun {n : Nat} {b : Bay} (h : Ranges z s) : Ranges z (offerRun n s b) := by
  induction n generalizing s with
  | zero => exact h
  | succ n ih =>
    unfold offerRun
    split
    · rename_i t ht
      exact ih (ranges_offerOnce h ht)
    · exact h
theorem ranges_offerBlocks {b : Bay} (h : Ranges z s) : Ranges z (offerBlocks s b) := ranges_offerRun h
theorem ranges_discardStream {b : Bay} {q : Closing} (h : Ranges z s) : Ranges z (discardStream s b q) :=
  ranges_testSyncs (ranges_giveUpRecords (ranges_modStream h))
theorem ranges_openVolume {b : Bay} {p : Port} {f : Nat} (h : Ranges z s) : Ranges z (openVolume s b p f) := ranges_modDriveVolume h
theorem ranges_openingDone {b : Bay} {f : Nat} (h : Ranges z s) : Ranges z (openingDone s b f) := by
  unfold openingDone
  split
  · exact ranges_answerHeld (ranges_modDrive (ranges_modStream (ranges_openVolume h)))
  · exact h
theorem ranges_openingEnds {b : Bay} {code : ReplyCode} (h : Ranges z s) : Ranges z (openingEnds s b code) := by
  unfold openingEnds
  dsimp only
  split
  · exact ranges_modStream (ranges_foldl (ranges_answerHeld h) (fun _ _ hu => ranges_answerClosing hu))
  · exact h
theorem ranges_streamLinkLoss {b : Bay} (h : Ranges z s) : Ranges z (streamLinkLoss s b) := by
  unfold streamLinkLoss
  dsimp only
  split
  · exact ranges_modStream (ranges_modStream h)
  · exact ranges_modStream (ranges_modStream h)
  · exact ranges_modStream (ranges_modStream h)
  · exact ranges_closeStream (ranges_modStream h)
  · exact ranges_modStream (ranges_modStream h)
  · exact ranges_modStream h
  · exact ranges_modStream h
theorem ranges_untagClosing {p : Port} {b : Bay} (h : Ranges z s) : Ranges z (untagClosing s p b) := ranges_modStream h
theorem ranges_portStreamsLoss {p : Port} (h : Ranges z s) : Ranges z (portStreamsLoss s p) :=
  ranges_ite (ranges_streamLinkLoss (ranges_ite (ranges_streamLinkLoss (ranges_untagClosing (ranges_untagClosing h)))
    (ranges_untagClosing (ranges_untagClosing h)))) (ranges_ite (ranges_streamLinkLoss (ranges_untagClosing (ranges_untagClosing h)))
    (ranges_untagClosing (ranges_untagClosing h)))

/-! ### RestoreOps -/

theorem ranges_onLeftRestore {b : Bay} {k : Nat} {f : State → State} (h : Ranges z s) (hf : ∀ t, Ranges z t → Ranges z (f t)) :
    Ranges z (onLeftRestore s b k f) := by
  unfold onLeftRestore
  split
  · exact ranges_setRestoreRuns (hf _ (ranges_setRestore h))
  · exact h
theorem ranges_onRunOf {b : Bay} {id : Option Nat} {f : State → State} (h : Ranges z s) (hf : ∀ t, Ranges z t → Ranges z (f t)) :
    Ranges z (onRunOf s b id f) := by
  unfold onRunOf
  repeat' split
  · exact hf _ h
  · exact ranges_onLeftRestore h hf
  · exact hf _ h
theorem ranges_onLeftRestores {b : Bay} {g : RestoreRun → Bool} {f : State → State} (h : Ranges z s)
    (hf : ∀ t, Ranges z t → Ranges z (f t)) : Ranges z (onLeftRestores s b g f) :=
  ranges_foldl h fun _ _ ht => ranges_ite (ranges_onLeftRestore ht hf) ht
theorem ranges_onLeftVerify {b : Bay} {k : Nat} {f : State → State} (h : Ranges z s) (hf : ∀ t, Ranges z t → Ranges z (f t)) :
    Ranges z (onLeftVerify s b k f) := by
  unfold onLeftVerify
  split
  · exact ranges_setVerifyRuns (hf _ (ranges_setVerify h))
  · exact h
theorem ranges_onVerifyOf {b : Bay} {id : Nat} {f : State → State} (h : Ranges z s) (hf : ∀ t, Ranges z t → Ranges z (f t)) :
    Ranges z (onVerifyOf s b id f) := by
  unfold onVerifyOf
  repeat' split
  · exact hf _ h
  · exact ranges_onLeftVerify h hf
  · exact hf _ h
theorem ranges_addStaged {b : Bay} {e : Staged} (h : Ranges z s) : Ranges z (addStaged s b e) := ranges_modRestore h
theorem ranges_modStaged {b : Bay} {block : Nat} {f : Staged → Staged} (h : Ranges z s) : Ranges z (modStaged s b block f) :=
  ranges_modRestore h
theorem ranges_dropStaged {b : Bay} {block : Nat} (h : Ranges z s) : Ranges z (dropStaged s b block) := ranges_modRestore h
theorem ranges_releaseOpt {id : Option Nat} (h : Ranges z s) : Ranges z (releaseOpt s id) := by
  unfold releaseOpt
  split
  · exact ranges_releaseDesc h
  · exact h
theorem ranges_giveUpDesc {b : Bay} {id : Nat} (h : Ranges z s) : Ranges z (giveUpDesc s b id) :=
  ranges_ite (ranges_abandonInHand h) (ranges_releaseDesc (ranges_withdrawItem h))
theorem ranges_giveUpStaged {b : Bay} {e : Staged} (h : Ranges z s) : Ranges z (giveUpStaged b s e) := by
  unfold giveUpStaged
  split
  · exact ranges_giveUpDesc (ranges_dropStaged h)
  · exact ranges_onBuffer (ranges_dropStaged h)
theorem ranges_giveUpStagedIf {b : Bay} {f : Staged → Bool} (h : Ranges z s) : Ranges z (giveUpStagedIf s b f) := by
  unfold giveUpStagedIf
  split
  · exact ranges_foldl h (fun _ _ hu => ranges_giveUpStaged hu)
  · exact h
theorem ranges_giveUpIndex {b : Bay} (h : Ranges z s) : Ranges z (giveUpIndex s b) := by
  unfold giveUpIndex
  repeat' split
  · exact h
  · exact ranges_giveUpDesc (ranges_modRestore h)
  · exact ranges_onBuffer (ranges_modRestore h)
  · exact h
theorem ranges_takeEnding {b : Bay} {code : ReplyCode} {block : Option Nat} (h : Ranges z s) : Ranges z (takeEnding s b code block) := by
  unfold takeEnding
  split
  · exact ranges_ite (ranges_giveUpStagedIf (ranges_modRestore h)) h
  · exact h
theorem ranges_reportFailure {l : Label} {block : Nat} (h : Ranges z s) : Ranges z (reportFailure s l block) := ranges_modVolume h
theorem ranges_askNext {b : Bay} (h : Ranges z s) : Ranges z (askNext s b) := by
  unfold askNext
  split
  · exact ranges_ite (ranges_onBuffer (ranges_addStaged h)) h
  · exact h
theorem ranges_offerStaged {b : Bay} (h : Ranges z s) : Ranges z (offerStaged s b) := by
  unfold offerStaged
  repeat' split
  · exact ranges_modStaged (ranges_offerItem h)
  · exact h
  · exact h
  · exact h
  · exact h
theorem ranges_offerDue {b : Bay} (h : Ranges z s) : Ranges z (offerDue s b) :=
  ranges_offerStaged (ranges_onLeftRestores h (fun _ hu => ranges_offerStaged hu))
theorem ranges_handReady {b : Bay} (h : Ranges z s) : Ranges z (handReady s b) := by
  unfold handReady
  split
  · exact ranges_queueFrames (ranges_setRestore h)
  · exact h
theorem ranges_restoreAdvance {b : Bay} (h : Ranges z s) : Ranges z (restoreAdvance s b) :=
  ranges_handReady (ranges_offerStaged (ranges_askNext h))
theorem ranges_restoreArrived {b : Bay} (h : Ranges z s) : Ranges z (restoreArrived s b) := by
  unfold restoreArrived
  split
  · exact ranges_ite h (ranges_ite (ranges_onBuffer (ranges_modRestore h)) (ranges_restoreAdvance (ranges_modRestore h)))
  · exact h
theorem ranges_restorePosition {b : Bay} (h : Ranges z s) : Ranges z (restorePosition s b) := by
  unfold restorePosition
  split
  · exact ranges_ite (ranges_restoreArrived h) (ranges_ite (ranges_issueLocate h) h)
  · exact h
theorem ranges_indexData {b : Bay} {r : RestoreRun} {x : IndexRead} {h : TapeHeader} {stored : List Byte} (hz : Ranges z s) : Ranges z
    (indexData s b r x h stored) := by
  unfold indexData
  repeat' split
  · exact ranges_releaseOpt (ranges_modRestore hz)
  · exact ranges_takeEnding (ranges_releaseOpt (ranges_modRestore hz))
  · exact ranges_offerItem (ranges_modRestore (ranges_trimDesc (ranges_placeBytes hz)))
  · exact ranges_takeEnding (ranges_releaseOpt (ranges_modRestore (ranges_reportFailure (ranges_trimDesc (ranges_placeBytes hz)))))
  · exact hz
theorem ranges_endingAfter {b : Bay} {block : Nat} {mark : Bool} (h : Ranges z s) : Ranges z (endingAfter s b block mark) := by
  unfold endingAfter
  split
  · exact ranges_ite (ranges_takeEnding h) (ranges_ite (ranges_takeEnding h) (ranges_ite (ranges_takeEnding h) h))
  · exact h
theorem ranges_stagedData {b : Bay} {r : RestoreRun} {e : Staged} {id : Nat} {h : TapeHeader} {stored : List Byte} (hz : Ranges z s) :
    Ranges z (stagedData s b r e id h stored) :=
  ranges_ite (ranges_restoreAdvance (ranges_endingAfter (ranges_modStaged (ranges_trimDesc (ranges_modRestore hz))))) (ranges_ite
    (ranges_restoreAdvance (ranges_endingAfter (ranges_ite (ranges_onBuffer (ranges_modStaged (ranges_trimDesc (ranges_placeBytes
    (ranges_modRestore hz))))) (ranges_modStaged (ranges_trimDesc (ranges_placeBytes (ranges_modRestore hz))))))) (ranges_restoreAdvance
    (ranges_takeEnding (ranges_endingAfter (ranges_releaseDesc (ranges_dropStaged (ranges_reportFailure (ranges_trimDesc
    (ranges_placeBytes (ranges_modRestore hz))))))))))
theorem ranges_restoreData {b : Bay} {h : TapeHeader} {stored : List Byte} (hz : Ranges z s) : Ranges z (restoreData s b h stored) := by
  unfold restoreData
  repeat' split
  · exact ranges_indexData hz
  · exact hz
  · exact ranges_releaseDesc (ranges_dropStaged hz)
  · exact ranges_stagedData hz
  · exact hz
  · exact hz
  · exact hz
theorem ranges_restoreReadFailed {b : Bay} {block : Nat} (h : Ranges z s) : Ranges z (restoreReadFailed s b block) := by
  unfold restoreReadFailed
  repeat' split
  · exact ranges_takeEnding (ranges_releaseOpt (ranges_modRestore h))
  · exact ranges_takeEnding (ranges_releaseOpt (ranges_dropStaged h))
  · exact h
  · exact h
theorem ranges_restoreDriveFault {b : Bay} (h : Ranges z s) : Ranges z (restoreDriveFault s b) :=
  ranges_takeEnding (ranges_giveUpIndex (ranges_modRestore (ranges_giveUpStagedIf h)))
theorem ranges_withdrawFrames {b : Bay} {p : Port} (h : Ranges z s) : Ranges z (withdrawFrames s b p) := by
  unfold withdrawFrames
  refine ranges_modPort (ranges_giveUpStagedIf h) fun c hc => ⟨hc.1, fun hd => ?_⟩
  obtain ⟨ht, hk, hf, hs⟩ := hc.2 hd
  exact ⟨ht, hk, by simp [hf], hs⟩
theorem ranges_restoreAbort {b : Bay} (h : Ranges z s) : Ranges z (restoreAbort s b) := by
  unfold restoreAbort
  split
  · exact ranges_withdrawFrames (ranges_giveUpIndex (ranges_giveUpStagedIf (ranges_modRestore h)))
  · exact h
theorem ranges_restoreLinkLoss {b : Bay} (h : Ranges z s) : Ranges z (restoreLinkLoss s b) :=
  ranges_giveUpStagedIf (ranges_restoreAbort (ranges_modRestore h))
theorem ranges_bayRestoresLoss {p : Port} {b : Bay} (h : Ranges z s) : Ranges z (bayRestoresLoss p s b) :=
  ranges_onLeftRestores (ranges_ite (ranges_restoreLinkLoss h) h) (fun _ hu => ranges_restoreLinkLoss hu)
theorem ranges_dropRestoreAborts {p : Port} {b : Bay} (h : Ranges z s) : Ranges z (dropRestoreAborts s p b) := ranges_setRestoreRuns h
theorem ranges_portRestoresLoss {p : Port} (h : Ranges z s) : Ranges z (portRestoresLoss s p) :=
  ranges_bayRestoresLoss (ranges_bayRestoresLoss (ranges_dropRestoreAborts (ranges_dropRestoreAborts h)))
theorem ranges_recordDelivered {b : Bay} {block : Nat} {id : Option Nat} (h : Ranges z s) : Ranges z (recordDelivered s b block id) := by
  unfold recordDelivered
  repeat' split
  · exact ranges_restoreAdvance (ranges_modDrive (ranges_modRestore (ranges_releaseOpt (ranges_dropStaged h))))
  · exact h
  · exact h
theorem ranges_clearRunActivity {b : Bay} (h : Ranges z s) : Ranges z (clearRunActivity s b) := ranges_modDrive h
theorem ranges_answerAborts {as : List RunAbort} (h : Ranges z s) : Ranges z (answerAborts s as) :=
  ranges_foldl h (fun _ _ hu => ranges_answer hu)
theorem ranges_answerRestore {b : Bay} {r : RestoreRun} (h : Ranges z s) : Ranges z (answerRestore s b r) :=
  ranges_answerAborts (ranges_answerHeld h)
theorem ranges_closeRestore {b : Bay} {r : RestoreRun} (h : Ranges z s) : Ranges z (closeRestore s b r) :=
  ranges_answerRestore (ranges_clearRunActivity (ranges_setRestore h))

/-! ### VerifyOps -/

theorem ranges_verifyEnds {b : Bay} {code : ReplyCode} {block : Option Nat} (h : Ranges z s) : Ranges z (verifyEnds s b code block) :=
  ranges_modVerify h
theorem ranges_verifyReserve {b : Bay} (h : Ranges z s) : Ranges z (verifyReserve s b) := ranges_onBuffer (ranges_modVerify h)
theorem ranges_verifyRelease {b : Bay} (h : Ranges z s) : Ranges z (verifyRelease s b) := by
  unfold verifyRelease
  repeat' split
  · exact ranges_releaseDesc (ranges_modVerify h)
  · exact ranges_modVerify h
  · exact h
theorem ranges_verifyResult {b : Bay} {r : VerifyRun} {block : Nat} {res : CheckResult} (h : Ranges z s) : Ranges z (verifyResult s b r
    block res) := by
  unfold verifyResult
  split
  · exact ranges_ite (ranges_verifyEnds (ranges_modVolume (ranges_verifyRelease (ranges_modVerify h)))) (ranges_ite (ranges_verifyEnds
      (ranges_modVolume (ranges_verifyRelease (ranges_modVerify h)))) (ranges_verifyReserve (ranges_modVolume (ranges_verifyRelease
      (ranges_modVerify h)))))
  · exact ranges_verifyEnds (ranges_modVolume (ranges_verifyRelease (ranges_modVerify h)))
  · exact ranges_verifyEnds (ranges_modVolume (ranges_verifyRelease (ranges_modVerify h)))
theorem ranges_verifyBlock {b : Bay} {r : VerifyRun} {n id : Nat} {h : TapeHeader} {stored : List Byte} (hz : Ranges z s) : Ranges z
    (verifyBlock s b r n id h stored) :=
  ranges_ite (ranges_verifyResult (ranges_trimDesc (ranges_modVerify hz))) (ranges_ite (ranges_verifyResult (ranges_trimDesc
    (ranges_modVerify hz))) (ranges_ite (ranges_ite (ranges_offerItem (ranges_modVerify (ranges_trimDesc (ranges_placeBytes
    (ranges_modVerify hz))))) (ranges_verifyResult (ranges_trimDesc (ranges_placeBytes (ranges_modVerify hz))))) (ranges_verifyResult
    (ranges_trimDesc (ranges_modVerify hz)))))
theorem ranges_verifyData {b : Bay} {h : TapeHeader} {stored : List Byte} (hz : Ranges z s) : Ranges z (verifyData s b h stored) := by
  unfold verifyData
  repeat' split
  · exact ranges_verifyRelease hz
  · exact ranges_verifyBlock hz
  · exact hz
  · exact hz
  · exact hz
theorem ranges_verifyReadFailed {b : Bay} {block : Nat} (h : Ranges z s) : Ranges z (verifyReadFailed s b block) :=
  ranges_verifyEnds (ranges_verifyRelease h)
theorem ranges_verifyDriveFault {b : Bay} (h : Ranges z s) : Ranges z (verifyDriveFault s b) := by
  unfold verifyDriveFault
  split
  · exact ranges_ite (ranges_modVerify h) (ranges_verifyEnds (ranges_onBuffer (ranges_ite (ranges_verifyRelease h) h)))
  · exact h
theorem ranges_verifyArrived {b : Bay} (h : Ranges z s) : Ranges z (verifyArrived s b) := by
  unfold verifyArrived
  split
  · exact ranges_ite (ranges_verifyReserve h) h
  · exact h
theorem ranges_verifyPosition {b : Bay} (h : Ranges z s) : Ranges z (verifyPosition s b) := by
  unfold verifyPosition
  split
  · exact ranges_ite (ranges_verifyArrived h) (ranges_issueLocate h)
  · exact h
theorem ranges_verifyAbort {b : Bay} (h : Ranges z s) : Ranges z (verifyAbort s b) := by
  unfold verifyAbort
  repeat' split
  · exact ranges_verifyEnds (ranges_abandonInHand (ranges_onBuffer h))
  · exact ranges_verifyEnds (ranges_verifyRelease (ranges_withdrawItem (ranges_onBuffer h)))
  · exact ranges_verifyEnds (ranges_onBuffer h)
  · exact ranges_verifyEnds (ranges_abandonInHand h)
  · exact ranges_verifyEnds (ranges_verifyRelease (ranges_withdrawItem h))
  · exact ranges_verifyEnds h
  · exact h
theorem ranges_verifyLinkLoss {b : Bay} (h : Ranges z s) : Ranges z (verifyLinkLoss s b) :=
  ranges_modVerify (ranges_verifyAbort (ranges_modVerify h))
theorem ranges_bayVerifiesLoss {p : Port} {b : Bay} (h : Ranges z s) : Ranges z (bayVerifiesLoss p s b) :=
  ranges_foldl (ranges_ite (ranges_verifyLinkLoss h) h) fun _ _ ht =>
    ranges_ite (ranges_onLeftVerify ht fun _ hu => ranges_verifyLinkLoss hu) ht
theorem ranges_dropVerifyAborts {p : Port} {b : Bay} (h : Ranges z s) : Ranges z (dropVerifyAborts s p b) := ranges_setVerifyRuns h
theorem ranges_portVerifiesLoss {p : Port} (h : Ranges z s) : Ranges z (portVerifiesLoss s p) :=
  ranges_bayVerifiesLoss (ranges_bayVerifiesLoss (ranges_dropVerifyAborts (ranges_dropVerifyAborts h)))
theorem ranges_answerVerify {b : Bay} {r : VerifyRun} (h : Ranges z s) : Ranges z (answerVerify s b r) :=
  ranges_answerAborts (ranges_answerHeld h)
theorem ranges_closeVerify {b : Bay} {r : VerifyRun} (h : Ranges z s) : Ranges z (closeVerify s b r) :=
  ranges_answerVerify (ranges_clearRunActivity (ranges_setVerify h))

/-! ### MoveQueue -/

theorem Picker.hasPlace_internal {k : Picker} {kind : MoveKind} (h : k.internalEntries < Config.internalPlaces) (hk : kind ≠ .recover) :
    k.hasPlace .internal kind := ⟨nofun, fun _ _ => h, fun hr => absurd hr hk⟩
theorem Requester.isInternal_of_isPort {p : Port} {q : Requester} (h : q.isPort p = true) : q.isInternal = false := by
  cases q with
  | internal => exact nomatch h
  | port _ _ => rfl
theorem ranges_modEntry {num : Nat} {f : MoveEntry → MoveEntry} (h : Ranges z s) (hk : ∀ e, (f e).kind = e.kind)
    (hr : ∀ e, (f e).requester = e.requester) : Ranges z (modEntry s num f) :=
  ranges_modPicker_of h fun k hin => Picker.inRange_map hin (fun e => if e.number = num then f e else e)
    (fun e => by split <;> simp [hk]) (fun e => by split <;> simp [hr]) _ rfl rfl
theorem ranges_acceptEntry {q : Requester} {kind : MoveKind} {source : Nat} {dest : Option Nat} {expected : Option Label}
    {phase : Phase} (h : Ranges z s) (hp : s.picker.hasPlace q kind) :
    Ranges z (acceptEntry s q kind source dest expected phase) := by
  unfold acceptEntry
  extract_lets n s1 s2
  have h1 : Ranges z s1 := h.trans ⟨rfl, id, fun hin => Picker.inRange_append hin _ hp _ rfl (Nat.mod_lt _ (by decide)), id⟩
  split
  · exact ranges_setClaim (ranges_setClaim h1)
  · exact ranges_setClaim h1
theorem ranges_queueOwedUnload {b : Bay} (h : Ranges z s) : Ranges z (queueOwedUnload s b) := by
  unfold queueOwedUnload
  split
  · rename_i hc
    simp only [Bool.and_eq_true, decide_eq_true_eq] at hc
    exact ranges_acceptEntry h (Picker.hasPlace_internal hc.1.2 (by decide))
  · exact h
theorem ranges_queueOwedUnloads (h : Ranges z s) : Ranges z (queueOwedUnloads s) := ranges_queueOwedUnload (ranges_queueOwedUnload h)
theorem ranges_markOwed {b : Bay} (h : Ranges z s) : Ranges z (markOwed s b) :=
  ranges_ite h (ranges_queueOwedUnloads (ranges_modPicker h rfl rfl))
theorem ranges_queueReturn {pea : Nat} {l : Label} {owner : Option Port} (h : Ranges z s) : Ranges z (queueReturn s pea l owner) := by
  have h1 := ranges_queueOwedUnloads h
  unfold queueReturn
  extract_lets s1
  split
  · split
    · rename_i hc
      simp only [Bool.and_eq_true, decide_eq_true_eq] at hc
      exact ranges_acceptEntry h1 (Picker.hasPlace_internal hc.1 (by decide))
    · exact h1
  · exact h1
theorem ranges_leaveReleased {b : Bay} (h : Ranges z s) : Ranges z (leaveReleased s b) :=
  ranges_modPort (ranges_modPort (ranges_modPort h fun _ => id) fun _ => id) fun _ => id
theorem ranges_dropClaim {b : Bay} (h : Ranges z s) : Ranges z (dropClaim s b) := ranges_modDrive h
theorem ranges_clearOwed {b : Bay} (h : Ranges z s) : Ranges z (clearOwed s b) := ranges_modPicker h rfl rfl
theorem ranges_removeEntry {num : Nat} (h : Ranges z s) : Ranges z (removeEntry s num) :=
  ranges_clearClaims (ranges_modPicker_of h fun _ hin => Picker.inRange_filter hin _ _ rfl rfl)
theorem ranges_settleClaims {e : MoveEntry} {code : ReplyCode} (h : Ranges z s) : Ranges z (settleClaims s e code) := by
  unfold settleClaims
  repeat' split
  · exact h
  · exact ranges_leaveReleased (ranges_dropClaim h)
  · exact h
  · exact ranges_clearOwed (ranges_leaveReleased (ranges_dropClaim h))
  · exact ranges_clearOwed (ranges_leaveReleased h)
  · exact h
  · exact h
  · exact h
theorem ranges_moveReply {e : MoveEntry} {code : ReplyCode} (h : Ranges z s) : Ranges z (moveReply s e code) := by
  unfold moveReply
  split
  · exact ranges_answerHeld h
  · exact h
theorem ranges_completeMove {e : MoveEntry} {code : ReplyCode} (h : Ranges z s) : Ranges z (completeMove s e code) :=
  ranges_ite (ranges_queueOwedUnloads (ranges_moveReply (ranges_settleClaims (ranges_removeEntry h)))) (ranges_moveReply
    (ranges_settleClaims (ranges_removeEntry h)))
theorem ranges_withdrawEntry {e : MoveEntry} (h : Ranges z s) : Ranges z (withdrawEntry s e) := by
  unfold withdrawEntry
  repeat' split
  · exact ranges_dropClaim (ranges_removeEntry h)
  · exact ranges_removeEntry h
  · exact ranges_removeEntry h
theorem ranges_portMovesLoss {p : Port} (h : Ranges z s) : Ranges z (portMovesLoss s p) := by
  unfold portMovesLoss
  refine ranges_modPicker_of (ranges_foldl h fun _ _ ht => ranges_withdrawEntry ht) fun _ hin =>
    Picker.inRange_map hin (fun e => if e.requester.isPort p then { e with requester := .port p none } else e)
      (fun e => by split <;> rfl)
      (fun e => by
        split
        · rename_i hp
          exact (Requester.isInternal_of_isPort hp).symm
        · rfl) _ rfl rfl

/-! ### AuditOps -/

theorem ranges_markPending {pea : Nat} (h : Ranges z s) : Ranges z (markPending s pea) := ranges_modPicker h rfl rfl
theorem ranges_setLocation {l : Label} {pea : Nat} (h : Ranges z s) : Ranges z (setLocation s l pea) := ranges_modVolume h
theorem ranges_vacate {old : Location} {pea : Nat} (h : Ranges z s) : Ranges z (vacate s old pea) := by
  unfold vacate
  split
  · exact ranges_ite h (ranges_markPending (ranges_setElem h))
  · exact ranges_setElem h
  · exact h
theorem ranges_reconcile {pea : Nat} {read : Option Label} {readDone : List Nat} (h : Ranges z s) :
    Ranges z (reconcile s pea read readDone) := by
  have h1 : Ranges z (displaceFrom s pea read) := ranges_displaceFrom h
  unfold reconcile
  extract_lets s1
  split
  · exact ranges_setElem h1
  · split
    · split
      · exact ranges_setElem (ranges_setVolumes h1)
      · exact ranges_setElem h1
    · split
      · exact ranges_setElem h1
      · exact ranges_ite (ranges_setElem (ranges_setLocation (ranges_vacate h1)))
          (ranges_queueReturn (ranges_setElem (ranges_setLocation (ranges_vacate h1))))
theorem ranges_bayUnknown {b : Bay} (h : Ranges z s) : Ranges z (bayUnknown s b) := ranges_setElem (ranges_displaceFrom h)
theorem ranges_issueMotion {m : Motion} {st : PickerState} (h : Ranges z s) : Ranges z (issueMotion s m st) :=
  ranges_modPicker h rfl rfl
theorem ranges_motionReported (h : Ranges z s) : Ranges z (motionReported s) := ranges_modPicker h rfl rfl
theorem ranges_answerAll {kind : ReqKind} {code : ReplyCode} {ws : List (Port × Byte)} (h : Ranges z s) : Ranges z (answerAll s kind code
    ws) :=
  ranges_foldl h (fun _ _ hu => ranges_answer hu)
theorem ranges_oweImport (h : Ranges z s) : Ranges z (oweImport s) := by
  unfold oweImport
  split
  · exact ranges_modPicker h rfl rfl
  · exact h
theorem ranges_importNotice {a : AuditRun} (h : Ranges z s) : Ranges z (importNotice s a) := ranges_ite h (ranges_queueNoticeAll h)
theorem ranges_completeFull {a : AuditRun} (h : Ranges z s) : Ranges z (completeFull s a) :=
  ranges_queueOwedUnloads (ranges_importNotice (ranges_answerAll (ranges_answerAll (ranges_setCondition (ranges_modPicker h rfl rfl)))))
theorem ranges_completeMail {a : AuditRun} (h : Ranges z s) : Ranges z (completeMail s a) :=
  ranges_queueOwedUnloads (ranges_importNotice (ranges_modPicker h rfl rfl))
theorem ranges_issueQuery {b : Bay} (h : Ranges z s) : Ranges z (issueQuery s b) := ranges_modDrive h
theorem ranges_askBays {a : AuditRun} {bs : List Bay} (h : Ranges z s) : Ranges z (askBays a bs s) := by
  induction bs generalizing s with
  | nil => exact ranges_completeFull h
  | cons b rest ih =>
    unfold askBays
    split
    · exact ih h
    · exact ih (ranges_reconcile h)
    · exact ih (ranges_bayUnknown h)
    · exact ranges_issueQuery (ranges_modPicker h rfl rfl)
theorem ranges_auditNext (h : Ranges z s) : Ranges z (auditNext s) := by
  unfold auditNext
  repeat' split
  · exact ranges_issueMotion (ranges_modPicker h rfl rfl)
  · exact ranges_askBays (ranges_modPicker h rfl rfl)
  · exact ranges_completeMail h
  · exact h
theorem ranges_startFullAudit (h : Ranges z s) : Ranges z (startFullAudit s) :=
  ranges_auditNext (ranges_setCondition (ranges_modPicker h rfl rfl))
theorem ranges_startMailAudit (h : Ranges z s) : Ranges z (startMailAudit s) := ranges_auditNext (ranges_modPicker h rfl rfl)
theorem ranges_takeReading {a : AuditRun} {pea : Nat} {r : Reading} (h : Ranges z s) : Ranges z (takeReading s a pea r) := by
  have h1 : Ranges z (s.modPicker fun k => { k with
      audit := some { a with readDone := a.readDone ++ [pea], markedFor := a.markedFor.filter fun q => q ≠ pea } }) :=
    ranges_modPicker h rfl rfl
  unfold takeReading
  extract_lets s1 note
  split
  · exact ranges_ite (ranges_modPicker (ranges_reconcile h1) rfl rfl) (ranges_reconcile h1)
  · exact ranges_reconcile h1
  · exact ranges_foundEmpty h1
theorem ranges_bayAnswered {b : Bay} (h : Ranges z s) : Ranges z (bayAnswered s b) := by
  unfold bayAnswered
  split
  · exact ranges_ite (ranges_askBays (ranges_modPicker h rfl rfl)) h
  · exact h

/-! ### PickerOps -/

theorem ranges_setPhase {num : Nat} {ph : Phase} (h : Ranges z s) : Ranges z (setPhase s num ph) :=
  ranges_modEntry h (fun _ => rfl) (fun _ => rfl)
theorem ranges_issueOrHold {m : Motion} (h : Ranges z s) : Ranges z (issueOrHold s m) :=
  ranges_ite (ranges_modPicker h rfl rfl) (ranges_issueMotion h)
theorem ranges_freePicker (h : Ranges z s) : Ranges z (freePicker s) :=
  ranges_ite (ranges_startFullAudit h) (ranges_modPicker h rfl rfl)
theorem ranges_startCarry {e : MoveEntry} (h : Ranges z s) : Ranges z (startCarry s e) := ranges_issueMotion (ranges_setPhase h)
theorem ranges_startPlace {e : MoveEntry} (h : Ranges z s) : Ranges z (startPlace s e) := ranges_issueOrHold (ranges_setPhase h)
theorem ranges_startFetch {e : MoveEntry} {pea : Nat} (h : Ranges z s) : Ranges z (startFetch s e pea) :=
  ranges_issueOrHold (ranges_setPhase h)
theorem ranges_stopAudit (h : Ranges z s) : Ranges z (stopAudit s) := by
  unfold stopAudit
  split
  · exact ranges_ite (ranges_answerAll (ranges_answerAll (ranges_modPicker (ranges_oweImport h) rfl rfl))) (ranges_modPicker
      (ranges_oweImport h) rfl rfl)
  · exact h
theorem ranges_faultPicker {r : Option Recovery} (h : Ranges z s) : Ranges z (faultPicker s r) :=
  ranges_setCondition (ranges_modPicker h rfl rfl)
theorem ranges_firstFault (h : Ranges z s) : Ranges z (firstFault s) := by
  unfold firstFault
  split
  · exact ranges_completeMove (ranges_stopAudit (ranges_faultPicker h))
  · exact ranges_stopAudit (ranges_faultPicker h)
theorem ranges_clearOwedMarks (h : Ranges z s) : Ranges z (clearOwedMarks s) := by
  unfold clearOwedMarks
  exact ranges_modPicker (ranges_ite (ranges_leaveReleased (ranges_ite (ranges_leaveReleased h) h)) (ranges_ite (ranges_leaveReleased h)
    h)) rfl rfl
theorem ranges_disablePicker (h : Ranges z s) : Ranges z (disablePicker s) :=
  ranges_foldl (ranges_foldl (ranges_answerAll (ranges_clearOwedMarks (ranges_setCondition (ranges_modPicker h rfl rfl)))) (fun _ _ hu =>
    ranges_completeMove hu)) (fun _ _ hu => ranges_removeEntry hu)
theorem ranges_recoveryDone {e : MoveEntry} (h : Ranges z s) : Ranges z (recoveryDone s e) :=
  ranges_modPicker (ranges_removeEntry h) rfl rfl
theorem ranges_recoveryObstructed {e : MoveEntry} {pea : Nat} (h : Ranges z s) : Ranges z (recoveryObstructed s e pea) := by
  unfold recoveryObstructed
  dsimp only
  split
  · exact ranges_startCarry (ranges_setClaim (ranges_setClaim (ranges_modEntry (ranges_placeObstructed (ranges_clearClaims h)) (fun _ =>
      rfl) (fun _ => rfl))))
  · exact ranges_disablePicker (ranges_placeObstructed (ranges_clearClaims h))
theorem ranges_fetchReported {e : MoveEntry} {pea : Nat} {gripped : Bool} {read : Option Label} (h : Ranges z s) : Ranges z
    (fetchReported s e pea gripped read) :=
  ranges_ite (ranges_freePicker (ranges_completeMove (ranges_markPending (ranges_setElem (ranges_foundEmpty h))))) (ranges_ite
    (ranges_issueOrHold h) (ranges_startCarry (ranges_fetchTaken h)))
theorem ranges_freeClaim {pea : Nat} (h : Ranges z s) : Ranges z (freeClaim s pea) := ranges_modElement h
theorem ranges_putBackReported {e : MoveEntry} {pea : Nat} {read : Option Label} (h : Ranges z s) :
    Ranges z (putBackReported s e pea read) := by
  unfold putBackReported
  exact ranges_freePicker (ranges_completeMove (ranges_setElem (ranges_markPending (ranges_reconcile (ranges_freeClaim h)))))
theorem ranges_startThread {e : MoveEntry} {b : Bay} (h : Ranges z s) : Ranges z (startThread s e b) :=
  ranges_setPhase (ranges_modDrive h)
theorem ranges_placeBlocked {e : MoveEntry} {pea : Nat} (h : Ranges z s) : Ranges z (placeBlocked s e pea) :=
  ranges_startCarry (ranges_modEntry (ranges_markPending (ranges_placeObstructed h)) (fun _ => rfl) (fun _ => rfl))
theorem ranges_placeBlockedTwice {e : MoveEntry} {pea : Nat} (h : Ranges z s) : Ranges z (placeBlockedTwice s e pea) :=
  ranges_completeMove (ranges_faultPicker (ranges_markPending (ranges_placeObstructed h)))
theorem ranges_placeReported {e : MoveEntry} {pea : Nat} {obstructed : Bool} (h : Ranges z s) : Ranges z (placeReported s e pea
    obstructed) := by
  unfold placeReported
  repeat' split
  · exact ranges_recoveryObstructed h
  · exact ranges_recoveryDone (ranges_placeTaken h)
  · exact ranges_freePicker (ranges_startThread (ranges_placeTaken h))
  · exact ranges_freePicker (ranges_completeMove (ranges_placeTaken h))
  · exact ranges_placeBlocked h
  · exact ranges_freePicker (ranges_completeMove (ranges_placeTaken h))
  · exact ranges_freePicker (ranges_completeMove (ranges_placeTaken h))
  · exact ranges_placeBlockedTwice h
theorem ranges_resumeHeld (h : Ranges z s) : Ranges z (resumeHeld s) := by
  unfold resumeHeld
  repeat' split
  · exact ranges_modPicker h rfl rfl
  · exact ranges_placeReported (ranges_modPicker h rfl rfl)
  · exact ranges_issueMotion (ranges_modPicker h rfl rfl)
  · exact ranges_issueMotion (ranges_modPicker h rfl rfl)
  · exact h
theorem ranges_afterAudit (h : Ranges z s) : Ranges z (afterAudit s) :=
  ranges_ite (ranges_ite (ranges_startMailAudit h) (ranges_resumeHeld h)) h
theorem ranges_setReplied {e : MoveEntry} (h : Ranges z s) : Ranges z (setReplied s e) :=
  ranges_modEntry h (fun _ => rfl) (fun _ => rfl)
theorem ranges_threadFailed {b : Bay} (h : Ranges z s) : Ranges z (threadFailed s b) := by
  unfold threadFailed
  split
  · exact ranges_modEntry h (fun _ => rfl) (fun _ => rfl)
  · exact h
theorem ranges_unloadEjected {e : MoveEntry} (h : Ranges z s) : Ranges z (unloadEjected s e) := by
  unfold unloadEjected
  repeat' split
  · exact ranges_setReplied h
  · exact ranges_setClaim (ranges_modEntry h (fun _ => rfl) (fun _ => rfl))
  · exact ranges_completeMove h
theorem ranges_moveDriveFault {b : Bay} (h : Ranges z s) : Ranges z (moveDriveFault s b) := by
  unfold moveDriveFault
  extract_lets s1
  have h1 : Ranges z s1 := by
    unfold s1
    split
    · exact ranges_completeMove h
    · exact h
  split
  · exact ranges_completeMove h1
  · exact h1
theorem ranges_startUnload {e : MoveEntry} {b : Bay} (h : Ranges z s) : Ranges z (startUnload s e b) :=
  ranges_ite (ranges_unloadEjected (ranges_setPhase h)) (ranges_ite (ranges_completeMove (ranges_setPhase h)) (ranges_ite
    (ranges_modDrive (ranges_setPhase h)) (ranges_completeMove (ranges_setPhase h))))
theorem ranges_startEntry {e : MoveEntry} (h : Ranges z s) : Ranges z (startEntry s e) := by
  unfold startEntry
  repeat' split
  · exact ranges_completeMove h
  · exact ranges_startUnload h
  · exact ranges_startFetch h
theorem ranges_takeReplied {e : MoveEntry} (h : Ranges z s) : Ranges z (takeReplied s e) := ranges_startFetch h
theorem ranges_nextWork (h : Ranges z s) : Ranges z (nextWork s) := by
  unfold nextWork
  dsimp only
  repeat' split
  · exact ranges_takeReplied h
  · exact ranges_afterAudit (ranges_startMailAudit h)
  · exact ranges_startFullAudit h
  · exact h
  · exact ranges_startEntry h
  · exact ranges_startEntry h
  · exact h

/-! ### BayDown -/

theorem ranges_activityDown {b : Bay} {a : Activity} (h : Ranges z s) : Ranges z (activityDown s b a) := by
  unfold activityDown
  split
  · exact ranges_streamFault h
  · exact ranges_restoreDriveFault h
  · exact ranges_verifyDriveFault h
  · exact ranges_ite (ranges_openingEnds h) h
theorem ranges_auditSilent {b : Bay} (h : Ranges z s) : Ranges z (auditSilent s b) :=
  ranges_ite (ranges_afterAudit (ranges_bayAnswered (ranges_bayUnknown h))) h
theorem ranges_bayDown {b : Bay} {st : DriveState} (h : Ranges z s) : Ranges z (bayDown s b st) :=
  ranges_auditSilent (ranges_moveDriveFault (ranges_activityDown (ranges_modDrive h)))
theorem ranges_orderBroken {b : Bay} (h : Ranges z s) : Ranges z (orderBroken s b) := ranges_ite h (ranges_bayDown h)

/-! ### SettingsOps -/

theorem ranges_configDone {q : ConfigRequest} (h : Ranges z s) : Ranges z (configDone s q) := ranges_answerHeld h
theorem ranges_releaseWritten {r : ReleaseWrite} {rest : List ReleaseWrite} (h : Ranges z s) : Ranges z (releaseWritten s r rest) :=
  ranges_answerHeld (ranges_releaseWrites h)

/-! ### Links -/

theorem ranges_linkUp {p : Port} (h : Ranges z s) : Ranges z (linkUp s p) :=
  ranges_queueNotice (ranges_onBuffer (ranges_queueNotice (ranges_modPort h fun _ hc => inRange_of_up hc rfl rfl)))
theorem PortCtl.tagKind_wentDown (c : PortCtl) (x : Byte) : c.wentDown.tagKind x = none := by
  simp only [PortCtl.tagKind, PortCtl.wentDown, List.getElem?_replicate]
  split <;> rfl
theorem ranges_linkLost {p : Port} (h : Ranges z s) : Ranges z (linkLost s p) := by
  have h1 : Ranges z (s.modPort p PortCtl.wentDown) :=
    ranges_modPort h fun _ _ => ⟨by simp [PortCtl.wentDown], fun _ => ⟨fun x => PortCtl.tagKind_wentDown _ x, rfl, rfl, rfl⟩⟩
  exact ranges_portVerifiesLoss (ranges_portRestoresLoss (ranges_portStreamsLoss (ranges_portMovesLoss (ranges_onBuffer
    (h1.of_eq rfl rfl rfl rfl rfl)))))
theorem ranges_beginHold {p : Port} (h : Ranges z s) : Ranges z (beginHold s p) := ranges_modPort h fun _ => id
theorem ranges_holdExpired {p : Port} (h : Ranges z s) : Ranges z (holdExpired s p) := ranges_modPort h fun _ => id
theorem ranges_markIfOwed {p : Port} {b : Bay} (h : Ranges z s) : Ranges z (markIfOwed s p b) := ranges_ite (ranges_markOwed h) h
theorem ranges_holdExpiry {p : Port} (h : Ranges z s) : Ranges z (holdExpiry s p) :=
  ranges_ite (ranges_markIfOwed (ranges_ite (ranges_markIfOwed (ranges_holdExpired h)) (ranges_holdExpired h))) (ranges_ite
    (ranges_markIfOwed (ranges_holdExpired h)) (ranges_holdExpired h))

/-! ### MoveRequests -/

theorem ranges_decideMove {p : Port} {tag : Byte} {kind : ReqKind} {tests : List (Bool × ReplyCode)} {t : State}
    (h : Ranges z s) (ht : firstRefusal tests = none → Ranges z t) : Ranges z (decideMove s p tag kind tests t) := by
  unfold decideMove
  split
  · exact ranges_refuse h
  · exact ht ‹_›
theorem ranges_takeDrive {p : Port} {b : Option Bay} (h : Ranges z s) : Ranges z (takeDrive s p b) := by
  unfold takeDrive
  split
  · exact ranges_modDrive h
  · exact h
theorem ranges_acceptRecover {p : Port} {tag : Byte} {dest : Option Nat} (h : Ranges z s)
    (hn : ∀ e ∈ s.picker.queue, e.kind ≠ .recover) : Ranges z (acceptRecover s p tag dest) := by
  have hp : s.picker.hasPlace .internal .recover := ⟨fun h => (nomatch h), fun _ hk => absurd rfl hk, fun _ => hn⟩
  unfold acceptRecover
  exact ranges_modPicker (ranges_issueMotion (ranges_acceptEntry h hp)) rfl rfl
theorem ranges_nothingGripped (h : Ranges z s) : Ranges z (nothingGripped s) :=
  ranges_modPicker (ranges_setElem (ranges_mapVolumes h)) rfl rfl

/-! ### Reports -/

theorem ranges_settleReleased {v : Volume} (h : Ranges z s) : Ranges z (settleReleased s v) := by
  unfold settleReleased
  split
  · exact ranges_modElement h
  · exact h
theorem ranges_beginRelease {p : Port} {tag : Byte} {v : Volume} (h : Ranges z s) : Ranges z (beginRelease s p tag v) :=
  ranges_releaseWrites (ranges_settleReleased (ranges_modVolume h))

/-! ### StreamRequests -/

theorem ranges_acceptOpen {p : Port} {tag : Byte} {b : Bay} {v : Volume} {mode shrink : Byte} {n : Nat} (h : Ranges z s) : Ranges z
    (acceptOpen s p tag b v mode shrink n) :=
  ranges_ite (ranges_openingDone (ranges_modDrive (ranges_modStream (ranges_setAside h)))) (ranges_issueLocate (ranges_modDrive
    (ranges_modStream (ranges_setAside h))))
theorem ranges_haltWrite {p : Port} {b : Bay} {kind : ReqKind} {stream : Byte} {code : ReplyCode} (h : Ranges z s) : Ranges z (haltWrite
    s p b kind stream code) :=
  ranges_modStream (ranges_queueWriteRefused h)
theorem ranges_notOpenWrite {p : Port} {b : Bay} {kind : ReqKind} {stream : Byte} (h : Ranges z s) : Ranges z (notOpenWrite s p b kind
    stream) := by
  unfold notOpenWrite
  dsimp only
  split
  · exact ranges_modStream h
  · exact ranges_queueWriteRefused h
  · exact ranges_queueWriteRefused h
  · exact ranges_queueWriteRefused h
  · exact h
theorem ranges_joinRecord {b : Bay} {kind : RecKind} {len : Nat} {st : RecState} {id : Nat} (h : Ranges z s) : Ranges z (joinRecord s b
    kind len st id) :=
  ranges_modStream h
theorem ranges_acceptRecord {p : Port} {b : Bay} {kind : RecKind} {raw : List Byte} (h : Ranges z s) :
    Ranges z (acceptRecord s p b kind raw) := by
  unfold acceptRecord
  exact ranges_onBuffer (ranges_offerEngine (ranges_joinRecord (ranges_onBuffer h)))
theorem ranges_acceptMark {p : Port} {b : Bay} (h : Ranges z s) : Ranges z (acceptMark s p b) := by
  unfold acceptMark
  exact ranges_onBuffer (ranges_offerBlocks (ranges_joinRecord (ranges_onBuffer h)))
theorem ranges_onStream {p : Port} {tag : Byte} {kind : ReqKind} {stream : Byte} {bad : Bool} {f : State → Bay → State}
    (h : Ranges z s) (hf : ∀ b, Ranges z (f s b)) : Ranges z (onStream s p tag kind stream bad f) := by
  unfold onStream
  split
  · exact ranges_refuse h
  · exact ranges_ite (ranges_refuse h) (ranges_ite (hf _) (ranges_refuse h))
theorem ranges_drainStream {b : Bay} {q : Closing} (h : Ranges z s) : Ranges z (drainStream s b q) := ranges_modStream h

/-! ### RunRequests -/

theorem ranges_acceptRead {p : Port} {tag : Byte} {b : Bay} {v : Volume} {a : Address} {stop : Bool} {count target : Nat} (h : Ranges z
    s) : Ranges z (acceptRead s p tag b v a stop count target) :=
  ranges_restorePosition (ranges_modDrive (ranges_setRestore (ranges_setAside h)))
theorem ranges_decideRead {p : Port} {tag : Byte} {b : Bay} {form stop : Byte} {count : Nat} {first k e : Word} (h : Ranges z s) : Ranges
    z (decideRead s p tag b form stop count first k e) := by
  unfold decideRead
  repeat' split
  · exact ranges_refuse h
  · exact ranges_refuse h
  · exact ranges_acceptRead h
  · exact ranges_refuse h
  · exact ranges_refuse h
theorem ranges_acceptVerify {p : Port} {tag : Byte} {b : Bay} {v : Volume} {f : VerifyForm} (h : Ranges z s) : Ranges z (acceptVerify s p
    tag b v f) :=
  ranges_ite (ranges_verifyEnds (ranges_modDrive (ranges_setVerify (ranges_setAside h)))) (ranges_verifyPosition (ranges_modDrive
    (ranges_setVerify (ranges_setAside h))))
theorem ranges_decideVerify {p : Port} {tag : Byte} {b : Bay} {form : Byte} {a n : Word} (h : Ranges z s) : Ranges z (decideVerify s p
    tag b form a n) := by
  unfold decideVerify
  repeat' split
  · exact ranges_refuse h
  · exact ranges_refuse h
  · exact ranges_acceptVerify h
  · exact ranges_refuse h
theorem ranges_abortStream {p : Port} {tag : Byte} {b : Bay} (h : Ranges z s) : Ranges z (abortStream s p tag b) := by
  unfold abortStream
  split
  · exact ranges_modStream h
  · exact ranges_answer (ranges_closeStream h)
  · exact ranges_answer h
  · exact ranges_discardStream h
theorem ranges_abortBay {p : Port} {tag : Byte} {b : Bay} (h : Ranges z s) : Ranges z (abortBay s p tag b) :=
  ranges_ite (ranges_restoreAbort (ranges_modRestore h)) (ranges_ite (ranges_verifyAbort (ranges_modVerify h)) (ranges_abortStream h))
theorem ranges_closeLeftRestore {b : Bay} (h : Ranges z s) : Ranges z (closeLeftRestore s b) := by
  unfold closeLeftRestore
  split
  · exact ranges_answerRestore (ranges_setRestoreRuns h)
  · exact h
theorem ranges_closeLeftVerify {b : Bay} (h : Ranges z s) : Ranges z (closeLeftVerify s b) := by
  unfold closeLeftVerify
  split
  · exact ranges_answerVerify (ranges_setVerifyRuns h)
  · exact h

/-! ### PickerEvents -/

theorem ranges_homed (h : Ranges z s) : Ranges z (homed s) := by
  unfold homed
  split
  · exact ranges_ite (ranges_startCarry h) (ranges_recoveryDone h)
  · exact ranges_startFullAudit h
theorem ranges_mapPhases {f : Phase → Phase} (h : Ranges z s) : Ranges z (mapPhases s f) :=
  ranges_modPicker_of h fun _ hin => Picker.inRange_map hin (fun e => { e with phase := f e.phase }) (fun _ => rfl) (fun _ => rfl) _ rfl
      rfl
theorem ranges_stopPicker (h : Ranges z s) : Ranges z (stopPicker s) :=
  ranges_setCondition (ranges_modPicker (ranges_mapPhases (ranges_oweImport h)) rfl rfl)
theorem ranges_resumeMotion (h : Ranges z s) : Ranges z (resumeMotion s) :=
  ranges_modPicker_of (ranges_mapPhases h) fun k hin => by split <;> exact hin
theorem ranges_resumeMove (h : Ranges z s) : Ranges z (resumeMove s) :=
  ranges_ite (ranges_afterAudit (ranges_startMailAudit (ranges_resumeMotion h))) (ranges_resumeMotion h)
theorem ranges_restartPicker (h : Ranges z s) : Ranges z (restartPicker s) := by
  unfold restartPicker
  repeat' split
  · exact ranges_issueMotion (ranges_setCondition (ranges_modPicker h rfl rfl))
  · exact ranges_resumeMove (ranges_setCondition h)
  · exact ranges_resumeMove (ranges_modPicker (ranges_setCondition h) rfl rfl)
  · exact ranges_resumeMotion (ranges_setCondition h)
  · exact ranges_startFullAudit (ranges_modPicker h rfl rfl)
theorem ranges_mailUnknown {pea : Nat} (h : Ranges z s) : Ranges z (mailUnknown s pea) := ranges_setElem (ranges_displaceFrom h)

/-! ### DriveReplies -/

theorem ranges_threadedGood {b : Bay} {cls : Nat} {wp : Bool} (h : Ranges z s) : Ranges z (threadedGood s b cls wp) := by
  unfold threadedGood
  dsimp only
  split
  · exact ranges_completeMove (ranges_modDrive (ranges_modDriveVolume h))
  · exact ranges_modDrive (ranges_modDriveVolume h)
theorem ranges_threadedBad {b : Bay} (h : Ranges z s) : Ranges z (threadedBad s b) := ranges_modDrive h
theorem ranges_loadFailed {b : Bay} {f : Drive → Drive} (h : Ranges z s) : Ranges z (loadFailed s b f) :=
  ranges_threadFailed (ranges_modDrive (ranges_modDriveVolume h))
theorem ranges_unloadDone {b : Bay} (h : Ranges z s) : Ranges z (unloadDone s b) := by
  unfold unloadDone
  dsimp only
  split
  · exact ranges_unloadEjected (ranges_modDrive h)
  · exact ranges_modDrive h
theorem ranges_owedAtStart {b : Bay} (h : Ranges z s) : Ranges z (owedAtStart s b) := ranges_ite (ranges_markOwed h) h
theorem ranges_statusPresent {b : Bay} {l : Option Label} {threaded : Bool} {cls : Nat} {wp : Bool} (h : Ranges z s) :
    Ranges z (statusPresent s b l threaded cls wp) := by
  have h2 := fun f => ranges_owedAtStart (b := b) (ranges_modDrive (b := b) (f := f) (ranges_reconcile (pea := bayPea b) (read := l)
    (readDone := []) h))
  exact ranges_ite (ranges_modDriveVolume (h2 _)) (h2 _)
theorem ranges_statusAbsent {b : Bay} (h : Ranges z s) : Ranges z (statusAbsent s b) := ranges_modDrive (ranges_foundEmpty h)
theorem ranges_positionReported {b : Bay} {frame : Nat} (h : Ranges z s) : Ranges z (positionReported s b frame) :=
  ranges_ite (ranges_ite (ranges_openingEnds h) (ranges_openingDone h)) (ranges_verifyArrived (ranges_restoreArrived h))
theorem ranges_locateBlank {b : Bay} {a : Nat} (h : Ranges z s) : Ranges z (locateBlank s b a) :=
  ranges_ite (ranges_openingEnds h) (ranges_ite (ranges_takeEnding h) (ranges_verifyEnds h))
theorem ranges_readFailed {b : Bay} {block : Nat} (h : Ranges z s) : Ranges z (readFailed s b block) :=
  ranges_ite (ranges_restoreReadFailed h) (ranges_verifyReadFailed h)
theorem ranges_commitRecord {b : Bay} {f : Flight} {r : Rec} (h : Ranges z s) : Ranges z (commitRecord s b f r) := by
  unfold commitRecord
  exact ranges_modStream (ranges_releaseDesc (ranges_modDriveVolume h))
theorem ranges_commitTaken {b : Bay} {f : Flight} {later : List Flight} (h : Ranges z s) : Ranges z (commitTaken s b f later) := by
  unfold commitTaken
  dsimp only
  split
  · exact ranges_offerBlocks (ranges_testSyncs (ranges_testCommitNotice (ranges_commitRecord (ranges_modDrive h))))
  · exact ranges_modDrive h
theorem ranges_askGap {b : Bay} {r last : Nat} (h : Ranges z s) : Ranges z (askGap s b r last) :=
  ranges_ite (ranges_earlyWarning (ranges_modDrive h)) (ranges_mediumEnd h)
theorem ranges_faultTaken {b : Bay} {f : Flight} {later : List Flight} (h : Ranges z s) : Ranges z (faultTaken s b f later) :=
  ranges_ite (ranges_testSyncs (ranges_giveUpRecords (ranges_modDriveVolume (ranges_modStream (ranges_modDrive h))))) (ranges_ite
    (ranges_streamFault (ranges_modDriveVolume (ranges_modStream (ranges_modDrive h)))) (ranges_ite (ranges_mediumEnd
    (ranges_modDriveVolume (ranges_modStream (ranges_modDrive h)))) (ranges_askGap (ranges_modDriveVolume (ranges_modStream
    (ranges_modDrive h))))))
theorem ranges_gapTaken {b : Bay} (h : Ranges z s) : Ranges z (gapTaken s b) :=
  ranges_offerBlocks (ranges_modDriveVolume (ranges_modDrive h))
theorem ranges_dataTaken {b : Bay} {block : Nat} {h : TapeHeader} {stored : List Byte} (hz : Ranges z s) : Ranges z (dataTaken s b block
    h stored) :=
  ranges_ite (ranges_restoreData (ranges_modDrive hz)) (ranges_verifyData (ranges_modDrive hz))
theorem ranges_readFaulted {b : Bay} {block : Nat} (h : Ranges z s) : Ranges z (readFaulted s b block) :=
  ranges_readFailed (ranges_modDrive h)

/-! ### EngineEvents -/

theorem ranges_takeItem {i : Item} (h : Ranges z s) : Ranges z (takeItem s i) := ranges_modEngine h
theorem ranges_engineFree (h : Ranges z s) : Ranges z (engineFree s) := ranges_modEngine h
theorem ranges_shrinkDiscarded {b : Bay} {r : Rec} (h : Ranges z s) : Ranges z (shrinkDiscarded s b r) :=
  ranges_testSyncs (ranges_modStream (ranges_releaseDesc h))
theorem ranges_shrinkStored {b : Bay} {r : Rec} {x : Form × List Byte} (h : Ranges z s) : Ranges z (shrinkStored s b r x) :=
  ranges_offerBlocks (ranges_offerEngine (ranges_modStream (ranges_trimDesc (ranges_placeBytes h))))
theorem ranges_shrinkTaken {i : Item} {on : Bool} (h : Ranges z s) : Ranges z (shrinkTaken s i on) := by
  unfold shrinkTaken
  split
  · exact ranges_ite (ranges_shrinkDiscarded (ranges_engineFree h)) (ranges_shrinkStored (ranges_engineFree h))
  · exact ranges_releaseDesc (ranges_engineFree h)
theorem ranges_deliverGood {b : Bay} {e : Staged} {i : Item} {raw : List Byte} (h : Ranges z s) : Ranges z (deliverGood s b e i raw) :=
  ranges_restoreAdvance (ranges_modStaged (ranges_ite (ranges_onBuffer h) h))
theorem ranges_deliverFailed {b : Bay} {r : RestoreRun} {e : Staged} {i : Item} {code : ReplyCode} (h : Ranges z s) : Ranges z
    (deliverFailed s b r e i code) :=
  ranges_restoreAdvance (ranges_takeEnding (ranges_dropStaged (ranges_releaseDesc (ranges_reportFailure h))))
theorem ranges_deliverResult {i : Item} {x : List Byte × CheckResult} (h : Ranges z s) : Ranges z (deliverResult i x s) := by
  unfold deliverResult
  split
  · exact ranges_ite (ranges_deliverGood (ranges_engineFree h)) (ranges_deliverFailed (ranges_engineFree h))
  · exact ranges_releaseDesc (ranges_engineFree h)
theorem ranges_deliverTaken {i : Item} (h : Ranges z s) : Ranges z (deliverTaken s i) :=
  ranges_onRunOf h (fun _ hu => ranges_deliverResult hu)
theorem ranges_checkResult {i : Item} {res : CheckResult} (h : Ranges z s) : Ranges z (checkResult i res s) := by
  unfold checkResult
  repeat' split
  · exact ranges_releaseDesc h
  · exact ranges_verifyRelease h
  · exact ranges_verifyResult h
  · exact ranges_releaseDesc h
  · exact ranges_releaseDesc h
theorem ranges_verifyCheckTaken {i : Item} {res : CheckResult} (h : Ranges z s) : Ranges z (verifyCheckTaken s i res) :=
  ranges_onVerifyOf h (fun _ hu => ranges_checkResult hu)
theorem ranges_indexResolved {b : Bay} {r : RestoreRun} {x : IndexRead} {entry : Option Nat} (h : Ranges z s) : Ranges z (indexResolved s
    b r x entry) := by
  unfold indexResolved
  split
  · exact ranges_takeEnding h
  · exact ranges_ite (ranges_takeEnding h) (ranges_ite (ranges_takeEnding h) (ranges_restorePosition (ranges_modRestore h)))
theorem ranges_indexCheckTaken {i : Item} {res : CheckResult} {e : Nat} (h : Ranges z s) : Ranges z (indexCheckTaken s i res e) := by
  unfold indexCheckTaken
  repeat' split
  · exact ranges_indexResolved (ranges_releaseDesc (ranges_modRestore h))
  · exact ranges_takeEnding (ranges_reportFailure (ranges_releaseDesc (ranges_modRestore h)))
  · exact ranges_takeEnding (ranges_reportFailure (ranges_releaseDesc (ranges_modRestore h)))
  · exact ranges_releaseDesc h

/-! ### BufferEvents -/

theorem ranges_readIssued {b : Bay} {r : RestoreRun} {id : Option Nat} (h : Ranges z s) : Ranges z (readIssued s b r id) := by
  unfold readIssued
  dsimp only
  split
  · exact ranges_modDrive (ranges_modRestore (ranges_buffer h))
  · split
    · exact ranges_modDrive (ranges_modStaged (ranges_buffer h))
    · exact h
theorem ranges_reservationMet {b : Bay} {r : VerifyRun} (h : Ranges z s) : Ranges z (reservationMet s b r) := by
  unfold reservationMet
  exact ranges_modDrive (ranges_modVerify (ranges_onBuffer h))
theorem ranges_expandReady {b : Bay} {id : Option Nat} (h : Ranges z s) : Ranges z (expandReady b id s) :=
  ranges_restoreAdvance (ranges_modRestore h)
theorem inRange_freeTag {c : PortCtl} {tag : Byte} (h : c.inRange) : (c.freeTag tag).inRange := by
  refine ⟨by simpa [PortCtl.freeTag] using h.1, fun hd => ?_⟩
  obtain ⟨ht, hk, hf, hs⟩ := h.2 hd
  refine ⟨fun x => ?_, hk, hf, hs⟩
  have hx := ht x
  unfold PortCtl.tagKind PortCtl.freeTag at *
  dsimp only
  rw [List.getElem?_set]
  split
  · split <;> rfl
  · exact hx
theorem ranges_frameEnded {p : Port} {f : Frame} (h : Ranges z s) : Ranges z (frameEnded s p f) := by
  unfold frameEnded
  split
  · exact ranges_ite (ranges_modPort h fun _ hc => inRange_freeTag hc) h
  · exact h
  · exact ranges_onBuffer (ranges_onRunOf h fun _ ht => ranges_recordDelivered ht)
theorem ranges_idleCommit {p : Port} {b : Bay} (h : Ranges z s) : Ranges z (idleCommit s p b) := ranges_ite (ranges_commitNotice h) h
theorem ranges_idleReport {p : Port} (h : Ranges z s) : Ranges z (idleReport s p) :=
  ranges_idleCommit (ranges_idleCommit (ranges_onBuffer h))
end

end Sys2Proof.Machine
end

section
/-! PROOFS. Every step keeps the ports, the move queue and the scratch pointer in their ranges: one lemma for each command, from those of
    the
operations it is made of. -/

namespace Sys2Proof.Machine

/-- A meaning completes where the ranges are kept. -/
def Within (s : State) (r : Result) : Prop := ∃ t, r = .next t ∧ Ranges s t

section
variable {z s : State}

theorem within_next (h : Ranges z s) : Within z (.next s) := ⟨s, rfl, h⟩
theorem within_finish (h : Ranges z s) : Within z (finish s) := ⟨_, rfl, ranges_pump h⟩
theorem within_finishCredit (h : Ranges z s) : Within z (finishCredit s) := within_finish (ranges_onBuffer h)
theorem within_ite {c : Prop} [Decidable c] {x y : Result} (hx : Within z x) (hy : Within z y) : Within z (if c then x else y) := by
  split
  · exact hx
  · exact hy

/-- A request that each admission keeps within the ranges. -/
theorem within_admission {p : Port} {tag : Byte} {k : ReqKind} {f g : State → Result} (hk : Ranges z s)
    (hf : ∀ u, Ranges z u → Within z (f u)) (hg : ∀ u, Ranges z u → Within z (g u)) :
    Within z (match admission s p tag k with
      | .stopped t => f t
      | .taken t => g t) := by
  have ha := ranges_admission (p := p) (tag := tag) (k := k) hk
  split at ha
  · rename_i h; simpa only [h] using hf _ ha
  · rename_i h; simpa only [h] using hg _ ha

theorem within_request {p : Port} {tag : Byte} {k : ReqKind} {f : State → State} (h : Ranges z s)
    (hf : ∀ u, Ranges z u → Ranges z (f u)) : Within z (request s p tag k f) :=
  within_admission h (fun _ hu => within_finish hu) fun _ hu => within_finish (hf _ hu)
end

/-! ### What a move request's tests leave (R28, R33) -/

/-- A request that no test refuses meets each of them. -/
theorem not_refused_of_mem {tests : List (Bool × ReplyCode)} (h : firstRefusal tests = none) {bad : Bool} {code : ReplyCode}
    (hm : (bad, code) ∈ tests) : bad = false := by
  induction tests with
  | nil => exact absurd hm List.not_mem_nil
  | cons t rest ih =>
    unfold firstRefusal at h
    split at h
    · cases h
    · rename_i hb
      rcases List.mem_cons.mp hm with rfl | hm
      · exact Bool.eq_false_iff.mpr hb
      · exact ih h hm

theorem applySettings_picker (s : State) (new : Settings) : (applySettings s new).picker = s.picker := by
  unfold applySettings
  dsimp only
  split <;> rfl
theorem planned_picker (s : State) : s.planned.picker = s.picker := by
  unfold State.planned
  split
  · exact applySettings_picker _ _
  · rfl

/-- Test 4 passed: an entry of a port's move finds its place (R33). -/
theorem hasPlace_of_tests {s : State} {p : Port} {tag : Byte} {kind : MoveKind} {tests : List (Bool × ReplyCode)}
    (h : firstRefusal tests = none) (hm : noPlace s.planned p ∈ tests) (hk : kind ≠ .recover) :
    s.picker.hasPlace (.port p (some tag)) kind := by
  have hf := not_refused_of_mem h hm
  simp only [planned_picker, Bool.or_eq_false_iff, decide_eq_false_iff_not, Nat.not_le] at hf
  exact ⟨fun _ => hf.1, (fun hi => nomatch hi), fun hr => absurd hr hk⟩

/-! ### The scratch pointer (R19, R20) -/

theorem chooseScratch_lt {s : State} {k q : Nat} (h : chooseScratch s = some (k, q)) : k < (sharedSlots s).length := by
  have hm := List.mem_of_find?_eq_some h
  have hz : (k, q) ∈ (List.range (sharedSlots s).length).zip (sharedSlots s) := by
    rcases List.mem_append.mp hm with hm | hm
    · exact List.mem_of_mem_drop hm
    · exact List.mem_of_mem_take hm
  exact List.mem_range.mp (List.of_mem_zip hz).1

theorem scratchAfter_lt {s : State} {k : Nat} (h : k < (sharedSlots s).length) : scratchAfter s k < (sharedSlots s).length := by
  unfold scratchAfter
  split <;> omega

theorem sharedSlots_congr {s t : State} (hs : t.strap = s.strap) (hp : t.settings.partition = s.settings.partition) :
    sharedSlots t = sharedSlots s := by
  unfold sharedSlots Settings.assignment
  rw [hs, hp]

theorem pointerInRange_congr {s t : State} (hs : t.strap = s.strap) (hp : t.settings.partition = s.settings.partition)
    (hn : t.scratchPointer = s.scratchPointer) : t.pointerInRange ↔ s.pointerInRange := by
  rw [State.pointerInRange, State.pointerInRange, sharedSlots_congr hs hp, hn]

theorem applySettings_strap (s : State) (new : Settings) : (applySettings s new).strap = s.strap := by
  unfold applySettings
  dsimp only
  split <;> rfl
theorem planned_strap (s : State) : s.planned.strap = s.strap := by
  unfold State.planned
  split
  · exact applySettings_strap _ _
  · rfl

theorem pointerAfter_inRange {s : State} {k q : Nat} (h : chooseScratch s.planned = some (k, q)) (hs : s.pointerInRange) :
    State.pointerInRange { s with scratchPointer := pointerAfter s k } := by
  unfold pointerAfter
  split
  · rename_i hp
    have hk := chooseScratch_lt h
    rw [sharedSlots_congr (planned_strap s) hp] at hk
    exact ⟨fun _ => scratchAfter_lt hk, fun h0 => absurd (h0 : (sharedSlots s).length = 0) (Nat.ne_of_gt (Nat.zero_lt_of_lt hk))⟩
  · exact hs

theorem pointerInRange_moved {s t : State} {k q : Nat} (h : chooseScratch s.planned = some (k, q)) (hst : t.strap = s.strap)
    (hp : t.settings = s.settings) (hn : t.scratchPointer = s.scratchPointer) (ht : t.pointerInRange) :
    State.pointerInRange { t with scratchPointer := pointerAfter s k } := by
  have hp : t.settings.partition = s.settings.partition := by rw [hp]
  exact (pointerInRange_congr (s := { s with scratchPointer := pointerAfter s k }) (t := { t with scratchPointer := pointerAfter s k })
    hst hp rfl).mpr (pointerAfter_inRange h ((pointerInRange_congr hst hp hn).mp ht))

/-- What a scratch move's entry and its drive leave alone. -/
theorem takeDrive_acceptEntry_frame (s : State) (q : Requester) (kind : MoveKind) (src : Nat) (dst : Option Nat) (l : Option Label)
    (ph : Phase) (p : Port) (b : Option Bay) :
    (takeDrive (acceptEntry s q kind src dst l ph) p b).strap = s.strap
    ∧ (takeDrive (acceptEntry s q kind src dst l ph) p b).settings = s.settings
    ∧ (takeDrive (acceptEntry s q kind src dst l ph) p b).scratchPointer = s.scratchPointer := by
  unfold takeDrive acceptEntry
  cases dst <;> cases b <;> exact ⟨rfl, rfl, rfl⟩

section
variable {z s : State}

theorem ranges_takeConfigs {ws : List ConfigRequest} (h : Ranges z s) : Ranges z (takeConfigs s ws) := by
  induction ws generalizing s with
  | nil => exact ranges_configWaiting h
  | cons q ws ih =>
    unfold takeConfigs
    split
    · exact ih (ranges_answerHeld h)
    · split
      · exact ih (ranges_configDone h)
      · exact ranges_beginWrite h

/-- The mail slots set UNKNOWN by either report of the mail door. -/
theorem ranges_mailSlotsUnknown (isOpen due : Bool) (slots : List Nat) :
    Ranges s (slots.foldl mailUnknown { s with mailOpen := isOpen, picker := { s.picker with mailAuditDue := due } }) :=
  ranges_foldl ⟨rfl, id, id, id⟩ fun _ _ h => ranges_mailUnknown h
end


/-! ### The commands -/

section
variable {s : State}

theorem within_readAllocationComplete {b : Bay} : Within s (execReadAllocationComplete b s) := by
  unfold execReadAllocationComplete
  split
  · exact within_ite (within_finish (ranges_readIssued (.refl s))) (within_next (.refl s))
  · exact within_next (.refl s)
theorem within_expandAllocationComplete {b : Bay} : Within s (execExpandAllocationComplete b s) := by
  unfold execExpandAllocationComplete
  split
  · exact within_finish (ranges_onRunOf (ranges_buffer (.refl s)) (fun _ hu => ranges_expandReady hu))
  · exact within_next (.refl s)
theorem within_verifyReservationMet : Within s (execVerifyReservationMet s) := by
  unfold execVerifyReservationMet
  repeat' split
  · exact within_finish (ranges_reservationMet (.refl s))
  · exact within_next (.refl s)
  · exact within_next (.refl s)
  · exact within_next (.refl s)
theorem within_frameSent {p : Port} : Within s (execFrameSent p s) := by
  have h1 : Ranges s (s.modPort p fun c => { c with sending := none }) := ranges_modPort (.refl s) fun c hc => by
    obtain ⟨ht, hd⟩ := hc
    exact ⟨ht, fun hup => ⟨(hd hup).1, (hd hup).2.1, (hd hup).2.2.1, rfl⟩⟩
  unfold execFrameSent
  split
  · exact within_ite (within_finish (ranges_idleReport (ranges_frameEnded h1))) (within_finish (ranges_frameEnded h1))
  · exact within_next (.refl s)
theorem within_threaded {b : Bay} {cls : Nat} {wp : Bool} : Within s (execThreaded b cls wp s) :=
  within_ite (within_finish (ranges_ite (ranges_threadedGood (.refl s)) (ranges_threadedBad (.refl s)))) (within_next (.refl s))
theorem within_threadFault {b : Bay} : Within s (execThreadFault b s) :=
  within_ite (within_finish (ranges_loadFailed (.refl s))) (within_next (.refl s))
theorem within_ejected {b : Bay} : Within s (execEjected b s) := by
  unfold execEjected
  split
  · exact within_finish (ranges_unloadDone (.refl s))
  · exact within_finish (ranges_loadFailed (.refl s))
  · exact within_next (.refl s)
theorem within_status {b : Bay} {present : Bool} {label : Option Label} {threaded : Bool} {cls : Nat} {wp : Bool} : Within s (execStatus
    b present label threaded cls wp s) :=
  within_ite (within_finish (ranges_afterAudit (ranges_bayAnswered (ranges_ite (ranges_statusPresent (.refl s)) (ranges_statusAbsent
    (.refl s)))))) (within_next (.refl s))
theorem within_located {b : Bay} {block frame : Nat} : Within s (execLocated b block frame s) := by
  unfold execLocated
  split
  · exact within_ite (within_finishCredit (ranges_orderBroken (.refl s))) (within_finishCredit (ranges_positionReported (ranges_modDrive
      (.refl s))))
  · exact within_next (.refl s)
theorem within_blank {b : Bay} : Within s (execBlank b s) := by
  unfold execBlank
  split
  · exact within_finishCredit (ranges_locateBlank (ranges_modDrive (.refl s)))
  · exact within_finishCredit (ranges_readFailed (ranges_modDrive (.refl s)))
  · exact within_next (.refl s)
theorem within_committed {b : Bay} {block : Nat} : Within s (execCommitted b block s) := by
  unfold execCommitted
  split
  · exact within_finishCredit (ranges_commitTaken (.refl s))
  · exact within_finishCredit (ranges_orderBroken (.refl s))
  · exact within_next (.refl s)
theorem within_writeFault {b : Bay} {block : Nat} : Within s (execWriteFault b block s) := by
  unfold execWriteFault
  split
  · exact within_finishCredit (ranges_faultTaken (.refl s))
  · exact within_finishCredit (ranges_orderBroken (.refl s))
  · exact within_next (.refl s)
theorem within_gapDone {b : Bay} : Within s (execGapDone b s) :=
  within_ite (within_finishCredit (ranges_gapTaken (.refl s))) (within_next (.refl s))
theorem within_data {b : Bay} {block : Nat} {header : TapeHeader} {stored : List Byte} : Within s (execData b block header stored s) := by
  unfold execData
  split
  · exact within_ite (within_finishCredit (ranges_orderBroken (.refl s))) (within_ite (within_finishCredit (ranges_dataTaken (.refl s)))
      (within_finishCredit (ranges_readFaulted (.refl s))))
  · exact within_next (.refl s)
theorem within_readFault {b : Bay} {block : Nat} : Within s (execReadFault b block s) := by
  unfold execReadFault
  split
  · exact within_finishCredit (ranges_readFaulted (.refl s))
  · exact within_next (.refl s)
theorem within_fault {b : Bay} : Within s (execFault b s) :=
  within_ite (within_finishCredit (ranges_bayDown (.refl s))) (within_next (.refl s))
theorem within_replyTimerExpiry {b : Bay} : Within s (execReplyTimerExpiry b s) :=
  within_ite (within_finishCredit (ranges_bayDown (.refl s))) (within_next (.refl s))
theorem within_engineTakeItem : Within s (execEngineTakeItem s) := by
  unfold execEngineTakeItem
  dsimp only
  repeat' split
  · exact within_next (.refl s)
  · exact within_finish (ranges_offerDue (ranges_takeItem (ranges_offerDue (ranges_offerDue (.refl s)))))
  · exact within_next (.refl s)
theorem within_shrinkComplete : Within s (execShrinkComplete s) := by
  unfold execShrinkComplete
  repeat' split
  · exact within_finishCredit (ranges_shrinkTaken (.refl s))
  · exact within_next (.refl s)
  · exact within_next (.refl s)
theorem within_expandDeliverComplete : Within s (execExpandDeliverComplete s) := by
  unfold execExpandDeliverComplete
  split
  · exact within_ite (within_finishCredit (ranges_deliverTaken (.refl s))) (within_next (.refl s))
  · exact within_next (.refl s)
theorem within_expandCheckComplete : Within s (execExpandCheckComplete s) := by
  unfold execExpandCheckComplete
  repeat' split
  · exact within_finishCredit (ranges_verifyCheckTaken (ranges_engineFree (.refl s)))
  · exact within_finishCredit (ranges_indexCheckTaken (ranges_engineFree (.refl s)))
  · exact within_next (.refl s)
  · exact within_next (.refl s)
theorem within_linkUp {p : Port} : Within s (execLinkUp p s) :=
  within_ite (within_next (.refl s)) (within_finish (ranges_linkUp (.refl s)))
theorem within_linkDown {p : Port} : Within s (execLinkDown p s) :=
  within_ite (within_next (.refl s)) (within_ite (within_ite (within_finishCredit (ranges_holdExpiry (ranges_beginHold (ranges_linkLost
    (.refl s))))) (within_finishCredit (ranges_beginHold (ranges_linkLost (.refl s))))) (within_finishCredit (ranges_linkLost (.refl s))))
theorem within_linkReset {p : Port} : Within s (execLinkReset p s) :=
  within_ite (within_finish (ranges_linkUp (.refl s))) (within_finishCredit (ranges_linkUp (ranges_onBuffer (ranges_linkLost (.refl s)))))
theorem within_claimHoldTimerExpiry {p : Port} : Within s (execClaimHoldTimerExpiry p s) :=
  within_ite (within_finish (ranges_holdExpiry (.refl s))) (within_next (.refl s))
theorem within_unloadOwedMark {b : Bay} : Within s (execUnloadOwedMark b s) :=
  within_ite (within_finish (ranges_markOwed (.refl s))) (within_next (.refl s))
theorem within_owedUnloadQueued : Within s (execOwedUnloadQueued s) := within_finish (ranges_queueOwedUnloads (.refl s))
theorem within_move {p : Port} {tag form srcLea dstLea : Byte} {label : Label} : Within s (execMove p tag form srcLea dstLea label s) :=
    by
  refine within_request (.refl s) fun u hu => ?_
  split
  · exact ranges_refuse hu
  · refine ranges_decideMove hu fun ht => ranges_acceptEntry hu (hasPlace_of_tests ht ?_ (by decide))
    simp [moveTests]
theorem within_load {p : Port} {tag form srcLea dstLea : Byte} {label : Label} : Within s (execLoad p tag form srcLea dstLea label s) :=
    by
  refine within_request (.refl s) fun u hu => ?_
  split
  · exact ranges_refuse hu
  · refine ranges_decideMove hu fun ht => ranges_takeDrive (ranges_acceptEntry hu (hasPlace_of_tests ht ?_ (by decide)))
    simp [loadTests]
theorem within_loadScratch {p : Port} {tag driveLea : Byte} : Within s (execLoadScratch p tag driveLea s) := by
  refine within_request (.refl s) fun u hu => ranges_decideMove hu fun ht => ?_
  split
  · rename_i k q hk
    refine ranges_scratch (ranges_takeDrive (ranges_acceptEntry hu (hasPlace_of_tests ht ?_ (by decide)))) fun hn => ?_
    · simp [loadScratchTests]
    · obtain ⟨hst, hset, hptr⟩ := takeDrive_acceptEntry_frame u (.port p (some tag)) .scratchLoad q ((bayOfLea driveLea).map bayPea)
        (expectedAt u q) .queued p (bayOfLea driveLea)
      exact pointerInRange_moved hk hst hset hptr hn
  · exact hu
theorem within_unload {p : Port} {tag driveLea named dstLea : Byte} : Within s (execUnload p tag driveLea named dstLea s) := by
  refine within_request (.refl s) fun u hu => ranges_unlessReleased hu ?_
  split
  · exact ranges_refuse hu
  · refine ranges_decideMove hu fun ht => ranges_acceptEntry hu (hasPlace_of_tests ht ?_ (by decide))
    simp [unloadTests]
theorem within_audit {p : Port} {tag : Byte} : Within s (execAudit p tag s) :=
  within_request (.refl s) (fun _ hu => ranges_ite (ranges_refuse hu) (ranges_modPicker hu rfl rfl))
theorem within_recover {p : Port} {tag : Byte} {gripped : Bool} : Within s (execRecover p tag gripped s) := by
  refine within_request (.refl s) fun u hu => ranges_ite (ranges_refuse hu) ?_
  split
  · exact ranges_refuse hu
  · rename_i hn
    have hn : ∀ e ∈ u.picker.queue, e.kind ≠ .recover := by simpa using hn
    split
    · exact ranges_acceptRecover (ranges_nothingGripped hu) hn
    · split
      · exact ranges_acceptRecover hu hn
      · exact ranges_refuse hu
theorem within_fetchComplete {gripped : Bool} {label : Option Label} : Within s (execFetchComplete gripped label s) := by
  unfold execFetchComplete
  split
  · exact within_finish (ranges_fetchReported (ranges_motionReported (.refl s)))
  · exact within_finish (ranges_putBackReported (ranges_motionReported (.refl s)))
  · exact within_next (.refl s)
theorem within_carryComplete : Within s (execCarryComplete s) := by
  unfold execCarryComplete
  split
  · exact within_finish (ranges_startPlace (ranges_motionReported (.refl s)))
  · exact within_next (.refl s)
theorem within_placeComplete {obstructed : Bool} : Within s (execPlaceComplete obstructed s) := by
  unfold execPlaceComplete
  split
  · exact within_finish (ranges_placeReported (ranges_motionReported (.refl s)))
  · exact within_next (.refl s)
theorem within_homingComplete : Within s (execHomingComplete s) := by
  unfold execHomingComplete
  split
  · exact within_finish (ranges_homed (ranges_motionReported (.refl s)))
  · exact within_next (.refl s)
theorem within_auditSlotReading {reading : Reading} : Within s (execAuditSlotReading reading s) := by
  unfold execAuditSlotReading
  split
  · exact within_finish (ranges_afterAudit (ranges_auditNext (ranges_takeReading (ranges_motionReported (.refl s)))))
  · exact within_next (.refl s)
theorem within_motionTimerExpiry : Within s (execMotionTimerExpiry s) :=
  within_ite (within_finish (ranges_ite (ranges_disablePicker (.refl s)) (ranges_firstFault (.refl s)))) (within_next (.refl s))
theorem within_serviceDoorOpen : Within s (execServiceDoorOpen s) := by
  unfold execServiceDoorOpen
  split
  · exact within_finish (ranges_stopPicker (ranges_service (.refl s)))
  · exact within_finish (ranges_stopPicker (ranges_service (.refl s)))
  · exact within_finish (ranges_stopPicker (ranges_service (.refl s)))
  · exact within_next (ranges_service (.refl s))
  · exact within_next (ranges_service (.refl s))
  · exact within_next (ranges_service (.refl s))
theorem within_serviceDoorClosed : Within s (execServiceDoorClosed s) :=
  within_ite (within_finish (ranges_restartPicker (ranges_service (.refl s)))) (within_next (ranges_service (.refl s)))
theorem within_mailDoorOpen : Within s (execMailDoorOpen s) :=
  within_finish (ranges_mailSlotsUnknown true false _)
theorem within_mailDoorClosed : Within s (execMailDoorClosed s) := by
  have h := ranges_mailSlotsUnknown (s := s) false true (mailSlots s.strap)
  exact within_ite (within_finish (ranges_afterAudit (ranges_startMailAudit h))) (within_finish h)
theorem within_pickerTakeWork : Within s (execPickerTakeWork s) :=
  within_ite (within_finish (ranges_nextWork (.refl s))) (within_next (.refl s))
theorem within_releaseVolume {p : Port} {tag : Byte} {label : Label} : Within s (execReleaseVolume p tag label s) := by
  refine within_request (.refl s) fun u hu => ?_
  repeat' split
  · exact ranges_refuse hu
  · exact ranges_refuse hu
  · exact ranges_beginRelease hu
  · exact ranges_refuse hu
theorem within_reportElements {p : Port} {tag firstLea : Byte} {count : Half} : Within s (execReportElements p tag firstLea count s) :=
  within_request (.refl s) (fun _ hu => ranges_ite (ranges_refuse hu) (ranges_answer hu))
theorem within_reportVolumes {p : Port} {tag form : Byte} {label : Label} : Within s (execReportVolumes p tag form label s) := by
  refine within_request (.refl s) fun u hu => ?_
  repeat' split
  · exact ranges_answer hu
  · exact ranges_refuse hu
  · exact ranges_refuse hu
  · exact ranges_answer hu
  · exact ranges_refuse hu
theorem within_reportStatus {p : Port} {tag : Byte} : Within s (execReportStatus p tag s) :=
  within_request (.refl s) (fun _ hu => ranges_answer hu)
theorem within_reportSettings {p : Port} {tag : Byte} : Within s (execReportSettings p tag s) :=
  within_request (.refl s) (fun _ hu => ranges_answer hu)
theorem within_configure {p : Port} {tag : Byte} {entries : List SettingEntry} : Within s (execConfigure p tag entries s) :=
  within_request (.refl s) fun _ hu => ranges_ite (ranges_configWaiting hu) (ranges_takeConfigs hu)
theorem within_readRecords {p : Port} {tag bay form stop : Byte} {count : Half} {first k e : Word} : Within s (execReadRecords p tag bay
    form stop count first k e s) := by
  refine within_request (.refl s) fun u hu => ranges_unlessReleased hu ?_
  repeat' split
  · exact ranges_refuse hu
  · exact ranges_refuse hu
  · exact ranges_decideRead hu
theorem within_verify {p : Port} {tag bay form : Byte} {a n : Word} : Within s (execVerify p tag bay form a n s) := by
  refine within_request (.refl s) fun u hu => ranges_unlessReleased hu ?_
  repeat' split
  · exact ranges_refuse hu
  · exact ranges_refuse hu
  · exact ranges_decideVerify hu
theorem within_abort {p : Port} {tag bay : Byte} : Within s (execAbort p tag bay s) := by
  refine within_admission (.refl s) (fun _ hu => within_finish hu) fun _ hu => within_finishCredit ?_
  split
  · exact ranges_refuse hu
  · exact ranges_ite (ranges_refuse hu) (ranges_abortBay hu)
theorem within_restoreRunClose {b : Bay} : Within s (execRestoreRunClose b s) := by
  unfold execRestoreRunClose
  split
  · exact within_ite (within_finish (ranges_closeRestore (.refl s))) (within_finish (ranges_closeLeftRestore (.refl s)))
  · exact within_finish (ranges_closeLeftRestore (.refl s))
theorem within_verifyRunClose {b : Bay} : Within s (execVerifyRunClose b s) := by
  unfold execVerifyRunClose
  split
  · exact within_ite (within_finish (ranges_closeVerify (.refl s))) (within_finish (ranges_closeLeftVerify (.refl s)))
  · exact within_finish (ranges_closeLeftVerify (.refl s))
theorem within_unknownRequest {p : Port} {type kind tag : Byte} {body : List Byte} : Within s (execUnknownRequest p type kind tag body s)
    := by
  unfold execUnknownRequest
  repeat' split
  · exact within_next (.refl s)
  · exact within_request (.refl s) (fun _ hu => ranges_refuse hu)
  · exact within_finish (ranges_queueWriteRefused (.refl s))
  · exact within_finish (ranges_queueLooseBadRequest (.refl s))
theorem within_openStream {p : Port} {tag bay mode shrink : Byte} {n : Word} : Within s (execOpenStream p tag bay mode shrink n s) := by
  refine within_request (.refl s) fun u hu => ranges_unlessReleased hu ?_
  repeat' split
  · exact ranges_refuse hu
  · exact ranges_refuse hu
  · exact ranges_refuse hu
  · exact ranges_acceptOpen hu
  · exact ranges_refuse hu
theorem within_writeRecord {p : Port} {stream kind : Byte} {raw : List Byte} : Within s (execWriteRecord p stream kind raw s) := by
  unfold execWriteRecord
  refine within_ite (within_next (.refl s)) (within_ite (within_finish (ranges_queueWriteRefused (.refl s))) ?_)
  split
  · exact within_finish (ranges_queueWriteRefused (.refl s))
  · exact within_ite (within_finish (ranges_notOpenWrite (.refl s))) (within_ite (within_finish (ranges_haltWrite (.refl s)))
      (within_ite (within_finish (ranges_haltWrite (.refl s))) (within_finish (ranges_acceptRecord (.refl s)))))
theorem within_writeMark {p : Port} {stream : Byte} : Within s (execWriteMark p stream s) := by
  unfold execWriteMark
  refine within_ite (within_next (.refl s)) (within_ite (within_finish (ranges_queueWriteRefused (.refl s))) ?_)
  split
  · exact within_finish (ranges_queueWriteRefused (.refl s))
  · exact within_ite (within_finish (ranges_notOpenWrite (.refl s))) (within_ite (within_finish (ranges_haltWrite (.refl s)))
      (within_ite (within_finish (ranges_haltWrite (.refl s))) (within_finish (ranges_acceptMark (.refl s)))))
theorem within_resumeStream {p : Port} {tag stream : Byte} : Within s (execResumeStream p tag stream s) :=
  within_request (.refl s) (fun _ hu => ranges_onStream hu (fun _ => ranges_ite (ranges_offerEngine (ranges_modStream (ranges_answer
    hu))) (ranges_modStream (ranges_answer hu))))
theorem within_sync {p : Port} {tag stream : Byte} : Within s (execSync p tag stream s) := by
  refine within_request (.refl s) fun u hu => ranges_onStream hu fun b => ?_
  dsimp only
  split
  · exact ranges_answerSync hu
  · exact ranges_modStream hu
theorem within_closeStream {p : Port} {tag stream mode : Byte} : Within s (execCloseStream p tag stream mode s) := by
  refine within_admission (.refl s) (fun _ hu => within_finish hu) fun _ hu => within_finishCredit (ranges_onStream hu fun _ => ?_)
  exact ranges_ite (ranges_closeStream (ranges_modStream hu)) (ranges_ite (ranges_discardStream hu) (ranges_drainStream hu))
theorem within_commitLatencyTimerExpiry {b : Bay} : Within s (execCommitLatencyTimerExpiry b s) :=
  within_ite (within_next (.refl s)) (within_ite (within_finish (ranges_commitNotice (.refl s))) (within_finish (ranges_modStream (.refl
    s))))
theorem within_streamClose {b : Bay} : Within s (execStreamClose b s) :=
  within_ite (within_finish (ranges_closeStream (.refl s))) (within_next (.refl s))
theorem within_syncAnswered {b : Bay} : Within s (execSyncAnswered b s) := within_finish (ranges_testSyncs (.refl s))
end

/-- What a command that is no reset and no completion of a settings write keeps. -/
theorem exec_within {c : Instr} (s : State) (hr : ∀ x y u v, c ≠ .powerOn x y u v ∧ c ≠ .boardReset x y u v)
    (hw : c ≠ .settingsStoreWriteComplete) : Within s (exec c s) := by
  cases c with
  | powerOn x y u v => exact absurd rfl (hr x y u v).1
  | boardReset x y u v => exact absurd rfl (hr x y u v).2
  | linkUp => exact within_linkUp
  | linkDown => exact within_linkDown
  | linkReset => exact within_linkReset
  | move => exact within_move
  | load => exact within_load
  | loadScratch => exact within_loadScratch
  | unload => exact within_unload
  | audit => exact within_audit
  | recover => exact within_recover
  | releaseVolume => exact within_releaseVolume
  | reportElements => exact within_reportElements
  | reportVolumes => exact within_reportVolumes
  | reportStatus => exact within_reportStatus
  | reportSettings => exact within_reportSettings
  | configure => exact within_configure
  | settingsStoreWriteComplete => exact absurd rfl hw
  | openStream => exact within_openStream
  | writeRecord => exact within_writeRecord
  | writeMark => exact within_writeMark
  | resumeStream => exact within_resumeStream
  | sync => exact within_sync
  | closeStream => exact within_closeStream
  | readRecords => exact within_readRecords
  | verify => exact within_verify
  | abort => exact within_abort
  | unknownRequest => exact within_unknownRequest
  | fetchComplete => exact within_fetchComplete
  | carryComplete => exact within_carryComplete
  | placeComplete => exact within_placeComplete
  | homingComplete => exact within_homingComplete
  | auditSlotReading => exact within_auditSlotReading
  | motionTimerExpiry => exact within_motionTimerExpiry
  | serviceDoorOpen => exact within_serviceDoorOpen
  | serviceDoorClosed => exact within_serviceDoorClosed
  | mailDoorOpen => exact within_mailDoorOpen
  | mailDoorClosed => exact within_mailDoorClosed
  | pickerTakeWork => exact within_pickerTakeWork
  | owedUnloadQueued => exact within_owedUnloadQueued
  | threaded => exact within_threaded
  | threadFault => exact within_threadFault
  | ejected => exact within_ejected
  | status => exact within_status
  | located => exact within_located
  | blank => exact within_blank
  | committed => exact within_committed
  | writeFault => exact within_writeFault
  | gapDone => exact within_gapDone
  | data => exact within_data
  | readFault => exact within_readFault
  | fault => exact within_fault
  | replyTimerExpiry => exact within_replyTimerExpiry
  | shrinkComplete => exact within_shrinkComplete
  | expandDeliverComplete => exact within_expandDeliverComplete
  | expandCheckComplete => exact within_expandCheckComplete
  | engineTakeItem => exact within_engineTakeItem
  | readAllocationComplete => exact within_readAllocationComplete
  | expandAllocationComplete => exact within_expandAllocationComplete
  | verifyReservationMet => exact within_verifyReservationMet
  | frameSent => exact within_frameSent
  | commitLatencyTimerExpiry => exact within_commitLatencyTimerExpiry
  | claimHoldTimerExpiry => exact within_claimHoldTimerExpiry
  | unloadOwedMark => exact within_unloadOwedMark
  | streamClose => exact within_streamClose
  | syncAnswered => exact within_syncAnswered
  | restoreRunClose => exact within_restoreRunClose
  | verifyRunClose => exact within_verifyRunClose

/-! ### Resets, settings and ticks -/

theorem PortCtl.reset_inRange : PortCtl.reset.inRange := by
  refine ⟨rfl, fun _ => ⟨fun x => ?_, rfl, rfl, rfl⟩⟩
  simp only [PortCtl.tagKind, PortCtl.reset, List.getElem?_replicate]
  split <;> rfl

theorem Picker.inRange_of_empty {k : Picker} (hq : k.queue = []) (hn : k.nextMove = 0) : k.inRange := by
  simp [Picker.inRange, Picker.portEntries, Picker.internalEntries, hq, hn]

theorem resetPart_inRange (s : State) (l1 l0 x y : Bool) {n : Nat}
    (hn : State.pointerInRange { resetPart s l1 l0 x y with scratchPointer := n }) :
    State.inRange { resetPart s l1 l0 x y with scratchPointer := n } := by
  refine ⟨fun p => ?_, Picker.inRange_of_empty rfl rfl, hn⟩
  cases p <;> exact PortCtl.reset_inRange

theorem keptPointer_inRange (s t : State) : State.pointerInRange { t with scratchPointer := keptPointer s t } := by
  refine ⟨fun h => ?_, fun h => ?_⟩
  · show keptPointer s t < (sharedSlots t).length
    unfold keptPointer
    split
    · assumption
    · exact h
  · show keptPointer s t = 0
    have h : (sharedSlots t).length = 0 := h
    simp [keptPointer, h]

theorem powerOn_inRange (s : State) (l1 l0 x y : Bool) : (resetPart s l1 l0 x y).inRange :=
  resetPart_inRange s l1 l0 x y (n := 0) ⟨id, fun _ => rfl⟩

theorem boardReset_inRange {s t : State} {l1 l0 x y : Bool} (h : execBoardReset l1 l0 x y s = .next t) : t.inRange := by
  have hin := resetPart_inRange s l1 l0 x y (keptPointer_inRange s _)
  rw [← Host.Outcome.next.inj h]
  split
  · obtain ⟨hp, -, hn⟩ := hin
    exact ⟨hp, Picker.inRange_of_empty rfl rfl, hn⟩
  · exact hin

/-- The new values in effect: a changed map sets the pointer to 0 (R4). -/
theorem applySettings_inRange {s : State} (new : Settings) (h : s.inRange) : (applySettings s new).inRange := by
  obtain ⟨hp, hk, hn⟩ := h
  unfold applySettings
  dsimp only
  split
  · exact ⟨hp, hk, id, fun _ => rfl⟩
  · rename_i hsame
    exact ⟨hp, hk, (pointerInRange_congr (s := s) (t := { s with store := { s.store with settings := new } }) rfl
      (not_not.mp hsame) rfl).mpr hn⟩

theorem configWritten_inRange {s : State} (q : ConfigRequest) (h : s.inRange) : (configWritten s q).inRange := by
  have h2 := applySettings_inRange (s.settings.with q.entries)
    ((ranges_onBuffer (f := fun v b => b.landMoved v (s.settings.with q.entries)) (.refl s)).inRange h)
  unfold configWritten
  extract_lets new s1 sNew s2 s3
  have h12 : Ranges sNew s2 := (Ranges.refl _).of_eq rfl rfl rfl rfl rfl
  have h23 : Ranges s2 s3 := by
    unfold s3
    exact ranges_onBuffer (ranges_configDone (.refl s2))
  exact (ranges_takeConfigs (h12.trans h23)).inRange h2

theorem settingsStoreWriteComplete_inRange {s t : State} (h : execSettingsStoreWriteComplete s = .next t) (hs : s.inRange) : t.inRange :=
    by
  unfold execSettingsStoreWriteComplete at h
  split at h
  · exact Host.Outcome.next.inj h ▸ (ranges_pump (ranges_releaseWritten (.refl s))).inRange hs
  · exact Host.Outcome.next.inj h ▸ (ranges_pump (.refl _)).inRange (configWritten_inRange _ hs)
  · exact Host.Outcome.next.inj h ▸ hs

theorem tick_inRange {s : State} (h : s.inRange) : (tick s).inRange := by
  obtain ⟨hp, hk, hn⟩ := h
  refine ⟨fun p => ?_, hk, hn⟩
  have := hp p
  cases p <;> exact inRange_of_same this rfl rfl rfl rfl rfl

theorem exec_inRange {c : Instr} {s t : State} (hs : s.inRange) (hx : exec c s = .next t) : t.inRange := by
  by_cases hw : c = .settingsStoreWriteComplete
  · subst hw
    exact settingsStoreWriteComplete_inRange hx hs
  by_cases hp : ∃ x y u v, c = .powerOn x y u v
  · obtain ⟨x, y, u, v, rfl⟩ := hp
    cases hx
    exact powerOn_inRange s x y u v
  by_cases hb : ∃ x y u v, c = .boardReset x y u v
  · obtain ⟨x, y, u, v, rfl⟩ := hb
    exact boardReset_inRange hx
  · obtain ⟨u, hu, hr⟩ := exec_within s (fun x y u v => ⟨fun h => hp ⟨x, y, u, v, h⟩, fun h => hb ⟨x, y, u, v, h⟩⟩) hw
    cases hu.symm.trans hx
    exact hr.inRange hs

/-- Settles O8: a tick changes timers alone, and each command keeps the ranges or, at a reset or a new partition map, sets them anew. -/
theorem rangesKept : Obligations.RangesKept := by
  intro s t hs hstep
  rcases step_cases hstep with ⟨-, rfl⟩ | ⟨c, rest, -, hx⟩
  · exact tick_inRange hs
  · obtain ⟨hp, hk, hn⟩ := hs
    exact exec_inRange (s := { s with pending := rest }) ⟨hp, hk, hn⟩ hx

end Sys2Proof.Machine
end

section
/-! PROOFS. What each command leaves alone: with the blocks it may change put back, the state is as it was. -/

namespace Sys2Proof.Machine

/-! ### States block by block -/

/-- The single fields, one by one. -/
theorem side_fields {s t : State} (h : t.side = s.side) : t.strap = s.strap ∧ t.serviceOpen = s.serviceOpen ∧ t.mailOpen = s.mailOpen
    ∧ t.storeWrite = s.storeWrite ∧ t.configWaiting = s.configWaiting ∧ t.releaseWrites = s.releaseWrites
    ∧ t.scratchPointer = s.scratchPointer ∧ t.freeReads = s.freeReads ∧ t.pending = s.pending := by
  simpa only [State.side, Prod.mk.injEq] using h

/-- States that agree in every block are the same. -/
theorem eq_of_blocks {s t : State} (hside : t.side = s.side) (hstore : t.store = s.store) (helements : t.elements = s.elements)
    (hpicker : t.picker = s.picker) (hdrives : t.drives = s.drives) (hbuffer : t.buffer = s.buffer) (hstreams : t.streams = s.streams)
    (hengine : t.engine = s.engine) (hrestores : t.restores = s.restores) (hverifies : t.verifies = s.verifies)
    (hports : t.ports = s.ports) : t = s := by
  obtain ⟨h1, h2, h3, h4, h5, h6, h7, h8, h9⟩ := side_fields hside
  cases s
  cases t
  simp only [State.mk.injEq]
  exact ⟨h1, h2, h3, hstore, h4, h5, h6, helements, h7, hpicker, hdrives, hbuffer, hstreams, hengine, hrestores, hverifies, hports, h8,
      h9⟩

theorem eq_exceptPorts {s t : State} (h : t.exceptPorts s = s) : t = s.exceptPorts t := by
  rw [← h]
  rfl

theorem eq_iff_blocks {s t : State} : t = s ↔ t.side = s.side ∧ t.store = s.store ∧ t.elements = s.elements ∧ t.picker = s.picker
    ∧ t.drives = s.drives ∧ t.buffer = s.buffer ∧ t.streams = s.streams ∧ t.engine = s.engine ∧ t.restores = s.restores
    ∧ t.verifies = s.verifies ∧ t.ports = s.ports := by
  refine ⟨?_, fun ⟨h1, h2, h3, h4, h5, h6, h7, h8, h9, h10, h11⟩ => eq_of_blocks h1 h2 h3 h4 h5 h6 h7 h8 h9 h10 h11⟩
  rintro rfl
  simp

/-- Whatever a meaning comes to, with the blocks of the command put back it is s. -/
def Leaves (c : Instr) (s : State) (r : Result) : Prop := ∀ t, r = .next t → putBack c s t = s

section
variable {c : Instr} {s u : State}

theorem leaves_of_next (h : putBack c s u = s) : Leaves c s (.next u) := by
  intro t ht
  cases ht
  exact h
theorem leaves_next (h0 : putBack c s s = s) : Leaves c s (.next s) := leaves_of_next h0
theorem leaves_finish (hp : ∀ u v : State, putBack c s (u.exceptPorts v) = putBack c s u) (h : putBack c s u = s) :
    Leaves c s (finish u) := by
  refine leaves_of_next ?_
  have hu : (pump u).exceptPorts u = u := exceptPorts_pump u u
  rw [← hp (pump u) u, hu, h]
theorem leaves_finishCredit (hp : ∀ u v : State, putBack c s (u.exceptPorts v) = putBack c s u)
    (h : putBack c s (onBuffer u settle) = s) : Leaves c s (finishCredit u) := leaves_finish hp h
theorem leaves_ite {q : Prop} [Decidable q] {x y : Result} (hx : Leaves c s x) (hy : Leaves c s y) : Leaves c s (if q then x else y) := by
  split
  · exact hx
  · exact hy
theorem leaves_request {p : Port} {tag : Byte} {k : ReqKind} {f : State → State}
    (hp : ∀ u v : State, putBack c s (u.exceptPorts v) = putBack c s u) (h0 : putBack c s s = s)
    (h : ∀ u, u = openTag s p tag k → putBack c s (f u) = s) : Leaves c s (request s p tag k f) := by
  intro t ht
  rcases request_cases ht with hs | rfl
  · exact (congrArg (putBack c s) (eq_exceptPorts hs)).trans ((hp _ _).trans h0)
  · exact leaves_finish hp (h _ rfl) _ rfl
end

@[simp] theorem frame_openTag (s : State) (p : Port) (tag : Byte) (k : ReqKind) :
    (openTag s p tag k).side = s.side ∧ (openTag s p tag k).store = s.store ∧ (openTag s p tag k).elements = s.elements ∧
    (openTag s p tag k).picker = s.picker ∧ (openTag s p tag k).drives = s.drives ∧ (openTag s p tag k).buffer = s.buffer ∧
    (openTag s p tag k).streams = s.streams ∧ (openTag s p tag k).engine = s.engine ∧ (openTag s p tag k).restores = s.restores ∧
    (openTag s p tag k).verifies = s.verifies := by
  simp [openTag]

/-! ### Frames that the commands need beside those of the operations -/

@[simp] theorem frame_frameEnded (s : State) (p : Port) (f : Frame) :
    (frameEnded s p f).side = s.side ∧ (frameEnded s p f).store = s.store ∧ (frameEnded s p f).elements = s.elements ∧
    (frameEnded s p f).picker = s.picker ∧ (frameEnded s p f).streams = s.streams ∧ (frameEnded s p f).verifies = s.verifies := by
  unfold frameEnded
  split <;> simp

@[simp] theorem frame_closeLeftRestore (s : State) (b : Bay) :
    (closeLeftRestore s b).side = s.side ∧ (closeLeftRestore s b).store = s.store ∧ (closeLeftRestore s b).elements = s.elements ∧
    (closeLeftRestore s b).picker = s.picker ∧ (closeLeftRestore s b).drives = s.drives ∧ (closeLeftRestore s b).buffer = s.buffer ∧
    (closeLeftRestore s b).streams = s.streams ∧ (closeLeftRestore s b).engine = s.engine ∧
    (closeLeftRestore s b).verifies = s.verifies := by
  unfold closeLeftRestore
  split <;> simp

@[simp] theorem frame_closeLeftVerify (s : State) (b : Bay) :
    (closeLeftVerify s b).side = s.side ∧ (closeLeftVerify s b).store = s.store ∧ (closeLeftVerify s b).elements = s.elements ∧
    (closeLeftVerify s b).picker = s.picker ∧ (closeLeftVerify s b).drives = s.drives ∧ (closeLeftVerify s b).buffer = s.buffer ∧
    (closeLeftVerify s b).streams = s.streams ∧ (closeLeftVerify s b).engine = s.engine ∧
    (closeLeftVerify s b).restores = s.restores := by
  unfold closeLeftVerify
  split <;> simp

/-- A link lost leaves every single field alone but the CONFIGUREs and releases of its port, whose tags it drops (R171). -/
theorem linkLost_fields (s : State) (p : Port) : (linkLost s p).strap = s.strap ∧ (linkLost s p).serviceOpen = s.serviceOpen
    ∧ (linkLost s p).mailOpen = s.mailOpen ∧ (linkLost s p).scratchPointer = s.scratchPointer ∧ (linkLost s p).freeReads = s.freeReads
    ∧ (linkLost s p).pending = s.pending ∧ (linkLost s p).store = s.store := by
  have h : (linkLost s p).side = (s.strap, s.serviceOpen, s.mailOpen, s.storeWrite.map (ConfigRequest.untag p),
      s.configWaiting.map (ConfigRequest.untag p), s.releaseWrites.map (ReleaseWrite.untag p), s.scratchPointer, s.freeReads, s.pending)
      ∧ (linkLost s p).store = s.store := by simp [linkLost]
  obtain ⟨hside, hstore⟩ := h
  simp only [State.side, Prod.mk.injEq] at hside
  obtain ⟨h1, h2, h3, -, -, -, h4, h5, h6⟩ := hside
  exact ⟨h1, h2, h3, h4, h5, h6, hstore⟩

/-- What LINK_DOWN and LINK_RESET put back leaves the pins, the store and the queue outside the part to be shown as they were. -/
theorem putBack_linkDown_of {c : Instr} {s u : State} (p : Port) (hc : c = .linkDown p ∨ c = .linkReset p) (h : u.strap = s.strap ∧
    u.serviceOpen = s.serviceOpen ∧ u.mailOpen = s.mailOpen
    ∧ u.scratchPointer = s.scratchPointer ∧ u.freeReads = s.freeReads ∧ u.pending = s.pending ∧ u.store = s.store) :
    putBack c s u = s := by
  rcases hc with rfl | rfl
  · simp [putBack, h]
  · simp [putBack, h]

/-- The same of whatever follows a link loss in the step. -/
theorem putBack_linkLost {c : Instr} {s u : State} (p : Port) (hc : c = .linkDown p ∨ c = .linkReset p) (hside : u.side = (linkLost s
    p).side) (hstore : u.store = (linkLost s p).store) : putBack c s u = s := by
  obtain ⟨h1, h2, h3, h4, h5, h6, h7⟩ := linkLost_fields s p
  obtain ⟨g1, g2, g3, -, -, -, g4, g5, g6⟩ := side_fields hside
  exact putBack_linkDown_of p hc ⟨g1.trans h1, g2.trans h2, g3.trans h3, g4.trans h4, g5.trans h5, g6.trans h6, hstore.trans h7⟩

theorem putBack_loadScratch_of {s u : State} {p : Port} {tag lea : Byte} (h : u.strap = s.strap ∧ u.serviceOpen = s.serviceOpen
    ∧ u.mailOpen = s.mailOpen ∧ u.storeWrite = s.storeWrite ∧ u.configWaiting = s.configWaiting ∧ u.releaseWrites = s.releaseWrites
    ∧ u.freeReads = s.freeReads ∧ u.pending = s.pending ∧ u.store = s.store ∧ u.buffer = s.buffer ∧ u.streams = s.streams
    ∧ u.engine = s.engine ∧ u.restores = s.restores ∧ u.verifies = s.verifies) : putBack (.loadScratch p tag lea) s u = s := by
  simp [putBack, h]

theorem putBack_mailDoorClosed_of {s u : State} (hside : u.side = State.side { s with mailOpen := false }) (h : u.buffer = s.buffer
    ∧ u.streams = s.streams ∧ u.engine = s.engine ∧ u.restores = s.restores ∧ u.verifies = s.verifies) :
    putBack .mailDoorClosed s u = s := by
  obtain ⟨h1, h2, -, h4, h5, h6, h7, h8, h9⟩ := side_fields hside
  simp [putBack, h, h1, h2, h4, h5, h6, h7, h8, h9]

theorem putBack_releaseVolume_of {s u : State} {p : Port} {tag : Byte} {l : Label} (h : u.strap = s.strap ∧ u.serviceOpen = s.serviceOpen
    ∧ u.mailOpen = s.mailOpen ∧ u.storeWrite = s.storeWrite ∧ u.configWaiting = s.configWaiting ∧ u.scratchPointer = s.scratchPointer
    ∧ u.freeReads = s.freeReads ∧ u.pending = s.pending ∧ u.picker = s.picker ∧ u.drives = s.drives ∧ u.buffer = s.buffer
    ∧ u.streams = s.streams ∧ u.engine = s.engine ∧ u.restores = s.restores ∧ u.verifies = s.verifies) :
    putBack (.releaseVolume p tag l) s u = s := by
  simp [putBack, h]

theorem putBack_releaseVolume_refused {s : State} {p : Port} {tag : Byte} {l : Label} (code : ReplyCode) :
    putBack (.releaseVolume p tag l) s (refuse (openTag s p tag .releaseVolume) p tag .releaseVolume code) = s :=
  putBack_releaseVolume_of ⟨rfl, rfl, rfl, rfl, rfl, rfl, rfl, rfl, rfl, rfl, rfl, rfl, rfl, rfl, rfl⟩

/-! ### The CONFIGUREs taken -/

theorem answerHeld_eq (s : State) (p : Port) (tag : Option Byte) (k : ReqKind) (code : ReplyCode) (body : ReplyBody) (x : Bool) :
    answerHeld s p tag k code body x = s.exceptPorts (answerHeld s p tag k code body x) := by
  unfold answerHeld
  split <;> rfl

/-- Testing what waits changes its queue, the write in the store, what is set aside of the buffer, and the replies. -/
theorem takeConfigs_eq (s : State) (ws : List ConfigRequest) :
    takeConfigs s ws = { s with storeWrite := (takeConfigs s ws).storeWrite, configWaiting := (takeConfigs s ws).configWaiting,
                                buffer := (takeConfigs s ws).buffer, ports := (takeConfigs s ws).ports } := by
  induction ws generalizing s with
  | nil => rfl
  | cons q ws ih =>
    unfold takeConfigs
    split
    · rw [ih, answerHeld_eq]
      rfl
    · split
      · rw [ih, configDone, answerHeld_eq]
        rfl
      · rfl

theorem putBack_takeConfigs {c : Instr} {s t : State} (ws : List ConfigRequest) (hc : ∀ u v : State, putBack c s
    { u with storeWrite := v.storeWrite, configWaiting := v.configWaiting, buffer := v.buffer, ports := v.ports } = putBack c s u)
    (h : putBack c s t = s) : putBack c s (takeConfigs t ws) = s := by
  rw [takeConfigs_eq, hc, h]

theorem applySettings_fields (s : State) (new : Settings) : (applySettings s new).strap = s.strap
    ∧ (applySettings s new).serviceOpen = s.serviceOpen ∧ (applySettings s new).mailOpen = s.mailOpen
    ∧ (applySettings s new).freeReads = s.freeReads ∧ (applySettings s new).pending = s.pending
    ∧ (applySettings s new).picker = s.picker ∧ (applySettings s new).drives = s.drives ∧ (applySettings s new).streams = s.streams
    ∧ (applySettings s new).engine = s.engine ∧ (applySettings s new).restores = s.restores
    ∧ (applySettings s new).verifies = s.verifies := by
  unfold applySettings
  dsimp only
  split <;> exact ⟨rfl, rfl, rfl, rfl, rfl, rfl, rfl, rfl, rfl, rfl, rfl⟩

theorem putBack_configWritten (s : State) (q : ConfigRequest) : putBack .settingsStoreWriteComplete s (configWritten s q) = s := by
  unfold configWritten
  extract_lets new s1 sNew s2 s3
  refine putBack_takeConfigs _ (fun _ _ => rfl) ?_
  have h23 : s3.side = s2.side ∧ s3.picker = s2.picker ∧ s3.drives = s2.drives ∧ s3.streams = s2.streams ∧ s3.engine = s2.engine
      ∧ s3.restores = s2.restores ∧ s3.verifies = s2.verifies := by
    unfold s3
    simp
  have h01 : s1.side = s.side ∧ s1.picker = s.picker ∧ s1.drives = s.drives ∧ s1.streams = s.streams ∧ s1.engine = s.engine
      ∧ s1.restores = s.restores ∧ s1.verifies = s.verifies := by
    unfold s1
    simp
  obtain ⟨hside, h3⟩ := h23
  obtain ⟨g1, g2, g3, -, -, -, -, g8, g9⟩ := side_fields hside
  obtain ⟨hside1, h1⟩ := h01
  obtain ⟨f1, f2, f3, -, -, -, -, f8, f9⟩ := side_fields hside1
  have hA := applySettings_fields s1 new
  simp [putBack, g1, g2, g3, g8, g9, h3, s2, sNew, hA, f1, f2, f3, f8, f9, h1]

theorem putBack_releaseWritten (s : State) (r : ReleaseWrite) (rest : List ReleaseWrite) :
    putBack .settingsStoreWriteComplete s (releaseWritten s r rest) = s := by
  rw [releaseWritten, answerHeld_eq]
  rfl

/-- The mail slots set UNKNOWN change the tables alone. -/
theorem mailSlotsUnknown_frame (s : State) (slots : List Nat) :
    (slots.foldl mailUnknown s).side = s.side ∧ (slots.foldl mailUnknown s).picker = s.picker
    ∧ (slots.foldl mailUnknown s).drives = s.drives ∧ (slots.foldl mailUnknown s).buffer = s.buffer
    ∧ (slots.foldl mailUnknown s).streams = s.streams ∧ (slots.foldl mailUnknown s).engine = s.engine
    ∧ (slots.foldl mailUnknown s).restores = s.restores ∧ (slots.foldl mailUnknown s).verifies = s.verifies := by
  simp

theorem putBack_ite {c : Instr} {s t u : State} {q : Prop} [Decidable q] (ht : putBack c s t = s) (hu : putBack c s u = s) :
    putBack c s (if q then t else u) = s := by
  split
  · exact ht
  · exact hu

theorem putBack_unlessReleased {c : Instr} {s t : State} {p : Port} {tag : Byte} {k : ReqKind} {b : Option Bay} {f : State → State}
    (hr : putBack c s (refuse t p tag k .driveBusy) = s) (hf : putBack c s (f t) = s) :
    putBack c s (unlessReleased t p tag k b f) = s := by
  unfold unlessReleased
  split
  · exact putBack_ite hr hf
  · exact hf

theorem putBack_decideMove {c : Instr} {s t u : State} {p : Port} {tag : Byte} {k : ReqKind} {tests : List (Bool × ReplyCode)}
    (hr : ∀ code, putBack c s (refuse t p tag k code) = s) (hu : putBack c s u = s) : putBack c s (decideMove t p tag k tests u) = s := by
  unfold decideMove
  split
  · exact hr _
  · exact hu

theorem putBack_onStream {c : Instr} {s t : State} {p : Port} {tag : Byte} {k : ReqKind} {stream : Byte} {bad : Bool}
    {f : State → Bay → State} (hr : ∀ code, putBack c s (refuse t p tag k code) = s) (hf : ∀ b, putBack c s (f t b) = s) :
    putBack c s (onStream t p tag k stream bad f) = s := by
  unfold onStream
  split
  · exact hr _
  · exact putBack_ite (hr _) (putBack_ite (hf _) (hr _))

theorem leaves_admission {c : Instr} {s : State} {p : Port} {tag : Byte} {k : ReqKind} {g : State → Result}
    (hp : ∀ u v : State, putBack c s (u.exceptPorts v) = putBack c s u) (h0 : putBack c s s = s)
    (h : ∀ u, u = openTag s p tag k → Leaves c s (g u)) :
    Leaves c s (match admission s p tag k with
      | .stopped t => finish t
      | .taken t => g t) := by
  split
  · rename_i t ht
    refine leaves_finish hp ?_
    exact (congrArg (putBack c s) (eq_exceptPorts (admission_stopped ht))).trans ((hp _ _).trans h0)
  · rename_i t ht
    exact h t (admission_open ht)

/-! ### The commands -/

section
variable {s : State}

theorem leaves_readAllocationComplete {b : Bay} : Leaves (.readAllocationComplete b) s (execReadAllocationComplete b s) := by
  unfold execReadAllocationComplete
  split
  · exact leaves_ite (leaves_finish (fun _ _ => rfl) (by simp [eq_iff_blocks, putBack])) (leaves_next rfl)
  · exact leaves_next rfl
theorem leaves_expandAllocationComplete {b : Bay} : Leaves (.expandAllocationComplete b) s (execExpandAllocationComplete b s) := by
  unfold execExpandAllocationComplete
  split
  · exact leaves_finish (fun _ _ => rfl) (by simp [eq_iff_blocks, putBack])
  · exact leaves_next rfl
theorem leaves_verifyReservationMet : Leaves .verifyReservationMet s (execVerifyReservationMet s) := by
  unfold execVerifyReservationMet
  repeat' split
  · exact leaves_finish (fun _ _ => rfl) (by simp [eq_iff_blocks, putBack])
  · exact leaves_next rfl
  · exact leaves_next rfl
  · exact leaves_next rfl
theorem leaves_frameSent {p : Port} : Leaves (.frameSent p) s (execFrameSent p s) := by
  unfold execFrameSent
  split
  · exact leaves_ite (leaves_finish (fun _ _ => rfl) (by simp [eq_iff_blocks, putBack]))
      (leaves_finish (fun _ _ => rfl) (by simp [eq_iff_blocks, putBack]))
  · exact leaves_next rfl
theorem leaves_threaded {b : Bay} {cls : Nat} {wp : Bool} : Leaves (.threaded b cls wp) s (execThreaded b cls wp s) :=
  leaves_ite (leaves_finish (fun _ _ => rfl) (putBack_ite (by simp [eq_iff_blocks, putBack]) (by simp [eq_iff_blocks, putBack])))
    (leaves_next rfl)
theorem leaves_threadFault {b : Bay} : Leaves (.threadFault b) s (execThreadFault b s) :=
  leaves_ite (leaves_finish (fun _ _ => rfl) (by simp [eq_iff_blocks, putBack])) (leaves_next rfl)
theorem leaves_ejected {b : Bay} : Leaves (.ejected b) s (execEjected b s) := by
  unfold execEjected
  split
  · exact leaves_finish (fun _ _ => rfl) (by simp [eq_iff_blocks, putBack])
  · exact leaves_finish (fun _ _ => rfl) (by simp [eq_iff_blocks, putBack])
  · exact leaves_next rfl
theorem leaves_status {b : Bay} {present : Bool} {label : Option Label} {threaded : Bool} {cls : Nat} {wp : Bool} : Leaves (.status b
    present label threaded cls wp) s (execStatus b present label threaded cls wp s) :=
  leaves_ite (leaves_finish (fun _ _ => rfl) (by simp [eq_iff_blocks, putBack])) (leaves_next rfl)
theorem leaves_located {b : Bay} {block frame : Nat} : Leaves (.located b block frame) s (execLocated b block frame s) := by
  unfold execLocated
  split
  · exact leaves_ite (leaves_finishCredit (fun _ _ => rfl) (by simp [eq_iff_blocks, putBack])) (leaves_finishCredit (fun _ _ => rfl) (by
      simp [eq_iff_blocks, putBack]))
  · exact leaves_next rfl
theorem leaves_blank {b : Bay} : Leaves (.blank b) s (execBlank b s) := by
  unfold execBlank
  split
  · exact leaves_finishCredit (fun _ _ => rfl) (by simp [eq_iff_blocks, putBack])
  · exact leaves_finishCredit (fun _ _ => rfl) (by simp [eq_iff_blocks, putBack])
  · exact leaves_next rfl
theorem leaves_committed {b : Bay} {block : Nat} : Leaves (.committed b block) s (execCommitted b block s) := by
  unfold execCommitted
  split
  · exact leaves_finishCredit (fun _ _ => rfl) (by simp [eq_iff_blocks, putBack])
  · exact leaves_finishCredit (fun _ _ => rfl) (by simp [eq_iff_blocks, putBack])
  · exact leaves_next rfl
theorem leaves_writeFault {b : Bay} {block : Nat} : Leaves (.writeFault b block) s (execWriteFault b block s) := by
  unfold execWriteFault
  split
  · exact leaves_finishCredit (fun _ _ => rfl) (by simp [eq_iff_blocks, putBack])
  · exact leaves_finishCredit (fun _ _ => rfl) (by simp [eq_iff_blocks, putBack])
  · exact leaves_next rfl
theorem leaves_gapDone {b : Bay} : Leaves (.gapDone b) s (execGapDone b s) :=
  leaves_ite (leaves_finishCredit (fun _ _ => rfl) (by simp [eq_iff_blocks, putBack])) (leaves_next rfl)
theorem leaves_data {b : Bay} {block : Nat} {header : TapeHeader} {stored : List Byte} : Leaves (.data b block header stored) s (execData
    b block header stored s) := by
  unfold execData
  split
  · exact leaves_ite (leaves_finishCredit (fun _ _ => rfl) (by simp [eq_iff_blocks, putBack])) (leaves_ite (leaves_finishCredit (fun _ _
      => rfl) (by simp [eq_iff_blocks, putBack])) (leaves_finishCredit (fun _ _ => rfl) (by simp [eq_iff_blocks, putBack])))
  · exact leaves_next rfl
theorem leaves_readFault {b : Bay} {block : Nat} : Leaves (.readFault b block) s (execReadFault b block s) := by
  unfold execReadFault
  split
  · exact leaves_finishCredit (fun _ _ => rfl) (by simp [eq_iff_blocks, putBack])
  · exact leaves_next rfl
theorem leaves_fault {b : Bay} : Leaves (.fault b) s (execFault b s) :=
  leaves_ite (leaves_finishCredit (fun _ _ => rfl) (by simp [eq_iff_blocks, putBack])) (leaves_next rfl)
theorem leaves_replyTimerExpiry {b : Bay} : Leaves (.replyTimerExpiry b) s (execReplyTimerExpiry b s) :=
  leaves_ite (leaves_finishCredit (fun _ _ => rfl) (by simp [eq_iff_blocks, putBack])) (leaves_next rfl)
theorem leaves_engineTakeItem : Leaves .engineTakeItem s (execEngineTakeItem s) := by
  unfold execEngineTakeItem
  dsimp only
  repeat' split
  · exact leaves_next rfl
  · exact leaves_finish (fun _ _ => rfl) (by simp [eq_iff_blocks, putBack])
  · exact leaves_next rfl
theorem leaves_shrinkComplete : Leaves .shrinkComplete s (execShrinkComplete s) := by
  unfold execShrinkComplete
  repeat' split
  · exact leaves_finishCredit (fun _ _ => rfl) (by simp [eq_iff_blocks, putBack])
  · exact leaves_next rfl
  · exact leaves_next rfl
theorem leaves_expandDeliverComplete : Leaves .expandDeliverComplete s (execExpandDeliverComplete s) := by
  unfold execExpandDeliverComplete
  split
  · exact leaves_ite (leaves_finishCredit (fun _ _ => rfl) (by simp [eq_iff_blocks, putBack])) (leaves_next rfl)
  · exact leaves_next rfl
theorem leaves_expandCheckComplete : Leaves .expandCheckComplete s (execExpandCheckComplete s) := by
  unfold execExpandCheckComplete
  repeat' split
  · exact leaves_finishCredit (fun _ _ => rfl) (by simp [eq_iff_blocks, putBack])
  · exact leaves_finishCredit (fun _ _ => rfl) (by simp [eq_iff_blocks, putBack])
  · exact leaves_next rfl
  · exact leaves_next rfl
theorem leaves_linkUp {p : Port} : Leaves (.linkUp p) s (execLinkUp p s) :=
  leaves_ite (leaves_next rfl) (leaves_finish (fun _ _ => rfl) (by simp [eq_iff_blocks, putBack]))
theorem leaves_linkDown {p : Port} : Leaves (.linkDown p) s (execLinkDown p s) :=
  leaves_ite (leaves_next rfl) (leaves_ite
    (leaves_ite (leaves_finishCredit (fun _ _ => rfl) (putBack_linkLost p (.inl rfl) (by simp) (by simp)))
      (leaves_finishCredit (fun _ _ => rfl) (putBack_linkLost p (.inl rfl) (by simp) (by simp))))
    (leaves_finishCredit (fun _ _ => rfl) (putBack_linkLost p (.inl rfl) (by simp) (by simp))))
theorem leaves_linkReset {p : Port} : Leaves (.linkReset p) s (execLinkReset p s) := by
  obtain ⟨hside, hstore, -⟩ := frame_linkUp s p
  obtain ⟨h1, h2, h3, -, -, -, h4, h5, h6⟩ := side_fields hside
  exact leaves_ite (leaves_finish (fun _ _ => rfl) (putBack_linkDown_of p (.inr rfl) ⟨h1, h2, h3, h4, h5, h6, hstore⟩))
    (leaves_finishCredit (fun _ _ => rfl) (putBack_linkLost p (.inr rfl) (by simp) (by simp)))
theorem leaves_claimHoldTimerExpiry {p : Port} : Leaves (.claimHoldTimerExpiry p) s (execClaimHoldTimerExpiry p s) :=
  leaves_ite (leaves_finish (fun _ _ => rfl) (by simp [eq_iff_blocks, putBack])) (leaves_next rfl)
theorem leaves_unloadOwedMark {b : Bay} : Leaves (.unloadOwedMark b) s (execUnloadOwedMark b s) :=
  leaves_ite (leaves_finish (fun _ _ => rfl) (by simp [eq_iff_blocks, putBack])) (leaves_next rfl)
theorem leaves_owedUnloadQueued : Leaves .owedUnloadQueued s (execOwedUnloadQueued s) :=
  leaves_finish (fun _ _ => rfl) (by simp [eq_iff_blocks, putBack])
theorem leaves_move {p : Port} {tag form srcLea dstLea : Byte} {label : Label} : Leaves (.move p tag form srcLea dstLea label) s
    (execMove p tag form srcLea dstLea label s) := by
  refine leaves_request (fun _ _ => rfl) rfl fun u hu => ?_
  subst hu
  split
  · simp [eq_iff_blocks, putBack]
  · exact putBack_decideMove (by simp [eq_iff_blocks, putBack]) (by simp [eq_iff_blocks, putBack])
theorem leaves_load {p : Port} {tag form srcLea dstLea : Byte} {label : Label} : Leaves (.load p tag form srcLea dstLea label) s
    (execLoad p tag form srcLea dstLea label s) := by
  refine leaves_request (fun _ _ => rfl) rfl fun u hu => ?_
  subst hu
  split
  · simp [eq_iff_blocks, putBack]
  · exact putBack_decideMove (by simp [eq_iff_blocks, putBack]) (by simp [eq_iff_blocks, putBack])
theorem leaves_loadScratch {p : Port} {tag driveLea : Byte} : Leaves (.loadScratch p tag driveLea) s (execLoadScratch p tag driveLea s)
    := by
  refine leaves_request (fun _ _ => rfl) rfl fun u hu => putBack_decideMove (fun code => ?_) ?_
  · exact putBack_loadScratch_of (by subst hu; exact ⟨rfl, rfl, rfl, rfl, rfl, rfl, rfl, rfl, rfl, rfl, rfl, rfl, rfl, rfl⟩)
  · split
    · rename_i k q _
      have hside : (takeDrive (acceptEntry u (.port p (some tag)) .scratchLoad q ((bayOfLea driveLea).map bayPea) (expectedAt u q)
          .queued) p
        (bayOfLea driveLea)).side = s.side := by simp [hu]
      obtain ⟨h1, h2, h3, h4, h5, h6, -, h8, h9⟩ := side_fields hside
      exact putBack_loadScratch_of ⟨h1, h2, h3, h4, h5, h6, h8, h9, by simp [hu]⟩
    · exact putBack_loadScratch_of (by subst hu; exact ⟨rfl, rfl, rfl, rfl, rfl, rfl, rfl, rfl, rfl, rfl, rfl, rfl, rfl, rfl⟩)
theorem leaves_unload {p : Port} {tag driveLea named dstLea : Byte} : Leaves (.unload p tag driveLea named dstLea) s (execUnload p tag
    driveLea named dstLea s) := by
  refine leaves_request (fun _ _ => rfl) rfl fun u hu => ?_
  subst hu
  refine putBack_unlessReleased (by simp [eq_iff_blocks, putBack]) ?_
  split
  · simp [eq_iff_blocks, putBack]
  · exact putBack_decideMove (by simp [eq_iff_blocks, putBack]) (by simp [eq_iff_blocks, putBack])
theorem leaves_audit {p : Port} {tag : Byte} : Leaves (.audit p tag) s (execAudit p tag s) := by
  refine leaves_request (fun _ _ => rfl) rfl fun u hu => ?_
  subst hu
  repeat' split
  all_goals simp [eq_iff_blocks, putBack]
theorem leaves_recover {p : Port} {tag : Byte} {gripped : Bool} : Leaves (.recover p tag gripped) s (execRecover p tag gripped s) := by
  refine leaves_request (fun _ _ => rfl) rfl fun u hu => ?_
  subst hu
  repeat' split
  all_goals simp [eq_iff_blocks, putBack]
theorem leaves_fetchComplete {gripped : Bool} {label : Option Label} : Leaves (.fetchComplete gripped label) s (execFetchComplete gripped
    label s) := by
  unfold execFetchComplete
  split
  · exact leaves_finish (fun _ _ => rfl) (by simp [eq_iff_blocks, putBack])
  · exact leaves_finish (fun _ _ => rfl) (by simp [eq_iff_blocks, putBack])
  · exact leaves_next rfl
theorem leaves_carryComplete : Leaves .carryComplete s (execCarryComplete s) := by
  unfold execCarryComplete
  split
  · exact leaves_finish (fun _ _ => rfl) (by simp [eq_iff_blocks, putBack])
  · exact leaves_next rfl
theorem leaves_placeComplete {obstructed : Bool} : Leaves (.placeComplete obstructed) s (execPlaceComplete obstructed s) := by
  unfold execPlaceComplete
  split
  · exact leaves_finish (fun _ _ => rfl) (by simp [eq_iff_blocks, putBack])
  · exact leaves_next rfl
theorem leaves_homingComplete : Leaves .homingComplete s (execHomingComplete s) := by
  unfold execHomingComplete
  split
  · exact leaves_finish (fun _ _ => rfl) (by simp [eq_iff_blocks, putBack])
  · exact leaves_next rfl
theorem leaves_auditSlotReading {reading : Reading} : Leaves (.auditSlotReading reading) s (execAuditSlotReading reading s) := by
  unfold execAuditSlotReading
  split
  · exact leaves_finish (fun _ _ => rfl) (by simp [eq_iff_blocks, putBack])
  · exact leaves_next rfl
theorem leaves_motionTimerExpiry : Leaves .motionTimerExpiry s (execMotionTimerExpiry s) :=
  leaves_ite (leaves_finish (fun _ _ => rfl) (putBack_ite (by simp [eq_iff_blocks, putBack]) (by simp [eq_iff_blocks, putBack])))
    (leaves_next rfl)
theorem leaves_serviceDoorOpen : Leaves .serviceDoorOpen s (execServiceDoorOpen s) := by
  have hfinish : Leaves .serviceDoorOpen s (finish (stopPicker { s with serviceOpen := true })) := by
    obtain ⟨h1, -, h3, h4, h5, h6, h7, h8, h9⟩ := side_fields (frame_stopPicker { s with serviceOpen := true }).1
    exact leaves_finish (fun _ _ => rfl) (by simp [putBack, h1, h3, h4, h5, h6, h7, h8, h9])
  unfold execServiceDoorOpen
  dsimp only
  split
  iterate 3 exact hfinish
  iterate 3 exact leaves_of_next rfl
theorem leaves_serviceDoorClosed : Leaves .serviceDoorClosed s (execServiceDoorClosed s) := by
  obtain ⟨h1, -, h3, h4, h5, h6, h7, h8, h9⟩ := side_fields (frame_restartPicker { s with serviceOpen := false }).1
  exact leaves_ite (leaves_finish (fun _ _ => rfl) (by simp [putBack, h1, h3, h4, h5, h6, h7, h8, h9])) (leaves_of_next rfl)
theorem leaves_mailDoorOpen : Leaves .mailDoorOpen s (execMailDoorOpen s) := by
  obtain ⟨hside, -, h⟩ := mailSlotsUnknown_frame { s with mailOpen := true, picker := { s.picker with mailAuditDue := false } }
    (mailSlots s.strap)
  obtain ⟨h1, h2, -, h4, h5, h6, h7, h8, h9⟩ := side_fields hside
  exact leaves_finish (fun _ _ => rfl) (by simp [putBack, h, h1, h2, h4, h5, h6, h7, h8, h9])
theorem leaves_mailDoorClosed : Leaves .mailDoorClosed s (execMailDoorClosed s) := by
  obtain ⟨hside, -, -, h⟩ := mailSlotsUnknown_frame { s with mailOpen := false, picker := { s.picker with mailAuditDue := true } }
    (mailSlots s.strap)
  exact leaves_ite (leaves_finish (fun _ _ => rfl) (putBack_mailDoorClosed_of (by simp) (by simp)))
    (leaves_finish (fun _ _ => rfl) (putBack_mailDoorClosed_of hside h))
theorem leaves_pickerTakeWork : Leaves .pickerTakeWork s (execPickerTakeWork s) :=
  leaves_ite (leaves_finish (fun _ _ => rfl) (by simp [eq_iff_blocks, putBack])) (leaves_next rfl)
theorem leaves_releaseVolume {p : Port} {tag : Byte} {label : Label} : Leaves (.releaseVolume p tag label) s (execReleaseVolume p tag
    label s) := by
  refine leaves_request (fun _ _ => rfl) rfl fun u hu => ?_
  subst hu
  repeat' split
  · exact putBack_releaseVolume_refused _
  · exact putBack_releaseVolume_refused _
  · exact putBack_releaseVolume_of (by simp; exact ⟨rfl, rfl, rfl, rfl, rfl, rfl, rfl, rfl⟩)
  · exact putBack_releaseVolume_refused _
theorem leaves_reportElements {p : Port} {tag firstLea : Byte} {count : Half} : Leaves (.reportElements p tag firstLea count) s
    (execReportElements p tag firstLea count s) := by
  refine leaves_request (fun _ _ => rfl) rfl fun u hu => ?_
  subst hu
  repeat' split
  all_goals simp [eq_iff_blocks, putBack]
theorem leaves_reportVolumes {p : Port} {tag form : Byte} {label : Label} : Leaves (.reportVolumes p tag form label) s (execReportVolumes
    p tag form label s) := by
  refine leaves_request (fun _ _ => rfl) rfl fun u hu => ?_
  subst hu
  repeat' split
  all_goals simp [eq_iff_blocks, putBack]
theorem leaves_reportStatus {p : Port} {tag : Byte} : Leaves (.reportStatus p tag) s (execReportStatus p tag s) := by
  refine leaves_request (fun _ _ => rfl) rfl fun u hu => ?_
  subst hu
  simp [eq_iff_blocks, putBack]
theorem leaves_reportSettings {p : Port} {tag : Byte} : Leaves (.reportSettings p tag) s (execReportSettings p tag s) := by
  refine leaves_request (fun _ _ => rfl) rfl fun u hu => ?_
  subst hu
  simp [eq_iff_blocks, putBack]
theorem leaves_configure {p : Port} {tag : Byte} {entries : List SettingEntry} : Leaves (.configure p tag entries) s (execConfigure p tag
    entries s) := by
  refine leaves_request (fun _ _ => rfl) rfl fun u hu => ?_
  subst hu
  exact putBack_ite rfl (putBack_takeConfigs _ (fun _ _ => rfl) rfl)
theorem leaves_settingsStoreWriteComplete : Leaves .settingsStoreWriteComplete s (execSettingsStoreWriteComplete s) := by
  unfold execSettingsStoreWriteComplete
  split
  · exact leaves_finish (fun _ _ => rfl) (putBack_releaseWritten _ _ _)
  · exact leaves_finish (fun _ _ => rfl) (putBack_configWritten _ _)
  · exact leaves_next rfl
theorem leaves_powerOn {layout1 layout0 serviceOpen mailOpen : Bool} : Leaves (.powerOn layout1 layout0 serviceOpen mailOpen) s
    (execPowerOn layout1 layout0 serviceOpen mailOpen s) :=
  leaves_of_next rfl
theorem leaves_boardReset {layout1 layout0 serviceOpen mailOpen : Bool} : Leaves (.boardReset layout1 layout0 serviceOpen mailOpen) s
    (execBoardReset layout1 layout0 serviceOpen mailOpen s) := by
  refine leaves_of_next (putBack_ite ?_ ?_)
  · rfl
  · rfl
theorem leaves_readRecords {p : Port} {tag bay form stop : Byte} {count : Half} {first k e : Word} : Leaves (.readRecords p tag bay form
    stop count first k e) s (execReadRecords p tag bay form stop count first k e s) := by
  refine leaves_request (fun _ _ => rfl) rfl fun u hu => ?_
  subst hu
  refine putBack_unlessReleased (by simp [eq_iff_blocks, putBack]) ?_
  repeat' split
  all_goals simp [eq_iff_blocks, putBack]
theorem leaves_verify {p : Port} {tag bay form : Byte} {a n : Word} : Leaves (.verify p tag bay form a n) s (execVerify p tag bay form a
    n s) := by
  refine leaves_request (fun _ _ => rfl) rfl fun u hu => ?_
  subst hu
  refine putBack_unlessReleased (by simp [eq_iff_blocks, putBack]) ?_
  repeat' split
  all_goals simp [eq_iff_blocks, putBack]
theorem leaves_abort {p : Port} {tag bay : Byte} : Leaves (.abort p tag bay) s (execAbort p tag bay s) := by
  refine leaves_admission (fun _ _ => rfl) rfl fun u hu => leaves_finishCredit (fun _ _ => rfl) ?_
  subst hu
  repeat' split
  all_goals simp [eq_iff_blocks, putBack]
theorem leaves_restoreRunClose {b : Bay} : Leaves (.restoreRunClose b) s (execRestoreRunClose b s) := by
  unfold execRestoreRunClose
  split
  · exact leaves_ite (leaves_finish (fun _ _ => rfl) (by simp [eq_iff_blocks, putBack])) (leaves_finish (fun _ _ => rfl) (by simp
      [eq_iff_blocks, putBack]))
  · exact leaves_finish (fun _ _ => rfl) (by simp [eq_iff_blocks, putBack])
theorem leaves_verifyRunClose {b : Bay} : Leaves (.verifyRunClose b) s (execVerifyRunClose b s) := by
  unfold execVerifyRunClose
  split
  · exact leaves_ite (leaves_finish (fun _ _ => rfl) (by simp [eq_iff_blocks, putBack])) (leaves_finish (fun _ _ => rfl) (by simp
      [eq_iff_blocks, putBack]))
  · exact leaves_finish (fun _ _ => rfl) (by simp [eq_iff_blocks, putBack])
theorem leaves_unknownRequest {p : Port} {type kind tag : Byte} {body : List Byte} : Leaves (.unknownRequest p type kind tag body) s
    (execUnknownRequest p type kind tag body s) := by
  refine leaves_ite (leaves_next rfl) ?_
  split
  · refine leaves_ite (leaves_request (fun _ _ => rfl) rfl fun u hu => ?_) (leaves_finish (fun _ _ => rfl) (by simp [eq_iff_blocks,
      putBack]))
    subst hu
    simp [eq_iff_blocks, putBack]
  · exact leaves_finish (fun _ _ => rfl) (by simp [eq_iff_blocks, putBack])
theorem leaves_openStream {p : Port} {tag bay mode shrink : Byte} {n : Word} : Leaves (.openStream p tag bay mode shrink n) s
    (execOpenStream p tag bay mode shrink n s) := by
  refine leaves_request (fun _ _ => rfl) rfl fun u hu => ?_
  subst hu
  refine putBack_unlessReleased (by simp [eq_iff_blocks, putBack]) ?_
  repeat' split
  all_goals simp [eq_iff_blocks, putBack]
theorem leaves_writeRecord {p : Port} {stream kind : Byte} {raw : List Byte} : Leaves (.writeRecord p stream kind raw) s (execWriteRecord
    p stream kind raw s) := by
  unfold execWriteRecord
  repeat' split
  · exact leaves_next rfl
  all_goals exact leaves_finish (fun _ _ => rfl) (by simp [eq_iff_blocks, putBack])
theorem leaves_writeMark {p : Port} {stream : Byte} : Leaves (.writeMark p stream) s (execWriteMark p stream s) := by
  unfold execWriteMark
  repeat' split
  · exact leaves_next rfl
  all_goals exact leaves_finish (fun _ _ => rfl) (by simp [eq_iff_blocks, putBack])
theorem leaves_resumeStream {p : Port} {tag stream : Byte} : Leaves (.resumeStream p tag stream) s (execResumeStream p tag stream s) := by
  refine leaves_request (fun _ _ => rfl) rfl fun u hu => ?_
  subst hu
  exact putBack_onStream (by simp [eq_iff_blocks, putBack]) fun b => putBack_ite (by simp [eq_iff_blocks, putBack]) (by simp
      [eq_iff_blocks, putBack])
theorem leaves_sync {p : Port} {tag stream : Byte} : Leaves (.sync p tag stream) s (execSync p tag stream s) := by
  refine leaves_request (fun _ _ => rfl) rfl fun u hu => ?_
  subst hu
  refine putBack_onStream (by simp [eq_iff_blocks, putBack]) fun b => ?_
  dsimp only
  split
  · simp [eq_iff_blocks, putBack]
  · simp [eq_iff_blocks, putBack]
theorem leaves_closeStream {p : Port} {tag stream mode : Byte} : Leaves (.closeStream p tag stream mode) s (execCloseStream p tag stream
    mode s) := by
  refine leaves_admission (fun _ _ => rfl) rfl fun u hu => leaves_finishCredit (fun _ _ => rfl) ?_
  subst hu
  have hb : ∀ t : State, putBack (.closeStream p tag stream mode) s t = s → putBack (.closeStream p tag stream mode) s (onBuffer t
      settle) = s :=
    fun t ht => by simpa [eq_iff_blocks, putBack] using ht
  refine hb _ (putBack_onStream (by simp [eq_iff_blocks, putBack]) fun b => ?_)
  exact putBack_ite (by simp [eq_iff_blocks, putBack]) (putBack_ite (by simp [eq_iff_blocks, putBack]) (by simp [eq_iff_blocks, putBack]))
theorem leaves_commitLatencyTimerExpiry {b : Bay} : Leaves (.commitLatencyTimerExpiry b) s (execCommitLatencyTimerExpiry b s) :=
  leaves_ite (leaves_next rfl)
    (leaves_ite (leaves_finish (fun _ _ => rfl) (by simp [eq_iff_blocks, putBack])) (leaves_finish (fun _ _ => rfl) (by simp [putBack])))
theorem leaves_streamClose {b : Bay} : Leaves (.streamClose b) s (execStreamClose b s) :=
  leaves_ite (leaves_finish (fun _ _ => rfl) (by simp [eq_iff_blocks, putBack])) (leaves_next rfl)
theorem leaves_syncAnswered {b : Bay} : Leaves (.syncAnswered b) s (execSyncAnswered b s) :=
  leaves_finish (fun _ _ => rfl) (by simp [eq_iff_blocks, putBack])
end

/-- What each command leaves alone, the commands one by one. -/
theorem exec_leaves (c : Instr) (s : State) : Leaves c s (exec c s) := by
  cases c with
  | powerOn => exact leaves_powerOn
  | boardReset => exact leaves_boardReset
  | linkUp => exact leaves_linkUp
  | linkDown => exact leaves_linkDown
  | linkReset => exact leaves_linkReset
  | move => exact leaves_move
  | load => exact leaves_load
  | loadScratch => exact leaves_loadScratch
  | unload => exact leaves_unload
  | audit => exact leaves_audit
  | recover => exact leaves_recover
  | releaseVolume => exact leaves_releaseVolume
  | reportElements => exact leaves_reportElements
  | reportVolumes => exact leaves_reportVolumes
  | reportStatus => exact leaves_reportStatus
  | reportSettings => exact leaves_reportSettings
  | configure => exact leaves_configure
  | settingsStoreWriteComplete => exact leaves_settingsStoreWriteComplete
  | openStream => exact leaves_openStream
  | writeRecord => exact leaves_writeRecord
  | writeMark => exact leaves_writeMark
  | resumeStream => exact leaves_resumeStream
  | sync => exact leaves_sync
  | closeStream => exact leaves_closeStream
  | readRecords => exact leaves_readRecords
  | verify => exact leaves_verify
  | abort => exact leaves_abort
  | unknownRequest => exact leaves_unknownRequest
  | fetchComplete => exact leaves_fetchComplete
  | carryComplete => exact leaves_carryComplete
  | placeComplete => exact leaves_placeComplete
  | homingComplete => exact leaves_homingComplete
  | auditSlotReading => exact leaves_auditSlotReading
  | motionTimerExpiry => exact leaves_motionTimerExpiry
  | serviceDoorOpen => exact leaves_serviceDoorOpen
  | serviceDoorClosed => exact leaves_serviceDoorClosed
  | mailDoorOpen => exact leaves_mailDoorOpen
  | mailDoorClosed => exact leaves_mailDoorClosed
  | pickerTakeWork => exact leaves_pickerTakeWork
  | owedUnloadQueued => exact leaves_owedUnloadQueued
  | threaded => exact leaves_threaded
  | threadFault => exact leaves_threadFault
  | ejected => exact leaves_ejected
  | status => exact leaves_status
  | located => exact leaves_located
  | blank => exact leaves_blank
  | committed => exact leaves_committed
  | writeFault => exact leaves_writeFault
  | gapDone => exact leaves_gapDone
  | data => exact leaves_data
  | readFault => exact leaves_readFault
  | fault => exact leaves_fault
  | replyTimerExpiry => exact leaves_replyTimerExpiry
  | shrinkComplete => exact leaves_shrinkComplete
  | expandDeliverComplete => exact leaves_expandDeliverComplete
  | expandCheckComplete => exact leaves_expandCheckComplete
  | engineTakeItem => exact leaves_engineTakeItem
  | readAllocationComplete => exact leaves_readAllocationComplete
  | expandAllocationComplete => exact leaves_expandAllocationComplete
  | verifyReservationMet => exact leaves_verifyReservationMet
  | frameSent => exact leaves_frameSent
  | commitLatencyTimerExpiry => exact leaves_commitLatencyTimerExpiry
  | claimHoldTimerExpiry => exact leaves_claimHoldTimerExpiry
  | unloadOwedMark => exact leaves_unloadOwedMark
  | streamClose => exact leaves_streamClose
  | syncAnswered => exact leaves_syncAnswered
  | restoreRunClose => exact leaves_restoreRunClose
  | verifyRunClose => exact leaves_verifyRunClose

/-- Settles O4: each command's meaning is seen to leave all but its blocks alone, and the ranges' layer keeps the settings. -/
theorem eachCommandKeepsToItsBlocks : Obligations.EachCommandKeepsToItsBlocks := by
  intro c s t hx
  refine ⟨exec_leaves c s t hx, fun hr hw => ?_⟩
  obtain ⟨u, hu, hs⟩ := exec_within s hr hw
  cases hu.symm.trans hx
  exact hs.settings

end Sys2Proof.Machine
end

section
/-! PROOFS. A command for one bay leaves the other bay's stream, runs and items on offer alone: one lemma for each operation that such a
command is made of. -/

namespace Sys2Proof.Machine

/-- From z to s the bay beside b keeps its stream, its runs and its items on offer. -/
structure Apart (b : Bay) (z s : State) : Prop where
  stream : s.stream b.other = z.stream b.other
  restores : s.restores.get b.other = z.restores.get b.other
  verifies : s.verifies.get b.other = z.verifies.get b.other
  offered : s.offered b.other = z.offered b.other
  behind : s.engine.behind.get b.other = z.engine.behind.get b.other

theorem Apart.refl (b : Bay) (s : State) : Apart b s s := ⟨rfl, rfl, rfl, rfl, rfl⟩
theorem Apart.trans {b : Bay} {s t u : State} (h : Apart b s t) (g : Apart b t u) : Apart b s u :=
  ⟨g.stream.trans h.stream, g.restores.trans h.restores, g.verifies.trans h.verifies, g.offered.trans h.offered, g.behind.trans h.behind⟩

theorem get_set_other {α : Type} (x : PerBay α) (b : Bay) (a : α) : (x.set b a).get b.other = x.get b.other := by
  cases b <;> rfl

theorem Engine.put_other (e : Engine) (i : Item) : (e.put i).offer.get i.bay.other = e.offer.get i.bay.other
    ∧ (e.put i).behind.get i.bay.other = e.behind.get i.bay.other := by
  unfold Engine.put
  split
  · exact ⟨get_set_other _ _ _, rfl⟩
  · exact ⟨rfl, get_set_other _ _ _⟩

theorem Engine.withdraw_other (e : Engine) (b : Bay) (id : Nat) : (e.withdraw b id).offer.get b.other = e.offer.get b.other
    ∧ (e.withdraw b id).behind.get b.other = e.behind.get b.other := by
  unfold Engine.withdraw
  split
  · exact ⟨get_set_other _ _ _, get_set_other _ _ _⟩
  · exact ⟨rfl, get_set_other _ _ _⟩

section
variable {b : Bay} {z s u : State}

/-- A change of blocks that are none of a bay's own. -/
theorem Apart.of_frame {t : State} (h : Apart b z s) (hf : t.streams = s.streams ∧ t.engine = s.engine ∧ t.restores = s.restores
    ∧ t.verifies = s.verifies) : Apart b z t := by
  obtain ⟨hs, he, hr, hv⟩ := hf
  refine h.trans ⟨?_, by rw [hr], by rw [hv], ?_, by rw [he]⟩
  · rw [State.stream, hs, State.stream]
  · rw [State.offered, he, State.offered]

theorem apart_modDrive {c : Bay} {f : Drive → Drive} (h : Apart b z s) : Apart b z (s.modDrive c f) := h.trans ⟨rfl, rfl, rfl, rfl, rfl⟩
theorem apart_modPort {p : Port} {f : PortCtl → PortCtl} (h : Apart b z s) : Apart b z (s.modPort p f) := h.trans ⟨rfl, rfl, rfl, rfl,
    rfl⟩
theorem apart_modPicker {f : Picker → Picker} (h : Apart b z s) : Apart b z (s.modPicker f) := h.trans ⟨rfl, rfl, rfl, rfl, rfl⟩
theorem apart_buffer {x : Buffer} (h : Apart b z s) : Apart b z { s with buffer := x } := h.trans ⟨rfl, rfl, rfl, rfl, rfl⟩
theorem apart_modStream {f : Stream → Stream} (h : Apart b z s) : Apart b z (s.modStream b f) :=
  h.trans ⟨get_set_other _ _ _, rfl, rfl, rfl, rfl⟩
theorem apart_setRestore {r : Option RestoreRun} (h : Apart b z s) : Apart b z (s.setRestore b r) :=
  h.trans ⟨rfl, get_set_other _ _ _, rfl, rfl, rfl⟩
theorem apart_setVerify {r : Option VerifyRun} (h : Apart b z s) : Apart b z (s.setVerify b r) :=
  h.trans ⟨rfl, rfl, get_set_other _ _ _, rfl, rfl⟩
theorem apart_setRestoreRuns {r : RestoreRuns} (h : Apart b z s) : Apart b z (s.setRestoreRuns b r) :=
  h.trans ⟨rfl, get_set_other _ _ _, rfl, rfl, rfl⟩
theorem apart_setVerifyRuns {r : VerifyRuns} (h : Apart b z s) : Apart b z (s.setVerifyRuns b r) :=
  h.trans ⟨rfl, rfl, get_set_other _ _ _, rfl, rfl⟩
theorem apart_modRestore {f : RestoreRun → RestoreRun} (h : Apart b z s) : Apart b z (s.modRestore b f) := apart_setRestore h
theorem apart_modVerify {f : VerifyRun → VerifyRun} (h : Apart b z s) : Apart b z (s.modVerify b f) := apart_setVerify h
/-- An item is put in its own bay's place, or behind it. -/
theorem apart_offerItem {i : Item} (hi : i.bay = b) (h : Apart b z s) : Apart b z (offerItem s i) := by
  subst hi
  obtain ⟨ho, hb⟩ := s.engine.put_other i
  exact h.trans ⟨rfl, rfl, rfl, ho, hb⟩
theorem apart_withdrawItem {id : Nat} (h : Apart b z s) : Apart b z (withdrawItem s b id) := by
  obtain ⟨ho, hb⟩ := s.engine.withdraw_other b id
  exact h.trans ⟨rfl, rfl, rfl, ho, hb⟩
theorem apart_abandonInHand {id : Nat} (h : Apart b z s) : Apart b z (abandonInHand s id) := h.trans ⟨rfl, rfl, rfl, rfl, rfl⟩

theorem apart_foldl {α : Type} {f : State → α → State} {l : List α} (h : Apart b z s) (hf : ∀ t a, Apart b z t → Apart b z (f t a)) :
    Apart b z (l.foldl f s) := by
  induction l generalizing s with
  | nil => exact h
  | cons a l ih => exact ih (hf s a h)

theorem apart_ite {c : Prop} [Decidable c] (h : Apart b z s) (g : Apart b z u) : Apart b z (if c then s else u) := by
  split
  · exact h
  · exact g

theorem apart_onLeftRestore {k : Nat} {f : State → State} (h : Apart b z s) (hf : ∀ t, Apart b z t → Apart b z (f t)) :
    Apart b z (onLeftRestore s b k f) := by
  unfold onLeftRestore
  split
  · exact apart_setRestoreRuns (hf _ (apart_setRestore h))
  · exact h
theorem apart_onRunOf {id : Option Nat} {f : State → State} (h : Apart b z s) (hf : ∀ t, Apart b z t → Apart b z (f t)) :
    Apart b z (onRunOf s b id f) := by
  unfold onRunOf
  repeat' split
  · exact hf _ h
  · exact apart_onLeftRestore h hf
  · exact hf _ h
theorem apart_onLeftRestores {g : RestoreRun → Bool} {f : State → State} (h : Apart b z s)
    (hf : ∀ t, Apart b z t → Apart b z (f t)) : Apart b z (onLeftRestores s b g f) :=
  apart_foldl h fun _ _ ht => apart_ite (apart_onLeftRestore ht hf) ht

/-! ### The operations that change a bay's blocks, or are made of such -/

theorem apart_queueFrames {p : Port} {fs : List DataFrame} (h : Apart b z s) : Apart b z (queueFrames s p fs) := h.of_frame (by simp)
theorem apart_queueWriteRefused {p : Port} {kind : ReqKind} {stream : Byte} {code : ReplyCode} {record : Option Nat} (h : Apart b z s) :
    Apart b z (queueWriteRefused s p kind stream code record) := h.of_frame (by simp)
theorem apart_answer {p : Port} {tag : Byte} {kind : ReqKind} {code : ReplyCode} {body : ReplyBody} {clamped : Bool} (h : Apart b z s) :
    Apart b z (answer s p tag kind code body clamped) := h.of_frame (by simp)
theorem apart_answerHeld {p : Port} {tag : Option Byte} {kind : ReqKind} {code : ReplyCode} {body : ReplyBody} {clamped : Bool} (h :
    Apart b z s) : Apart b z (answerHeld s p tag kind code body clamped) := h.of_frame (by simp)
theorem apart_refuse {p : Port} {tag : Byte} {kind : ReqKind} {code : ReplyCode} (h : Apart b z s) : Apart b z (refuse s p tag kind code)
    :=
  h.of_frame (by simp)
theorem apart_openTag {p : Port} {tag : Byte} {kind : ReqKind} (h : Apart b z s) : Apart b z (openTag s p tag kind) :=
  h.of_frame (by simp)
theorem apart_modVolume {l : Label} {f : Volume → Volume} (h : Apart b z s) : Apart b z (modVolume s l f) := h.of_frame (by simp)
theorem apart_modDriveVolume {f : Volume → Volume} (h : Apart b z s) : Apart b z (modDriveVolume s b f) := h.of_frame (by simp)
theorem apart_onBuffer {f : CreditEnv → Buffer → Buffer} (h : Apart b z s) : Apart b z (onBuffer s f) := h.of_frame (by simp)
theorem apart_releaseDesc {id} (h : Apart b z s) : Apart b z (releaseDesc s id) := h.of_frame (by simp)
theorem apart_trimDesc {id n} (h : Apart b z s) : Apart b z (trimDesc s id n) := h.of_frame (by simp)
theorem apart_placeBytes {id bytes} (h : Apart b z s) : Apart b z (placeBytes s id bytes) := h.of_frame (by simp)
theorem apart_issueLocate {a : Nat} (h : Apart b z s) : Apart b z (issueLocate s b a) := h.of_frame (by simp)
theorem apart_setAside (h : Apart b z s) : Apart b z (setAside s b) := apart_setVerifyRuns (apart_setRestoreRuns h)
theorem apart_toStreamPort {n : Notice} (h : Apart b z s) : Apart b z (toStreamPort s b n) := h.of_frame (by simp)
theorem apart_commitNotice (h : Apart b z s) : Apart b z (commitNotice s b) := apart_modStream (apart_toStreamPort h)
theorem apart_testCommitNotice (h : Apart b z s) : Apart b z (testCommitNotice s b) :=
  apart_ite (apart_commitNotice h) (apart_ite h (apart_modStream h))
theorem apart_answerSync {tag : Byte} {code : ReplyCode} (h : Apart b z s) : Apart b z (answerSync s b tag code) := by
  unfold answerSync
  dsimp only
  split
  · exact apart_modStream (apart_answer h)
  · exact h
theorem apart_testSyncs (h : Apart b z s) : Apart b z (testSyncs s b) :=
  apart_foldl (apart_modStream h) (fun _ _ hu => apart_answerSync hu)
theorem apart_giveUpRecord {r : Rec} (h : Apart b z s) : Apart b z (giveUpRecord b s r) :=
  apart_ite (apart_abandonInHand h) (apart_modStream (apart_releaseDesc (apart_withdrawItem h)))
theorem apart_giveUpRecords {f : Rec → Bool} (h : Apart b z s) : Apart b z (giveUpRecords s b f) :=
  apart_foldl h (fun _ _ hu => apart_giveUpRecord hu)
theorem apart_mediumEnd {u : Nat} (h : Apart b z s) : Apart b z (mediumEnd s b u) :=
  apart_testSyncs (apart_toStreamPort (apart_giveUpRecords (apart_modStream h)))
theorem apart_clearStreamActivity (h : Apart b z s) : Apart b z (clearStreamActivity s b) := h.of_frame (by simp)
theorem apart_answerClosing {q : Closing} (h : Apart b z s) : Apart b z (answerClosing b s q) :=
  apart_ite (apart_answerHeld h) (apart_ite (apart_modStream (apart_answerHeld h)) h)
theorem apart_closeStream (h : Apart b z s) : Apart b z (closeStream s b) :=
  apart_clearStreamActivity (apart_modStream (apart_ite (apart_foldl (apart_foldl h (fun _ _ hu => apart_answerClosing hu)) (fun _ _ hu
    => apart_answerClosing hu)) (apart_foldl (apart_foldl (apart_foldl h (fun _ _ hu => apart_answerClosing hu)) (fun _ _ hu =>
    apart_answerClosing hu)) (fun _ _ hu => apart_answerSync hu))))
theorem apart_loseRecord {r : Rec} (h : Apart b z s) : Apart b z (loseRecord b s r) :=
  apart_ite (apart_abandonInHand h) (apart_releaseDesc (apart_withdrawItem h))
theorem apart_streamFault {code : FaultCode} (h : Apart b z s) : Apart b z (streamFault s b code) :=
  apart_ite (apart_closeStream (apart_testSyncs (apart_toStreamPort (apart_modDriveVolume (apart_modStream (apart_foldl h (fun _ _ hu =>
    apart_loseRecord hu))))))) (apart_clearStreamActivity (apart_modStream (apart_testSyncs (apart_toStreamPort (apart_modDriveVolume
    (apart_modStream (apart_foldl h (fun _ _ hu => apart_loseRecord hu))))))))
theorem apart_offerEngine (h : Apart b z s) : Apart b z (offerEngine s b) := by
  unfold offerEngine
  dsimp only
  repeat' split
  · exact apart_offerItem rfl (apart_modStream h)
  · exact h
  · exact h
theorem apart_earlyWarning {num : Nat} (h : Apart b z s) : Apart b z (earlyWarning s b num) :=
  apart_ite (apart_modStream (apart_toStreamPort h)) h
theorem apart_sendBlock {r : Rec} {block : Nat} (h : Apart b z s) : Apart b z (sendBlock s b r block) :=
  apart_earlyWarning (apart_modStream (apart_modDrive h))
/-- One offer: the medium's end, or the block sent. -/
theorem apart_offerOnce {t : State} (h : Apart b z s) (ht : offerOnce s b = some t) : Apart b z t := by
  unfold offerOnce at ht
  dsimp only at ht
  repeat' split at ht
  all_goals cases ht
  · exact apart_mediumEnd h
  · exact apart_mediumEnd h
  · exact apart_sendBlock h
theorem apart_offerRun {n : Nat} (h : Apart b z s) : Apart b z (offerRun n s b) := by
  induction n generalizing s with
  | zero => exact h
  | succ n ih =>
    unfold offerRun
    split
    · rename_i t ht
      exact ih (apart_offerOnce h ht)
    · exact h
theorem apart_offerBlocks (h : Apart b z s) : Apart b z (offerBlocks s b) := apart_offerRun h
theorem apart_discardStream {q : Closing} (h : Apart b z s) : Apart b z (discardStream s b q) :=
  apart_testSyncs (apart_giveUpRecords (apart_modStream h))
theorem apart_openVolume {p : Port} {f : Nat} (h : Apart b z s) : Apart b z (openVolume s b p f) := h.of_frame (by simp)
theorem apart_openingDone {f : Nat} (h : Apart b z s) : Apart b z (openingDone s b f) := by
  unfold openingDone
  split
  · exact apart_answerHeld (apart_modDrive (apart_modStream (apart_openVolume h)))
  · exact h
theorem apart_openingEnds {code : ReplyCode} (h : Apart b z s) : Apart b z (openingEnds s b code) := by
  unfold openingEnds
  dsimp only
  split
  · exact apart_modStream (apart_foldl (apart_answerHeld h) (fun _ _ hu => apart_answerClosing hu))
  · exact h
theorem apart_addStaged {e : Staged} (h : Apart b z s) : Apart b z (addStaged s b e) := apart_modRestore h
theorem apart_modStaged {block : Nat} {f : Staged → Staged} (h : Apart b z s) : Apart b z (modStaged s b block f) := apart_modRestore h
theorem apart_dropStaged {block : Nat} (h : Apart b z s) : Apart b z (dropStaged s b block) := apart_modRestore h
theorem apart_releaseOpt {id : Option Nat} (h : Apart b z s) : Apart b z (releaseOpt s id) := h.of_frame (by simp)
theorem apart_giveUpDesc {id : Nat} (h : Apart b z s) : Apart b z (giveUpDesc s b id) :=
  apart_ite (apart_abandonInHand h) (apart_releaseDesc (apart_withdrawItem h))
theorem apart_giveUpStaged {e : Staged} (h : Apart b z s) : Apart b z (giveUpStaged b s e) := by
  unfold giveUpStaged
  split
  · exact apart_giveUpDesc (apart_dropStaged h)
  · exact apart_onBuffer (apart_dropStaged h)
theorem apart_giveUpStagedIf {f : Staged → Bool} (h : Apart b z s) : Apart b z (giveUpStagedIf s b f) := by
  unfold giveUpStagedIf
  split
  · exact apart_foldl h (fun _ _ hu => apart_giveUpStaged hu)
  · exact h
theorem apart_giveUpIndex (h : Apart b z s) : Apart b z (giveUpIndex s b) := by
  unfold giveUpIndex
  repeat' split
  · exact h
  · exact apart_giveUpDesc (apart_modRestore h)
  · exact apart_onBuffer (apart_modRestore h)
  · exact h
theorem apart_takeEnding {code : ReplyCode} {block : Option Nat} (h : Apart b z s) : Apart b z (takeEnding s b code block) := by
  unfold takeEnding
  split
  · exact apart_ite (apart_giveUpStagedIf (apart_modRestore h)) h
  · exact h
theorem apart_reportFailure {l : Label} {block : Nat} (h : Apart b z s) : Apart b z (reportFailure s l block) := h.of_frame (by simp)
theorem apart_askNext (h : Apart b z s) : Apart b z (askNext s b) := by
  unfold askNext
  split
  · exact apart_ite (apart_onBuffer (apart_addStaged h)) h
  · exact h
theorem apart_offerStaged (h : Apart b z s) : Apart b z (offerStaged s b) := by
  unfold offerStaged
  repeat' split
  · exact apart_modStaged (apart_offerItem rfl h)
  · exact h
  · exact h
  · exact h
  · exact h
theorem apart_handReady (h : Apart b z s) : Apart b z (handReady s b) := by
  unfold handReady
  split
  · exact apart_queueFrames (apart_setRestore h)
  · exact h
theorem apart_restoreAdvance (h : Apart b z s) : Apart b z (restoreAdvance s b) :=
  apart_handReady (apart_offerStaged (apart_askNext h))
theorem apart_restoreArrived (h : Apart b z s) : Apart b z (restoreArrived s b) := by
  unfold restoreArrived
  split
  · exact apart_ite h (apart_ite (apart_onBuffer (apart_modRestore h)) (apart_restoreAdvance (apart_modRestore h)))
  · exact h
theorem apart_restorePosition (h : Apart b z s) : Apart b z (restorePosition s b) := by
  unfold restorePosition
  split
  · exact apart_ite (apart_restoreArrived h) (apart_ite (apart_issueLocate h) h)
  · exact h
theorem apart_indexData {r : RestoreRun} {x : IndexRead} {h : TapeHeader} {stored : List Byte} (hz : Apart b z s) : Apart b z (indexData
    s b r x h stored) := by
  unfold indexData
  repeat' split
  · exact apart_releaseOpt (apart_modRestore hz)
  · exact apart_takeEnding (apart_releaseOpt (apart_modRestore hz))
  · exact apart_offerItem rfl (apart_modRestore (apart_trimDesc (apart_placeBytes hz)))
  · exact apart_takeEnding (apart_releaseOpt (apart_modRestore (apart_reportFailure (apart_trimDesc (apart_placeBytes hz)))))
  · exact hz
theorem apart_endingAfter {block : Nat} {mark : Bool} (h : Apart b z s) : Apart b z (endingAfter s b block mark) := by
  unfold endingAfter
  split
  · exact apart_ite (apart_takeEnding h) (apart_ite (apart_takeEnding h) (apart_ite (apart_takeEnding h) h))
  · exact h
theorem apart_stagedData {r : RestoreRun} {e : Staged} {id : Nat} {h : TapeHeader} {stored : List Byte} (hz : Apart b z s) : Apart b z
    (stagedData s b r e id h stored) :=
  apart_ite (apart_restoreAdvance (apart_endingAfter (apart_modStaged (apart_trimDesc (apart_modRestore hz))))) (apart_ite
    (apart_restoreAdvance (apart_endingAfter (apart_ite (apart_onBuffer (apart_modStaged (apart_trimDesc (apart_placeBytes
    (apart_modRestore hz))))) (apart_modStaged (apart_trimDesc (apart_placeBytes (apart_modRestore hz))))))) (apart_restoreAdvance
    (apart_takeEnding (apart_endingAfter (apart_releaseDesc (apart_dropStaged (apart_reportFailure (apart_trimDesc (apart_placeBytes
    (apart_modRestore hz))))))))))
theorem apart_restoreData {h : TapeHeader} {stored : List Byte} (hz : Apart b z s) : Apart b z (restoreData s b h stored) := by
  unfold restoreData
  repeat' split
  · exact apart_indexData hz
  · exact hz
  · exact apart_releaseDesc (apart_dropStaged hz)
  · exact apart_stagedData hz
  · exact hz
  · exact hz
  · exact hz
theorem apart_restoreReadFailed {block : Nat} (h : Apart b z s) : Apart b z (restoreReadFailed s b block) := by
  unfold restoreReadFailed
  repeat' split
  · exact apart_takeEnding (apart_releaseOpt (apart_modRestore h))
  · exact apart_takeEnding (apart_releaseOpt (apart_dropStaged h))
  · exact h
  · exact h
theorem apart_restoreDriveFault (h : Apart b z s) : Apart b z (restoreDriveFault s b) :=
  apart_takeEnding (apart_giveUpIndex (apart_modRestore (apart_giveUpStagedIf h)))
theorem apart_withdrawFrames {p : Port} (h : Apart b z s) : Apart b z (withdrawFrames s b p) := by
  unfold withdrawFrames
  exact apart_modPort (apart_giveUpStagedIf h)
theorem apart_restoreAbort (h : Apart b z s) : Apart b z (restoreAbort s b) := by
  unfold restoreAbort
  split
  · exact apart_withdrawFrames (apart_giveUpIndex (apart_giveUpStagedIf (apart_modRestore h)))
  · exact h
theorem apart_clearRunActivity (h : Apart b z s) : Apart b z (clearRunActivity s b) := h.of_frame (by simp)
theorem apart_answerRestore {r : RestoreRun} (h : Apart b z s) : Apart b z (answerRestore s b r) := h.of_frame (by simp)
theorem apart_closeRestore {r : RestoreRun} (h : Apart b z s) : Apart b z (closeRestore s b r) :=
  apart_answerRestore (apart_clearRunActivity (apart_setRestore h))
theorem apart_verifyEnds {code : ReplyCode} {block : Option Nat} (h : Apart b z s) : Apart b z (verifyEnds s b code block) :=
  apart_modVerify h
theorem apart_verifyReserve (h : Apart b z s) : Apart b z (verifyReserve s b) := apart_onBuffer (apart_modVerify h)
theorem apart_verifyRelease (h : Apart b z s) : Apart b z (verifyRelease s b) := by
  unfold verifyRelease
  repeat' split
  · exact apart_releaseDesc (apart_modVerify h)
  · exact apart_modVerify h
  · exact h
theorem apart_verifyResult {r : VerifyRun} {block : Nat} {res : CheckResult} (h : Apart b z s) : Apart b z (verifyResult s b r block res)
    := by
  unfold verifyResult
  split
  · exact apart_ite (apart_verifyEnds (apart_modVolume (apart_verifyRelease (apart_modVerify h)))) (apart_ite (apart_verifyEnds
      (apart_modVolume (apart_verifyRelease (apart_modVerify h)))) (apart_verifyReserve (apart_modVolume (apart_verifyRelease
      (apart_modVerify h)))))
  · exact apart_verifyEnds (apart_modVolume (apart_verifyRelease (apart_modVerify h)))
  · exact apart_verifyEnds (apart_modVolume (apart_verifyRelease (apart_modVerify h)))
theorem apart_verifyBlock {r : VerifyRun} {n id : Nat} {h : TapeHeader} {stored : List Byte} (hz : Apart b z s) : Apart b z (verifyBlock
    s b r n id h stored) :=
  apart_ite (apart_verifyResult (apart_trimDesc (apart_modVerify hz))) (apart_ite (apart_verifyResult (apart_trimDesc (apart_modVerify
    hz))) (apart_ite (apart_ite (apart_offerItem rfl (apart_modVerify (apart_trimDesc (apart_placeBytes (apart_modVerify hz)))))
    (apart_verifyResult (apart_trimDesc (apart_placeBytes (apart_modVerify hz))))) (apart_verifyResult (apart_trimDesc (apart_modVerify
    hz)))))
theorem apart_verifyData {h : TapeHeader} {stored : List Byte} (hz : Apart b z s) : Apart b z (verifyData s b h stored) := by
  unfold verifyData
  repeat' split
  · exact apart_verifyRelease hz
  · exact apart_verifyBlock hz
  · exact hz
  · exact hz
  · exact hz
theorem apart_verifyReadFailed {block : Nat} (h : Apart b z s) : Apart b z (verifyReadFailed s b block) :=
  apart_verifyEnds (apart_verifyRelease h)
theorem apart_verifyDriveFault (h : Apart b z s) : Apart b z (verifyDriveFault s b) := by
  unfold verifyDriveFault
  split
  · exact apart_ite (apart_modVerify h) (apart_verifyEnds (apart_onBuffer (apart_ite (apart_verifyRelease h) h)))
  · exact h
theorem apart_verifyArrived (h : Apart b z s) : Apart b z (verifyArrived s b) := by
  unfold verifyArrived
  split
  · exact apart_ite (apart_verifyReserve h) h
  · exact h
theorem apart_verifyPosition (h : Apart b z s) : Apart b z (verifyPosition s b) := by
  unfold verifyPosition
  split
  · exact apart_ite (apart_verifyArrived h) (apart_issueLocate h)
  · exact h
theorem apart_verifyAbort (h : Apart b z s) : Apart b z (verifyAbort s b) := by
  unfold verifyAbort
  repeat' split
  · exact apart_verifyEnds (apart_abandonInHand (apart_onBuffer h))
  · exact apart_verifyEnds (apart_verifyRelease (apart_withdrawItem (apart_onBuffer h)))
  · exact apart_verifyEnds (apart_onBuffer h)
  · exact apart_verifyEnds (apart_abandonInHand h)
  · exact apart_verifyEnds (apart_verifyRelease (apart_withdrawItem h))
  · exact apart_verifyEnds h
  · exact h
theorem apart_answerVerify {r : VerifyRun} (h : Apart b z s) : Apart b z (answerVerify s b r) := h.of_frame (by simp)
theorem apart_closeVerify {r : VerifyRun} (h : Apart b z s) : Apart b z (closeVerify s b r) :=
  apart_answerVerify (apart_clearRunActivity (apart_setVerify h))
theorem apart_markOwed (h : Apart b z s) : Apart b z (markOwed s b) := h.of_frame (by simp)
theorem apart_bayAnswered (h : Apart b z s) : Apart b z (bayAnswered s b) := h.of_frame (by simp)
theorem apart_afterAudit (h : Apart b z s) : Apart b z (afterAudit s) := h.of_frame (by simp)
theorem apart_moveDriveFault (h : Apart b z s) : Apart b z (moveDriveFault s b) := h.of_frame (by simp)
theorem apart_activityDown {a : Activity} (h : Apart b z s) : Apart b z (activityDown s b a) := by
  unfold activityDown
  split
  · exact apart_streamFault h
  · exact apart_restoreDriveFault h
  · exact apart_verifyDriveFault h
  · exact apart_ite (apart_openingEnds h) h
theorem apart_auditSilent (h : Apart b z s) : Apart b z (auditSilent s b) := h.of_frame (by simp)
theorem apart_bayDown {st : DriveState} (h : Apart b z s) : Apart b z (bayDown s b st) :=
  apart_auditSilent (apart_moveDriveFault (apart_activityDown (apart_modDrive h)))
theorem apart_orderBroken (h : Apart b z s) : Apart b z (orderBroken s b) := apart_ite h (apart_bayDown h)
theorem apart_acceptOpen {p : Port} {tag : Byte} {v : Volume} {mode shrink : Byte} {n : Nat} (h : Apart b z s) : Apart b z (acceptOpen s
    p tag b v mode shrink n) :=
  apart_ite (apart_openingDone (apart_modDrive (apart_modStream (apart_setAside h)))) (apart_issueLocate (apart_modDrive (apart_modStream
    (apart_setAside h))))
theorem apart_haltWrite {p : Port} {kind : ReqKind} {stream : Byte} {code : ReplyCode} (h : Apart b z s) : Apart b z (haltWrite s p b
    kind stream code) :=
  apart_modStream (apart_queueWriteRefused h)
theorem apart_notOpenWrite {p : Port} {kind : ReqKind} {stream : Byte} (h : Apart b z s) : Apart b z (notOpenWrite s p b kind stream) :=
    by
  unfold notOpenWrite
  dsimp only
  split
  · exact apart_modStream h
  · exact apart_queueWriteRefused h
  · exact apart_queueWriteRefused h
  · exact apart_queueWriteRefused h
  · exact h
theorem apart_joinRecord {kind : RecKind} {len : Nat} {st : RecState} {id : Nat} (h : Apart b z s) : Apart b z (joinRecord s b kind len
    st id) :=
  apart_modStream h
theorem apart_acceptRecord {p : Port} {kind : RecKind} {raw : List Byte} (h : Apart b z s) : Apart b z (acceptRecord s p b kind raw) := by
  unfold acceptRecord
  exact apart_onBuffer (apart_offerEngine (apart_joinRecord (apart_onBuffer h)))
theorem apart_acceptMark {p : Port} (h : Apart b z s) : Apart b z (acceptMark s p b) := by
  unfold acceptMark
  exact apart_onBuffer (apart_offerBlocks (apart_joinRecord (apart_onBuffer h)))
theorem apart_drainStream {q : Closing} (h : Apart b z s) : Apart b z (drainStream s b q) := apart_modStream h
theorem apart_acceptRead {p : Port} {tag : Byte} {v : Volume} {a : Address} {stop : Bool} {count target : Nat} (h : Apart b z s) : Apart
    b z (acceptRead s p tag b v a stop count target) :=
  apart_restorePosition (apart_modDrive (apart_setRestore (apart_setAside h)))
theorem apart_decideRead {p : Port} {tag : Byte} {form stop : Byte} {count : Nat} {first k e : Word} (h : Apart b z s) : Apart b z
    (decideRead s p tag b form stop count first k e) := by
  unfold decideRead
  repeat' split
  · exact apart_refuse h
  · exact apart_refuse h
  · exact apart_acceptRead h
  · exact apart_refuse h
  · exact apart_refuse h
theorem apart_acceptVerify {p : Port} {tag : Byte} {v : Volume} {f : VerifyForm} (h : Apart b z s) : Apart b z (acceptVerify s p tag b v
    f) :=
  apart_ite (apart_verifyEnds (apart_modDrive (apart_setVerify (apart_setAside h)))) (apart_verifyPosition (apart_modDrive
    (apart_setVerify (apart_setAside h))))
theorem apart_decideVerify {p : Port} {tag : Byte} {form : Byte} {a n : Word} (h : Apart b z s) : Apart b z (decideVerify s p tag b form
    a n) := by
  unfold decideVerify
  repeat' split
  · exact apart_refuse h
  · exact apart_refuse h
  · exact apart_acceptVerify h
  · exact apart_refuse h
theorem apart_abortStream {p : Port} {tag : Byte} (h : Apart b z s) : Apart b z (abortStream s p tag b) := by
  unfold abortStream
  split
  · exact apart_modStream h
  · exact apart_answer (apart_closeStream h)
  · exact apart_answer h
  · exact apart_discardStream h
theorem apart_abortBay {p : Port} {tag : Byte} (h : Apart b z s) : Apart b z (abortBay s p tag b) :=
  apart_ite (apart_restoreAbort (apart_modRestore h)) (apart_ite (apart_verifyAbort (apart_modVerify h)) (apart_abortStream h))
theorem apart_closeLeftRestore (h : Apart b z s) : Apart b z (closeLeftRestore s b) := by
  unfold closeLeftRestore
  split
  · exact apart_answerRestore (apart_setRestoreRuns h)
  · exact h
theorem apart_closeLeftVerify (h : Apart b z s) : Apart b z (closeLeftVerify s b) := by
  unfold closeLeftVerify
  split
  · exact apart_answerVerify (apart_setVerifyRuns h)
  · exact h
theorem apart_threadedGood {cls : Nat} {wp : Bool} (h : Apart b z s) : Apart b z (threadedGood s b cls wp) := h.of_frame (by simp)
theorem apart_threadedBad (h : Apart b z s) : Apart b z (threadedBad s b) := h.of_frame (by simp)
theorem apart_loadFailed {f : Drive → Drive} (h : Apart b z s) : Apart b z (loadFailed s b f) := h.of_frame (by simp)
theorem apart_unloadDone (h : Apart b z s) : Apart b z (unloadDone s b) := h.of_frame (by simp)
theorem apart_statusPresent {l : Option Label} {threaded : Bool} {cls : Nat} {wp : Bool} (h : Apart b z s) : Apart b z (statusPresent s b
    l threaded cls wp) := h.of_frame (by simp)
theorem apart_statusAbsent (h : Apart b z s) : Apart b z (statusAbsent s b) := h.of_frame (by simp)
theorem apart_positionReported {frame : Nat} (h : Apart b z s) : Apart b z (positionReported s b frame) :=
  apart_ite (apart_ite (apart_openingEnds h) (apart_openingDone h)) (apart_verifyArrived (apart_restoreArrived h))
theorem apart_locateBlank {a : Nat} (h : Apart b z s) : Apart b z (locateBlank s b a) :=
  apart_ite (apart_openingEnds h) (apart_ite (apart_takeEnding h) (apart_verifyEnds h))
theorem apart_readFailed {block : Nat} (h : Apart b z s) : Apart b z (readFailed s b block) :=
  apart_ite (apart_restoreReadFailed h) (apart_verifyReadFailed h)
theorem apart_commitRecord {f : Flight} {r : Rec} (h : Apart b z s) : Apart b z (commitRecord s b f r) := by
  unfold commitRecord
  exact apart_modStream (apart_releaseDesc (apart_modDriveVolume h))
theorem apart_commitTaken {f : Flight} {later : List Flight} (h : Apart b z s) : Apart b z (commitTaken s b f later) := by
  unfold commitTaken
  dsimp only
  split
  · exact apart_offerBlocks (apart_testSyncs (apart_testCommitNotice (apart_commitRecord (apart_modDrive h))))
  · exact apart_modDrive h
theorem apart_askGap {r last : Nat} (h : Apart b z s) : Apart b z (askGap s b r last) :=
  apart_ite (apart_earlyWarning (apart_modDrive h)) (apart_mediumEnd h)
theorem apart_faultTaken {f : Flight} {later : List Flight} (h : Apart b z s) : Apart b z (faultTaken s b f later) :=
  apart_ite (apart_testSyncs (apart_giveUpRecords (apart_modDriveVolume (apart_modStream (apart_modDrive h))))) (apart_ite
    (apart_streamFault (apart_modDriveVolume (apart_modStream (apart_modDrive h)))) (apart_ite (apart_mediumEnd (apart_modDriveVolume
    (apart_modStream (apart_modDrive h)))) (apart_askGap (apart_modDriveVolume (apart_modStream (apart_modDrive h))))))
theorem apart_gapTaken (h : Apart b z s) : Apart b z (gapTaken s b) := apart_offerBlocks (apart_modDriveVolume (apart_modDrive h))
theorem apart_dataTaken {block : Nat} {h : TapeHeader} {stored : List Byte} (hz : Apart b z s) : Apart b z (dataTaken s b block h stored)
    :=
  apart_ite (apart_restoreData (apart_modDrive hz)) (apart_verifyData (apart_modDrive hz))
theorem apart_readFaulted {block : Nat} (h : Apart b z s) : Apart b z (readFaulted s b block) := apart_readFailed (apart_modDrive h)
theorem apart_readIssued {r : RestoreRun} {id : Option Nat} (h : Apart b z s) : Apart b z (readIssued s b r id) := by
  unfold readIssued
  dsimp only
  split
  · exact apart_modDrive (apart_modRestore (apart_buffer h))
  · split
    · exact apart_modDrive (apart_modStaged (apart_buffer h))
    · exact h
theorem apart_expandReady {id : Option Nat} (h : Apart b z s) : Apart b z (expandReady b id s) :=
  apart_restoreAdvance (apart_modRestore h)
end

/-! ### The commands -/

/-- Whatever a meaning comes to, the bay beside b is as it was. -/
def ApartAfter (b : Bay) (s : State) (r : Result) : Prop := ∀ t, r = .next t → Apart b s t

section
variable {b : Bay} {s u : State}

theorem apartAfter_next (h : Apart b s u) : ApartAfter b s (.next u) := fun t ht => by
  cases ht
  exact h
theorem apartAfter_finish (h : Apart b s u) : ApartAfter b s (finish u) := apartAfter_next (h.trans ⟨rfl, rfl, rfl, rfl, rfl⟩)
theorem apartAfter_finishCredit (h : Apart b s u) : ApartAfter b s (finishCredit u) := apartAfter_finish (h.of_frame (by simp))
theorem apartAfter_ite {c : Prop} [Decidable c] {x y : Result} (hx : ApartAfter b s x) (hy : ApartAfter b s y) :
    ApartAfter b s (if c then x else y) := by
  split
  · exact hx
  · exact hy
theorem apartAfter_request {p : Port} {tag : Byte} {k : ReqKind} {f : State → State} (hf : ∀ u, Apart b s u → Apart b s (f u)) :
    ApartAfter b s (request s p tag k f) := by
  intro t ht
  rcases request_cases ht with hs | rfl
  · rw [eq_exceptPorts hs]
    exact ⟨rfl, rfl, rfl, rfl, rfl⟩
  · exact apartAfter_finish (hf _ (apart_openTag (.refl b s))) _ rfl
theorem apartAfter_admission {p : Port} {tag : Byte} {k : ReqKind} {g : State → Result} (hg : ∀ u, Apart b s u → ApartAfter b s (g u)) :
    ApartAfter b s (match admission s p tag k with
      | .stopped t => finish t
      | .taken t => g t) := by
  split
  · rename_i t ht
    refine apartAfter_finish ?_
    rw [eq_exceptPorts (admission_stopped ht)]
    exact ⟨rfl, rfl, rfl, rfl, rfl⟩
  · rename_i t ht
    rw [admission_open ht]
    exact hg _ (apart_openTag (.refl b s))
theorem apart_unlessReleased {p : Port} {tag : Byte} {k : ReqKind} {x : Option Bay} {f : State → State} (h : Apart b s u)
    (hf : Apart b s (f u)) : Apart b s (unlessReleased u p tag k x f) := by
  unfold unlessReleased
  split
  · exact apart_ite (apart_refuse h) hf
  · exact hf
theorem apart_onStream {p : Port} {tag : Byte} {k : ReqKind} {stream : Byte} {bad : Bool} {f : State → Bay → State} (h : Apart b s u)
    (hb : bayOf stream = some b) (hf : Apart b s (f u b)) : Apart b s (onStream u p tag k stream bad f) := by
  unfold onStream
  rw [hb]
  exact apart_ite (apart_refuse h) (apart_ite hf (apart_refuse h))
end

section
variable {b : Bay} {s : State}

theorem apartAfter_readAllocationComplete : ApartAfter b s (execReadAllocationComplete b s) := by
  unfold execReadAllocationComplete
  split
  · exact apartAfter_ite (apartAfter_finish (apart_readIssued (.refl b s))) (apartAfter_next (.refl b s))
  · exact apartAfter_next (.refl b s)
theorem apartAfter_expandAllocationComplete : ApartAfter b s (execExpandAllocationComplete b s) := by
  unfold execExpandAllocationComplete
  split
  · exact apartAfter_finish (apart_onRunOf (apart_buffer (.refl b s)) (fun _ hu => apart_expandReady hu))
  · exact apartAfter_next (.refl b s)
theorem apartAfter_threaded {cls : Nat} {wp : Bool} : ApartAfter b s (execThreaded b cls wp s) :=
  apartAfter_ite (apartAfter_finish (apart_ite (apart_threadedGood (.refl b s)) (apart_threadedBad (.refl b s)))) (apartAfter_next (.refl
    b s))
theorem apartAfter_threadFault : ApartAfter b s (execThreadFault b s) :=
  apartAfter_ite (apartAfter_finish (apart_loadFailed (.refl b s))) (apartAfter_next (.refl b s))
theorem apartAfter_ejected : ApartAfter b s (execEjected b s) := by
  unfold execEjected
  split
  · exact apartAfter_finish (apart_unloadDone (.refl b s))
  · exact apartAfter_finish (apart_loadFailed (.refl b s))
  · exact apartAfter_next (.refl b s)
theorem apartAfter_status {present : Bool} {label : Option Label} {threaded : Bool} {cls : Nat} {wp : Bool} : ApartAfter b s (execStatus
    b present label threaded cls wp s) :=
  apartAfter_ite (apartAfter_finish (apart_afterAudit (apart_bayAnswered (apart_ite (apart_statusPresent (.refl b s)) (apart_statusAbsent
    (.refl b s)))))) (apartAfter_next (.refl b s))
theorem apartAfter_located {block frame : Nat} : ApartAfter b s (execLocated b block frame s) := by
  unfold execLocated
  split
  · exact apartAfter_ite (apartAfter_finishCredit (apart_orderBroken (.refl b s))) (apartAfter_finishCredit (apart_positionReported
      (apart_modDrive (.refl b s))))
  · exact apartAfter_next (.refl b s)
theorem apartAfter_blank : ApartAfter b s (execBlank b s) := by
  unfold execBlank
  split
  · exact apartAfter_finishCredit (apart_locateBlank (apart_modDrive (.refl b s)))
  · exact apartAfter_finishCredit (apart_readFailed (apart_modDrive (.refl b s)))
  · exact apartAfter_next (.refl b s)
theorem apartAfter_committed {block : Nat} : ApartAfter b s (execCommitted b block s) := by
  unfold execCommitted
  split
  · exact apartAfter_finishCredit (apart_commitTaken (.refl b s))
  · exact apartAfter_finishCredit (apart_orderBroken (.refl b s))
  · exact apartAfter_next (.refl b s)
theorem apartAfter_writeFault {block : Nat} : ApartAfter b s (execWriteFault b block s) := by
  unfold execWriteFault
  split
  · exact apartAfter_finishCredit (apart_faultTaken (.refl b s))
  · exact apartAfter_finishCredit (apart_orderBroken (.refl b s))
  · exact apartAfter_next (.refl b s)
theorem apartAfter_gapDone : ApartAfter b s (execGapDone b s) :=
  apartAfter_ite (apartAfter_finishCredit (apart_gapTaken (.refl b s))) (apartAfter_next (.refl b s))
theorem apartAfter_data {block : Nat} {header : TapeHeader} {stored : List Byte} : ApartAfter b s (execData b block header stored s) := by
  unfold execData
  split
  · exact apartAfter_ite (apartAfter_finishCredit (apart_orderBroken (.refl b s))) (apartAfter_ite (apartAfter_finishCredit
      (apart_dataTaken (.refl b s))) (apartAfter_finishCredit (apart_readFaulted (.refl b s))))
  · exact apartAfter_next (.refl b s)
theorem apartAfter_readFault {block : Nat} : ApartAfter b s (execReadFault b block s) := by
  unfold execReadFault
  split
  · exact apartAfter_finishCredit (apart_readFaulted (.refl b s))
  · exact apartAfter_next (.refl b s)
theorem apartAfter_fault : ApartAfter b s (execFault b s) :=
  apartAfter_ite (apartAfter_finishCredit (apart_bayDown (.refl b s))) (apartAfter_next (.refl b s))
theorem apartAfter_replyTimerExpiry : ApartAfter b s (execReplyTimerExpiry b s) :=
  apartAfter_ite (apartAfter_finishCredit (apart_bayDown (.refl b s))) (apartAfter_next (.refl b s))
theorem apartAfter_unloadOwedMark : ApartAfter b s (execUnloadOwedMark b s) :=
  apartAfter_ite (apartAfter_finish (apart_markOwed (.refl b s))) (apartAfter_next (.refl b s))
theorem apartAfter_restoreRunClose : ApartAfter b s (execRestoreRunClose b s) := by
  unfold execRestoreRunClose
  split
  · exact apartAfter_ite (apartAfter_finish (apart_closeRestore (.refl b s))) (apartAfter_finish (apart_closeLeftRestore (.refl b s)))
  · exact apartAfter_finish (apart_closeLeftRestore (.refl b s))
theorem apartAfter_verifyRunClose : ApartAfter b s (execVerifyRunClose b s) := by
  unfold execVerifyRunClose
  split
  · exact apartAfter_ite (apartAfter_finish (apart_closeVerify (.refl b s))) (apartAfter_finish (apart_closeLeftVerify (.refl b s)))
  · exact apartAfter_finish (apart_closeLeftVerify (.refl b s))
theorem apartAfter_commitLatencyTimerExpiry : ApartAfter b s (execCommitLatencyTimerExpiry b s) :=
  apartAfter_ite (apartAfter_next (.refl b s)) (apartAfter_ite (apartAfter_finish (apart_commitNotice (.refl b s))) (apartAfter_finish
    (apart_modStream (.refl b s))))
theorem apartAfter_streamClose : ApartAfter b s (execStreamClose b s) :=
  apartAfter_ite (apartAfter_finish (apart_closeStream (.refl b s))) (apartAfter_next (.refl b s))
theorem apartAfter_syncAnswered : ApartAfter b s (execSyncAnswered b s) := apartAfter_finish (apart_testSyncs (.refl b s))

/-! ### The requests that name a bay or its stream -/

theorem apartAfter_openStream {p : Port} {tag bay mode shrink : Byte} {n : Word} (hb : bayOf bay = some b) :
    ApartAfter b s (execOpenStream p tag bay mode shrink n s) := by
  refine apartAfter_request fun u hu => apart_unlessReleased hu ?_
  rw [hb]
  dsimp only
  split
  · exact apart_refuse hu
  · exact apart_refuse hu
  · exact apart_acceptOpen hu
  · exact apart_refuse hu
theorem apartAfter_readRecords {p : Port} {tag bay form stop : Byte} {count : Half} {first k e : Word} (hb : bayOf bay = some b) :
    ApartAfter b s (execReadRecords p tag bay form stop count first k e s) := by
  refine apartAfter_request fun u hu => apart_unlessReleased hu ?_
  rw [hb]
  dsimp only
  split
  · exact apart_refuse hu
  · exact apart_decideRead hu
theorem apartAfter_verify {p : Port} {tag bay form : Byte} {a n : Word} (hb : bayOf bay = some b) :
    ApartAfter b s (execVerify p tag bay form a n s) := by
  refine apartAfter_request fun u hu => apart_unlessReleased hu ?_
  rw [hb]
  dsimp only
  split
  · exact apart_refuse hu
  · exact apart_decideVerify hu
theorem apartAfter_abort {p : Port} {tag bay : Byte} (hb : bayOf bay = some b) : ApartAfter b s (execAbort p tag bay s) := by
  refine apartAfter_admission fun u hu => apartAfter_finishCredit ?_
  rw [hb]
  exact apart_ite (apart_refuse hu) (apart_abortBay hu)
/-- A port's write goes to the bay it names. -/
theorem writeStream_eq {p : Port} {stream : Byte} {c : Bay} (hb : bayOf stream = some b) (hc : writeStream s p stream = some c) : c = b
    := by
  rw [writeStream, hb, Option.filter_eq_some_iff] at hc
  exact (Option.some.inj hc.1).symm
theorem apartAfter_writeRecord {p : Port} {stream kind : Byte} {raw : List Byte} (hb : bayOf stream = some b) :
    ApartAfter b s (execWriteRecord p stream kind raw s) := by
  have h := Apart.refl b s
  unfold execWriteRecord
  refine apartAfter_ite (apartAfter_next h) (apartAfter_ite (apartAfter_finish (apart_queueWriteRefused h)) ?_)
  split
  · exact apartAfter_finish (apart_queueWriteRefused h)
  · rename_i c hc
    cases writeStream_eq hb hc
    exact apartAfter_ite (apartAfter_finish (apart_notOpenWrite h)) (apartAfter_ite (apartAfter_finish (apart_haltWrite h))
      (apartAfter_ite (apartAfter_finish (apart_haltWrite h)) (apartAfter_finish (apart_acceptRecord h))))
theorem apartAfter_writeMark {p : Port} {stream : Byte} (hb : bayOf stream = some b) : ApartAfter b s (execWriteMark p stream s) := by
  have h := Apart.refl b s
  unfold execWriteMark
  refine apartAfter_ite (apartAfter_next h) (apartAfter_ite (apartAfter_finish (apart_queueWriteRefused h)) ?_)
  split
  · exact apartAfter_finish (apart_queueWriteRefused h)
  · rename_i c hc
    cases writeStream_eq hb hc
    exact apartAfter_ite (apartAfter_finish (apart_notOpenWrite h)) (apartAfter_ite (apartAfter_finish (apart_haltWrite h))
      (apartAfter_ite (apartAfter_finish (apart_haltWrite h)) (apartAfter_finish (apart_acceptMark h))))
theorem apartAfter_resumeStream {p : Port} {tag stream : Byte} (hb : bayOf stream = some b) :
    ApartAfter b s (execResumeStream p tag stream s) :=
  apartAfter_request fun _ hu => apart_onStream hu hb
    (apart_ite (apart_offerEngine (apart_modStream (apart_answer hu))) (apart_modStream (apart_answer hu)))
theorem apartAfter_sync {p : Port} {tag stream : Byte} (hb : bayOf stream = some b) : ApartAfter b s (execSync p tag stream s) := by
  refine apartAfter_request fun u hu => apart_onStream hu hb ?_
  dsimp only
  split
  · exact apart_answerSync hu
  · exact apart_modStream hu
theorem apartAfter_closeStream {p : Port} {tag stream mode : Byte} (hb : bayOf stream = some b) :
    ApartAfter b s (execCloseStream p tag stream mode s) :=
  apartAfter_admission fun _ hu => apartAfter_finishCredit (apart_onStream hu hb
    (apart_ite (apart_closeStream (apart_modStream hu)) (apart_ite (apart_discardStream hu) (apart_drainStream hu))))
end

/-- A command for bay b leaves the bay beside it alone. -/
theorem exec_apart {c : Instr} {b : Bay} (hb : bayNamed c = some b) (s : State) : ApartAfter b s (exec c s) := by
  cases c with
  | openStream => exact apartAfter_openStream hb
  | writeRecord => exact apartAfter_writeRecord hb
  | writeMark => exact apartAfter_writeMark hb
  | resumeStream => exact apartAfter_resumeStream hb
  | sync => exact apartAfter_sync hb
  | closeStream => exact apartAfter_closeStream hb
  | readRecords => exact apartAfter_readRecords hb
  | verify => exact apartAfter_verify hb
  | abort => exact apartAfter_abort hb
  | threaded => cases hb; exact apartAfter_threaded
  | threadFault => cases hb; exact apartAfter_threadFault
  | ejected => cases hb; exact apartAfter_ejected
  | status => cases hb; exact apartAfter_status
  | located => cases hb; exact apartAfter_located
  | blank => cases hb; exact apartAfter_blank
  | committed => cases hb; exact apartAfter_committed
  | writeFault => cases hb; exact apartAfter_writeFault
  | gapDone => cases hb; exact apartAfter_gapDone
  | data => cases hb; exact apartAfter_data
  | readFault => cases hb; exact apartAfter_readFault
  | fault => cases hb; exact apartAfter_fault
  | replyTimerExpiry => cases hb; exact apartAfter_replyTimerExpiry
  | readAllocationComplete => cases hb; exact apartAfter_readAllocationComplete
  | expandAllocationComplete => cases hb; exact apartAfter_expandAllocationComplete
  | commitLatencyTimerExpiry => cases hb; exact apartAfter_commitLatencyTimerExpiry
  | unloadOwedMark => cases hb; exact apartAfter_unloadOwedMark
  | streamClose => cases hb; exact apartAfter_streamClose
  | syncAnswered => cases hb; exact apartAfter_syncAnswered
  | restoreRunClose => cases hb; exact apartAfter_restoreRunClose
  | verifyRunClose => cases hb; exact apartAfter_verifyRunClose
  | powerOn | boardReset | linkUp | linkDown | linkReset | move | load | loadScratch | unload | audit | recover | releaseVolume |
      reportElements | reportVolumes | reportStatus | reportSettings | configure | settingsStoreWriteComplete | unknownRequest |
      fetchComplete | carryComplete | placeComplete | homingComplete | auditSlotReading | motionTimerExpiry | serviceDoorOpen |
      serviceDoorClosed | mailDoorOpen | mailDoorClosed | pickerTakeWork | owedUnloadQueued | shrinkComplete | expandDeliverComplete |
      expandCheckComplete | engineTakeItem | verifyReservationMet | frameSent | claimHoldTimerExpiry =>
    exact absurd hb nofun

/-- Settles O5: each operation of a command for a bay acts on that bay's blocks, or on blocks that are no bay's. -/
theorem otherBayUntouched : Obligations.OtherBayUntouched := by
  intro c b s t hb hx
  obtain ⟨hs, hr, hv, ho, hq⟩ := exec_apart hb s t hx
  exact ⟨hs, hr, hv, ho, hq⟩

end Sys2Proof.Machine
end

section
/-! PROOFS. The machine's step, and what reset leaves. -/

namespace Sys2Proof.Machine

/-- Settles O1. -/
theorem stepRunsFrontCommand : Obligations.StepRunsFrontCommand := by
  intro c rest s h
  simp only [step, h]

theorem step_of_empty {s : State} (h : s.pending = []) : step s = .next (tick s) := by
  simp only [step, h]

/-- Settles O2. -/
theorem emptyQueuePassesOneMillisecond : Obligations.EmptyQueuePassesOneMillisecond := by
  intro s h
  refine ⟨tick s, step_of_empty h, rfl, ?_, ?_, ?_, fun _ => rfl, rfl, fun _ => rfl, rfl, rfl, rfl, ?_, ?_, ?_⟩
  · rintro (_ | _) <;> rfl
  · rintro (_ | _) <;> rfl
  · rintro (_ | _ | _) <;> rfl
  · rintro (_ | _) <;> rfl
  · rintro (_ | _) <;> rfl
  · rintro (_ | _ | _) <;> rfl

theorem reset_inRange : State.reset.inRange :=
  ⟨fun p => by cases p <;> exact PortCtl.reset_inRange, Picker.inRange_of_empty rfl rfl, id, fun _ => rfl⟩

theorem reset_tablesHold : State.reset.tablesHold := by
  refine ⟨?_, trivial, by decide⟩
  simp [State.reset, State.poweredOn, resetElements, Function.comp_def]

theorem reset_creditHolds : State.reset.creditHolds := by
  obtain ⟨hu, hd⟩ := aside_none (s := State.reset) rfl
  refine ⟨by decide, ?_, by simp [State.reset, State.poweredOn]⟩
  rw [hu, hd]
  exact layout_lawful _

/-- Settles O9. -/
theorem invariantsAtReset : Obligations.InvariantsAtReset := ⟨reset_tablesHold, reset_creditHolds, reset_inRange⟩

/-- Settles O10: reset is a value, and each part of it is read off. -/
theorem resetValues : Obligations.ResetValues := by
  refine ⟨rfl, rfl, rfl, rfl, rfl, rfl, rfl, rfl, rfl, rfl, rfl, rfl, rfl, rfl, ?_, ?_, ?_, rfl, rfl, rfl, rfl, ?_, rfl, rfl, rfl, rfl, rfl,
    rfl, ?_, rfl, rfl, rfl, rfl⟩
  · rintro (_ | _) <;> rfl
  · rintro (_ | _) <;> exact ⟨rfl, rfl, rfl, rfl, rfl, rfl, rfl, rfl, rfl⟩
  · rintro (_ | _) <;> exact ⟨rfl, rfl⟩
  · rintro (_ | _ | _) <;> rfl
  · rintro (_ | _ | _) <;> rfl
end Sys2Proof.Machine
end

section
/-! PROOFS. Requests that go no further, reports without a condition, the numbers of move entries, and the records that a reading leaves. -/

namespace Sys2Proof.Machine

/-! ### Requests that go no further (R169, R173, R185) -/

theorem request_stopped {s t : State} {p : Port} {tag : Byte} {k : ReqKind} {f : State → State} (h : admission s p tag k = .stopped t) :
    request s p tag k f = finish t := by
  simp only [request, h]

/-- Nothing of the request is examined but its port and its tag. -/
theorem exec_stopped {c : Instr} {s t : State} {p : Port} {tag : Byte} {k : ReqKind} (hc : tagOf c = some (p, tag, k))
    (h : admission s p tag k = .stopped t) : exec c s = finish t := by
  cases c <;> cases hc
  case closeStream =>
    show execCloseStream _ _ _ _ s = _
    simp only [execCloseStream, h]
  case abort =>
    show execAbort _ _ _ s = _
    simp only [execAbort, h]
  all_goals exact request_stopped h

/-- Settles O20. -/
theorem taggedRequestsAdmitted : Obligations.TaggedRequestsAdmitted := by
  intro c s p tag k hc
  refine ⟨fun hd => exec_stopped hc ?_, fun hu h7 => exec_stopped hc ?_, fun hu h7 ho => exec_stopped hc ?_⟩
  · simp [admission, hd]
  · simp [admission, hu, h7]
  · have h7 : ¬ 7 < tag.toNat := by omega
    simp [admission, hu, h7, Option.isSome_iff_ne_none, ho]

/-! ### Numbers of move entries (R33) -/

/-- A search that finds no free number has met every number of its range in the queue. -/
theorem freeNumber_spec (q : List MoveEntry) (fuel n : Nat) (hn : n < 256) : freeNumber q fuel n < 256
    ∧ ((∀ e ∈ q, e.number ≠ freeNumber q fuel n) ∨ ∀ i < fuel, (n + i) % 256 ∈ q.map (·.number)) := by
  induction fuel generalizing n with
  | zero => exact ⟨hn, .inr fun i hi => absurd hi (Nat.not_lt_zero i)⟩
  | succ fuel ih =>
    unfold freeNumber
    split
    · rename_i hany
      obtain ⟨hlt, h⟩ := ih ((n + 1) % 256) (Nat.mod_lt _ (by decide))
      refine ⟨hlt, h.imp_right fun h i hi => ?_⟩
      cases i with
      | zero => simpa [Nat.mod_eq_of_lt hn] using hany
      | succ i =>
        have := h i (by omega)
        rwa [Nat.mod_add_mod, show n + 1 + i = n + (i + 1) by omega] at this
    · rename_i hany
      exact ⟨hn, .inl (by simpa using hany)⟩

/-- Fewer than 256 entries leave a number free. -/
theorem freeNumber_free (q : List MoveEntry) (n : Nat) (hq : q.length < 256) (hn : n < 256) :
    ∀ e ∈ q, e.number ≠ freeNumber q (q.length + 1) n := by
  rcases (freeNumber_spec q (q.length + 1) n hn).2 with h | h
  · exact h
  · have hnodup : ((List.range (q.length + 1)).map fun i => (n + i) % 256).Nodup := by
      refine List.Nodup.map_on (fun i hi j hj hij => ?_) List.nodup_range
      simp only [List.mem_range] at hi hj
      omega
    have hsub : ((List.range (q.length + 1)).map fun i => (n + i) % 256) ⊆ q.map (·.number) := by
      intro x hx
      obtain ⟨i, hi, rfl⟩ := List.mem_map.mp hx
      exact h i (List.mem_range.mp hi)
    have hle := (hnodup.subperm hsub).length_le
    simp only [List.length_map, List.length_range] at hle
    omega

/-- What an entry accepted claims. -/
theorem acceptEntry_elements (s : State) (q : Requester) (kind : MoveKind) (src : Nat) (dst : Option Nat) (l : Option Label) (ph : Phase) :
    (acceptEntry s q kind src dst l ph).elements = s.elements.map fun e => if e.pea = src ∨ some e.pea = dst then
      { e with claim := some (freeNumber s.picker.queue (s.picker.queue.length + 1) s.picker.nextMove) } else e := by
  cases dst with
  | none =>
    refine List.map_congr_left fun e _ => ?_
    simp
  | some d =>
    show List.map _ (List.map _ _) = _
    rw [List.map_map]
    refine List.map_congr_left fun e _ => ?_
    by_cases hs : e.pea = src
    · by_cases hd : src = d <;> simp [hs, hd]
    · by_cases hd : e.pea = d
      · have hne : d ≠ src := hd ▸ hs
        simp [hd, hne]
      · simp [hs, hd]

/-- Settles O25. -/
theorem entriesTakeFreeNumbers : Obligations.EntriesTakeFreeNumbers := by
  intro s q kind src dst l ph hq hn
  refine ⟨freeNumber s.picker.queue (s.picker.queue.length + 1) s.picker.nextMove, (freeNumber_spec _ _ _ hn).1,
    freeNumber_free _ _ hq hn, ?_, acceptEntry_elements s q kind src dst l ph, ?_, ?_⟩
  · cases dst <;> rfl
  · cases dst <;> rfl
  · cases dst <;> rfl

/-! ### The records a reading leaves (R12, R22) -/

/-- No record but that of the label read is located at the element. -/
def State.oneRecordAt (s : State) (pea : Nat) (read : Option Label) : Prop :=
  ∀ v ∈ s.store.volumes, v.location = .element pea → some v.label = read

theorem oneRecordAt_of_store {s t : State} {pea : Nat} {read : Option Label} (h : s.oneRecordAt pea read) (ht : t.store = s.store) :
    t.oneRecordAt pea read := by
  unfold State.oneRecordAt
  rw [ht]
  exact h

theorem displaceFrom_oneRecordAt (s : State) (pea : Nat) (read : Option Label) : (displaceFrom s pea read).oneRecordAt pea read := by
  intro v hv hloc
  obtain ⟨w, -, rfl⟩ := List.mem_map.mp hv
  split at hloc
  · cases hloc
  · rename_i hn
    rw [if_neg hn]
    simpa [hloc] using hn

theorem mem_insertVolume {v w : Volume} {vs : List Volume} (h : w ∈ insertVolume v vs) : w = v ∨ w ∈ vs := by
  induction vs with
  | nil => exact .inl (List.mem_singleton.mp h)
  | cons u vs ih =>
    unfold insertVolume at h
    split at h
    · exact List.mem_cons.mp h
    · rcases List.mem_cons.mp h with rfl | h
      · exact .inr List.mem_cons_self
      · exact (ih h).imp_right (List.mem_cons_of_mem u)

theorem mem_createVolume {w : Volume} {vs us : List Volume} {l : Label} {pea : Nat} (h : createVolume vs l pea = some us) (hw : w ∈ us) :
    w = newVolume l pea ∨ w ∈ vs := by
  unfold createVolume at h
  split at h
  · cases h
    exact mem_insertVolume hw
  · split at h
    · cases h
      exact (mem_insertVolume hw).imp_right List.mem_of_mem_filter
    · cases h

theorem setLocation_oneRecordAt {s : State} {l : Label} {pea : Nat} (h : s.oneRecordAt pea (some l)) :
    (setLocation s l pea).oneRecordAt pea (some l) := by
  intro v hv hloc
  obtain ⟨w, hw, rfl⟩ := List.mem_map.mp hv
  dsimp only at hloc ⊢
  split
  · rename_i hl
    exact congrArg some hl
  · rename_i hl
    rw [if_neg hl] at hloc
    exact h w hw hloc

theorem reconcile_oneRecordAt (s : State) (pea : Nat) (read : Option Label) (readDone : List Nat) :
    (reconcile s pea read readDone).oneRecordAt pea read := by
  have h1 := displaceFrom_oneRecordAt s pea read
  unfold reconcile
  extract_lets s1
  split
  · exact h1
  · rename_i l
    split
    · split
      · rename_i us hus
        intro v hv hloc
        rcases mem_createVolume hus hv with rfl | hv
        · rfl
        · exact h1 v hv hloc
      · exact h1
    · rename_i v _
      split
      · exact h1
      · have h2 : (setLocation (vacate s1 v.location pea) l pea).oneRecordAt pea (some l) :=
          setLocation_oneRecordAt (oneRecordAt_of_store h1 (by simp [s1]))
        dsimp only
        split
        · exact h2
        · exact oneRecordAt_of_store h2 (by simp)

/-- Settles O15. -/
theorem readingLeavesOneRecord : Obligations.ReadingLeavesOneRecord := reconcile_oneRecordAt

/-! ### Reports whose condition does not stand -/

theorem runningMotion_none {s : State} (h : s.picker.motion = none) : s.runningMotion = none := by
  unfold State.runningMotion
  split
  · rfl
  · exact h

theorem matchWrite_absent {fs : List Flight} {n : Nat} (h : (fs.all fun f => f.block ≠ n) = true) : matchWrite fs n = .absent := by
  cases fs with
  | nil => rfl
  | cons f fs =>
    obtain ⟨hf, hfs⟩ : ¬ f.block = n ∧ ∀ g ∈ fs, ¬ g.block = n := by simpa using h
    simpa [matchWrite, hf] using hfs

/-- Settles O12. -/
theorem unfoundedReportsIgnored : Obligations.UnfoundedReportsIgnored := by
  intro s p b
  refine ⟨?_, ?_, ?_, ?_, ?_, ?_, ?_, ?_, ?_, ?_, ?_, ?_, ?_, ?_, ?_, ?_, ?_, ?_⟩
  · intro h
    simp [exec, execLinkUp, h]
  · intro h
    simp [exec, execLinkDown, h]
  · intro h
    simp [exec, execFrameSent, h]
  · intro h
    simp [exec, execClaimHoldTimerExpiry, h]
  · intro h
    exact ⟨fun c w => by simp [exec, execThreaded, h], by simp [exec, execThreadFault, h]⟩
  · intro h
    show execEjected b s = _
    unfold execEjected
    split
    · exact absurd ‹_› (h false)
    · exact absurd ‹_› (h true)
    · rfl
  · intro h pr l th c w
    simp [exec, execStatus, h]
  · intro h
    exact ⟨fun n f => by simp [exec, execLocated, h], by simp [exec, execBlank, h], fun n h' x => by simp [exec, execData, h],
      fun n => by simp [exec, execReadFault, h]⟩
  · intro n h
    exact ⟨by simp [exec, execCommitted, matchWrite_absent h], by simp [exec, execWriteFault, matchWrite_absent h]⟩
  · intro h
    simp [exec, execGapDone, h]
  · intro h
    simp [exec, execFault, h]
  · intro h
    simp [exec, execReplyTimerExpiry, h]
  · intro h
    simp [exec, execCommitLatencyTimerExpiry, h]
  · intro h
    simp [exec, execMotionTimerExpiry, h]
  · intro h
    have h := runningMotion_none h
    exact ⟨fun g l => by simp [exec, execFetchComplete, h], by simp [exec, execCarryComplete, h],
      fun o => by simp [exec, execPlaceComplete, h], by simp [exec, execHomingComplete, h],
      fun r => by simp [exec, execAuditSlotReading, h]⟩
  · intro h
    exact ⟨by simp [exec, execShrinkComplete, h], by simp [exec, execExpandDeliverComplete, h],
      by simp [exec, execExpandCheckComplete, h]⟩
  · intro h
    simp [exec, execEngineTakeItem, h]
  · intro hw hr
    simp [exec, execSettingsStoreWriteComplete, State.releaseInStore, hw, hr]

end Sys2Proof.Machine
end

section
/-! PROOFS. Logical element addresses (R5, R6), and the scratch choice (R19, R20). -/

namespace Sys2Proof.Machine

/-! ### Installed and visible elements -/

theorem installed_iff {s : State} (h : s.elements.map (·.pea) = installedPeas s.strap) (q : Nat) :
    s.installed q = true ↔ q ∈ installedPeas s.strap := by
  rw [← h]
  simp [State.installed, State.element]

/-- Beside the storage slots there are the picker, the bays and the mail slots. -/
theorem mem_installedPeas_low {strap q : Nat} (hq : q < 16) (h : q ∈ installedPeas strap) : q < 3 ∨ isMail q = true := by
  simp only [installedPeas, List.mem_append, List.mem_map] at h
  rcases h with (h | h) | ⟨i, -, rfl⟩
  · exact .inl (by simp at h; omega)
  · split at h
    · cases h
    · exact .inr (by simp at h; simp [isMail]; omega)
  · omega

theorem mem_installedPeas_of_lt {strap q : Nat} (h : q < 3) : q ∈ installedPeas strap := by
  simp only [installedPeas, List.mem_append]
  exact .inl (.inl (by simp; omega))

theorem isStorage_of_lt {q : Nat} (h : q < 16) : isStorage q = false := by
  simp [isStorage]
  omega

theorem visible_of_low {s : State} (p : Port) {q : Nat} (hq : q < 16) :
    s.visible p q = s.installed q := by
  simp [State.visible, visibleUnder, isStorage_of_lt hq]

theorem installedPeas_nodup (strap : Nat) : (installedPeas strap).Nodup := by
  have hs : ((List.range (if strap = 0 then 24 else if strap = 1 then 36 else 48)).map (· + 16)).Nodup :=
    List.Nodup.map (fun _ _ h => Nat.add_right_cancel h) List.nodup_range
  have hl : ([0, 1, 2] ++ (if strap = 3 then [] else [4, 5, 6, 7])).Nodup := by split <;> decide
  refine List.Nodup.append hl hs fun q hq hq' => ?_
  obtain ⟨i, -, rfl⟩ := List.mem_map.mp hq'
  split at hq <;> simp at hq

/-- The slots that a port's storage LEAs name are those visible to it. -/
theorem mem_storageOrder {s : State} (h : s.elements.map (·.pea) = installedPeas s.strap) (p : Port) (q : Nat) :
    q ∈ storageOrder s p ↔ isStorage q = true ∧ s.visible p q = true := by
  simp only [storageOrder, sharedSlots, storageSlots, List.mem_append, List.mem_filter, State.visible, Bool.and_eq_true, visibleUnder,
    installed_iff h, decide_eq_true_eq]
  constructor
  · rintro (⟨⟨hi, hs⟩, ha⟩ | ⟨⟨hi, hs⟩, ha⟩) <;> simp [hi, hs, ha]
  · rintro ⟨hs, hi, hv⟩
    rw [if_pos hs] at hv
    simpa [hi, hs] using hv

theorem storageOrder_nodup (s : State) (p : Port) : (storageOrder s p).Nodup := by
  have hn : (storageSlots s.strap).Nodup := (installedPeas_nodup _).filter _
  refine List.Nodup.append (hn.filter _) (hn.filter _) fun q hq hq' => ?_
  have ho := (List.mem_filter.mp hq).2
  have hs := (List.mem_filter.mp hq').2
  simp only [decide_eq_true_eq] at ho hs
  cases ho.symm.trans hs

/-! ### R5 and R6 -/

theorem findIdx?_eq_of_nodup {l : List Nat} (hl : l.Nodup) {i q : Nat} (h : l[i]? = some q) : l.findIdx? (· = q) = some i := by
  obtain ⟨hi, rfl⟩ := List.getElem?_eq_some_iff.mp h
  rw [List.findIdx?_eq_some_iff_getElem]
  refine ⟨hi, by simp, fun j hj hjq => ?_⟩
  have := (List.Nodup.getElem_inj_iff hl).mp (of_decide_eq_true hjq)
  omega

theorem encode_of_decode {s : State} (h : s.elements.map (·.pea) = installedPeas s.strap) {p : Port} {lea q : Nat}
    (hd : decodeLea s p lea = some q) : s.installed q = true ∧ s.visible p q = true ∧ encodeLea s p q = some lea := by
  have low : lea < 16 → lea ∈ installedPeas s.strap → s.installed lea = true ∧ s.visible p lea = true ∧ encodeLea s p lea = some lea := by
    intro hlt hm
    have hi := (installed_iff h lea).mpr hm
    exact ⟨hi, (visible_of_low p hlt).trans hi, by simp [encodeLea, isStorage_of_lt hlt, hi]⟩
  unfold decodeLea at hd
  split at hd
  · cases hd
    exact low (by omega) (mem_installedPeas_of_lt ‹_›)
  · split at hd
    · split at hd
      · rename_i hm
        cases hd
        simp only [Bool.and_eq_true, List.contains_iff_mem, mailSlots, List.mem_filter] at hm
        exact low ‹_› hm.2.1
      · cases hd
    · obtain ⟨hs, hv⟩ := (mem_storageOrder h p q).mp (List.mem_of_getElem? hd)
      refine ⟨by simpa [State.visible] using (Bool.and_eq_true _ _ ▸ hv).1, hv, ?_⟩
      simp only [encodeLea, hs, if_true, findIdx?_eq_of_nodup (storageOrder_nodup s p) hd, Option.map_some]
      congr 1
      omega

theorem decode_of_visible {s : State} (h : s.elements.map (·.pea) = installedPeas s.strap) {p : Port} {q : Nat}
    (hv : s.visible p q = true) : ∃ lea, encodeLea s p q = some lea ∧ decodeLea s p lea = some q := by
  by_cases hlt : q < 16
  · have hi : s.installed q = true := (visible_of_low p hlt) ▸ hv
    refine ⟨q, by simp [encodeLea, isStorage_of_lt hlt, hi], ?_⟩
    have hm := (installed_iff h q).mp hi
    unfold decodeLea
    split
    · rfl
    · have hmail := (mem_installedPeas_low hlt hm).resolve_left ‹_›
      rw [if_pos]
      simp [mailSlots, hm, hmail]
  · have hs : isStorage q = true := by simp [isStorage]; omega
    obtain ⟨i, hi, hq⟩ := List.getElem_of_mem ((mem_storageOrder h p q).mpr ⟨hs, hv⟩)
    have hq : (storageOrder s p)[i]? = some q := List.getElem?_eq_some_iff.mpr ⟨hi, hq⟩
    refine ⟨i + 16, by simp [encodeLea, hs, findIdx?_eq_of_nodup (storageOrder_nodup s p) hq], ?_⟩
    rw [decodeLea, if_neg (by omega), if_neg (by omega), Nat.add_sub_cancel, hq]

theorem encode_of_not_visible {s : State} (h : s.elements.map (·.pea) = installedPeas s.strap) {p : Port} {q : Nat}
    (hv : s.visible p q = false) : encodeLea s p q = none := by
  unfold encodeLea
  split
  · have hn : q ∉ storageOrder s p := fun hq => by
      have := ((mem_storageOrder h p q).mp hq).2
      simp [hv] at this
    rw [Option.map_eq_none_iff, List.findIdx?_eq_none_iff]
    intro x hx
    exact decide_eq_false fun hxq => hn (hxq ▸ hx)
  · rename_i hs
    have hlt : q < 16 := by simpa [isStorage] using hs
    rw [visible_of_low p hlt] at hv
    simp [hv]

/-- Settles O13. -/
theorem elementAddressesInvert : Obligations.ElementAddressesInvert := fun _ _ h =>
  ⟨fun _ _ => encode_of_decode h, fun _ => ⟨decode_of_visible h, encode_of_not_visible h⟩⟩

/-! ### The scratch choice -/

/-- How far a slot stands from the pointer, in the cyclic order of n slots. -/
def fromPointer (ptr n i : Nat) : Nat := if ptr ≤ i then i - ptr else i + n - ptr

/-- The slots with their numbers, from the pointer on and wrapped. -/
def numberedFrom (slots : List Nat) (ptr : Nat) : List (Nat × Nat) :=
  ((List.range slots.length).zip slots).drop ptr ++ ((List.range slots.length).zip slots).take ptr

theorem numbered_getElem? (slots : List Nat) (i k q : Nat) :
    ((List.range slots.length).zip slots)[i]? = some (k, q) ↔ k = i ∧ slots[i]? = some q := by
  rw [List.getElem?_zip_eq_some, List.getElem?_eq_some_iff]
  constructor
  · rintro ⟨⟨_, hk⟩, hq⟩
    exact ⟨by simpa using hk.symm, hq⟩
  · rintro ⟨rfl, hq⟩
    have hlt := (List.getElem?_eq_some_iff.mp hq).1
    exact ⟨⟨by simpa using hlt, by simp⟩, hq⟩

/-- The slot at a distance from the pointer is the one whose number stands at that distance. -/
theorem numberedFrom_getElem? {slots : List Nat} {ptr : Nat} (hp : ptr ≤ slots.length) (m k q : Nat) :
    (numberedFrom slots ptr)[m]? = some (k, q) ↔ m = fromPointer ptr slots.length k ∧ slots[k]? = some q := by
  have hlen : (((List.range slots.length).zip slots).drop ptr).length = slots.length - ptr := by simp
  unfold numberedFrom fromPointer
  rw [List.getElem?_append, hlen]
  split
  · rw [List.getElem?_drop, numbered_getElem?]
    constructor
    · rintro ⟨rfl, hq⟩
      exact ⟨by rw [if_pos (by omega)]; omega, hq⟩
    · rintro ⟨hm, hq⟩
      have hk := (List.getElem?_eq_some_iff.mp hq).1
      have : k = ptr + m := by split at hm <;> omega
      exact ⟨this, this ▸ hq⟩
  · rw [List.getElem?_take]
    constructor
    · split
      · rw [numbered_getElem?]
        rintro ⟨rfl, hq⟩
        exact ⟨by rw [if_neg (by omega)]; omega, hq⟩
      · nofun
    · rintro ⟨hm, hq⟩
      have hk := (List.getElem?_eq_some_iff.mp hq).1
      have hk' : k = m - (slots.length - ptr) ∧ m - (slots.length - ptr) < ptr := by split at hm <;> omega
      rw [if_pos hk'.2, numbered_getElem?]
      exact ⟨hk'.1, hk'.1 ▸ hq⟩

theorem chooseScratch_none {s : State} (hp : s.scratchPointer ≤ (sharedSlots s).length) (h : chooseScratch s = none) :
    ∀ q ∈ sharedSlots s, scratchReady s q = false := by
  intro q hq
  obtain ⟨k, hk, hkq⟩ := List.getElem_of_mem hq
  have hm := (numberedFrom_getElem? hp _ k q).mpr ⟨rfl, List.getElem?_eq_some_iff.mpr ⟨hk, hkq⟩⟩
  simpa using List.find?_eq_none.mp h _ (List.mem_of_getElem? hm)

theorem chooseScratch_first {s : State} (hp : s.scratchPointer ≤ (sharedSlots s).length) {k q : Nat} (h : chooseScratch s = some (k, q)) :
    (sharedSlots s)[k]? = some q ∧ scratchReady s q = true ∧ ∀ j r, (sharedSlots s)[j]? = some r → scratchReady s r = true →
      fromPointer s.scratchPointer (sharedSlots s).length k ≤ fromPointer s.scratchPointer (sharedSlots s).length j := by
  obtain ⟨hready, m, hm, hmk, hbefore⟩ := List.find?_eq_some_iff_getElem.mp h
  obtain ⟨hdist, hkq⟩ := (numberedFrom_getElem? hp m k q).mp (List.getElem?_eq_some_iff.mpr ⟨hm, hmk⟩)
  refine ⟨hkq, hready, fun j r hj hr => ?_⟩
  by_contra hlt
  obtain ⟨hlj, hrj⟩ := List.getElem?_eq_some_iff.mp ((numberedFrom_getElem? hp _ j r).mpr ⟨rfl, hj⟩)
  have hnot : (!scratchReady s
      (numberedFrom (sharedSlots s) s.scratchPointer)[fromPointer s.scratchPointer (sharedSlots s).length j].2) = true :=
    hbefore (fromPointer s.scratchPointer (sharedSlots s).length j) (by omega)
  simp [hrj, hr] at hnot

/-- Settles O14: the search runs through the slots by their distance from the pointer. -/
theorem scratchChoiceIsFirstReady : Obligations.ScratchChoiceIsFirstReady := by
  intro s hp
  refine ⟨chooseScratch_none hp, fun k q h => ?_⟩
  obtain ⟨hkq, hready, hfirst⟩ := chooseScratch_first hp h
  exact ⟨hkq, hready, scratchAfter_lt (chooseScratch_lt h), hfirst⟩

end Sys2Proof.Machine
end

section
/-! PROOFS. The codec: packing to bits and back, the matches that the parse finds, and the expansion of what it wrote (R124 to R130). -/

namespace Sys2Proof.Machine

/-! ### Bits (R125) -/

@[simp] theorem bitsOf_length (w n : Nat) : (bitsOf w n).length = w := by
  simp [bitsOf]

theorem bitsOf_succ (w n : Nat) : bitsOf (w + 1) n = bitsOf w (n / 2) ++ [n.testBit 0] := by
  simp only [bitsOf, List.range_succ, List.map_append, List.map_cons, List.map_nil, Nat.add_sub_cancel, Nat.sub_self]
  congr 1
  refine List.map_congr_left fun k hk => ?_
  have hlt : k < w := List.mem_range.1 hk
  rw [← Nat.testBit_succ, Nat.succ_eq_add_one, show w - 1 - k + 1 = w - k by omega]

theorem bitsNat_concat (bs : List Bool) (b : Bool) : bitsNat (bs ++ [b]) = 2 * bitsNat bs + b.toNat := by
  simp [bitsNat, List.foldl_append]

theorem bitsNat_lt (bs : List Bool) : bitsNat bs < 2 ^ bs.length := by
  induction bs using List.reverseRecOn with
  | nil => simp [bitsNat]
  | append_singleton bs b ih =>
    rw [bitsNat_concat, List.length_append, List.length_singleton, Nat.pow_succ]
    have hb : b.toNat < 2 := Bool.toNat_lt b
    omega

theorem bitsNat_bitsOf (w n : Nat) (h : n < 2 ^ w) : bitsNat (bitsOf w n) = n := by
  induction w generalizing n with
  | zero => simp_all [bitsOf, bitsNat]
  | succ w ih =>
    rw [bitsOf_succ, bitsNat_concat, ih (n / 2) (by rw [Nat.pow_succ] at h; omega), Nat.testBit_zero]
    rcases Nat.mod_two_eq_zero_or_one n with h2 | h2 <;> simp [h2] <;> omega

theorem bitsOf_bitsNat (bs : List Bool) : bitsOf bs.length (bitsNat bs) = bs := by
  induction bs using List.reverseRecOn with
  | nil => rfl
  | append_singleton bs b ih =>
    have half : (2 * bitsNat bs + b.toNat) / 2 = bitsNat bs := by have := Bool.toNat_lt b; omega
    have low : (2 * bitsNat bs + b.toNat).testBit 0 = b := by cases b <;> simp [Nat.testBit_zero]
    rw [List.length_append, List.length_singleton, bitsNat_concat, bitsOf_succ, half, low, ih]

/-- Bytes taken apart into bits again give the packed bits, the 0 bits that filled out the last byte after them. -/
theorem packBits_unpack (fuel : Nat) (bs : List Bool) (h : bs.length ≤ fuel) :
    ∃ k, (packBits fuel bs).flatMap (fun b => bitsOf 8 b.toNat) = bs ++ List.replicate k false := by
  induction fuel generalizing bs with
  | zero => exact ⟨0, by simp_all [packBits, List.length_eq_zero_iff]⟩
  | succ fuel ih =>
    by_cases he : bs = []
    · exact ⟨0, by simp [packBits, he]⟩
    have hpos : 0 < bs.length := List.length_pos_of_ne_nil he
    let chunk := bs.take 8 ++ List.replicate (8 - (bs.take 8).length) false
    have hlen : chunk.length = 8 := by simp only [chunk, List.length_append, List.length_replicate, List.length_take]; omega
    have hbyte : bitsOf 8 (BitVec.ofNat 8 (bitsNat chunk)).toNat = chunk := by
      have hlt := bitsNat_lt chunk
      rw [hlen] at hlt
      rw [BitVec.toNat_ofNat, Nat.mod_eq_of_lt hlt]
      simpa only [hlen] using bitsOf_bitsNat chunk
    obtain ⟨k, hk⟩ := ih (bs.drop 8) (by rw [List.length_drop]; omega)
    have hpack : (packBits (fuel + 1) bs).flatMap (fun b => bitsOf 8 b.toNat) = chunk ++ (bs.drop 8 ++ List.replicate k false) := by
      rw [packBits, if_neg (by simpa using he), List.flatMap_cons, hbyte, hk]
    rw [hpack]
    by_cases hshort : bs.length ≤ 8
    · refine ⟨8 - bs.length + k, ?_⟩
      simp only [chunk, List.take_of_length_le hshort, List.drop_of_length_le hshort, List.nil_append, List.append_assoc,
        List.replicate_append_replicate]
    · refine ⟨k, ?_⟩
      have hfull : 8 - (bs.take 8).length = 0 := by rw [List.length_take]; omega
      simp only [chunk, hfull, List.replicate_zero, List.append_nil]
      rw [← List.append_assoc, List.take_append_drop]

/-! ### Matches (R124) -/

theorem commonLen_stop {cap : Nat} {as bs : List Byte}
    (h : ∀ c a as' b bs', cap = c + 1 → as = a :: as' → bs = b :: bs' → False) : commonLen cap as bs = 0 := by
  unfold commonLen
  split
  · exact (h _ _ _ _ _ rfl rfl rfl).elim
  · rfl

theorem commonLen_le (cap : Nat) (as bs : List Byte) : commonLen cap as bs ≤ cap ∧ commonLen cap as bs ≤ bs.length := by
  induction cap, as, bs using commonLen.induct with
  | case1 cap as b bs ih => simp only [commonLen, if_true, List.length_cons]; omega
  | case2 cap a as b bs hne => simp [commonLen, hne]
  | case3 cap as bs h => simp [commonLen_stop h]

theorem commonLen_same (cap : Nat) (as bs : List Byte) : ∀ k < commonLen cap as bs, as[k]? = bs[k]? := by
  induction cap, as, bs using commonLen.induct with
  | case1 cap as b bs ih =>
    intro k hk
    simp only [commonLen, if_true] at hk
    cases k with
    | zero => rfl
    | succ k => simpa using ih k (by omega)
  | case2 cap a as b bs hne => simp [commonLen, hne]
  | case3 cap as bs h => simp [commonLen_stop h]

/-- What a match of m bytes at distance d from position i says of the bytes. -/
structure Matches (x : List Byte) (i d m : Nat) : Prop where
  distance : 1 ≤ d ∧ d ≤ 2048 ∧ d ≤ i
  length : m ≤ 34 ∧ i + m ≤ x.length
  same : ∀ k < m, x[i + k - d]? = x[i + k]?

theorem matchAt_matches {x : List Byte} {i d : Nat} (hd : 1 ≤ d ∧ d ≤ 2048 ∧ d ≤ i) (hi : i ≤ x.length) : Matches x i d (matchAt x i d) where
  distance := hd
  length := by
    have h := commonLen_le 34 (x.drop (i - d)) (x.drop i)
    rw [List.length_drop] at h
    unfold matchAt
    omega
  same k hk := by
    have h := commonLen_same 34 (x.drop (i - d)) (x.drop i) k hk
    rw [List.getElem?_drop, List.getElem?_drop] at h
    rw [← h, show i + k - d = i - d + k by omega]

theorem bestMatch_matches {x : List Byte} {i : Nat} (hi : i ≤ x.length) :
    (bestMatch x i).2 = 0 ∨ Matches x i (bestMatch x i).1 (bestMatch x i).2 := by
  refine List.foldlRecOn (List.range (min 2048 i)) _ (motive := fun best : Nat × Nat => best.2 = 0 ∨ Matches x i best.1 best.2) (.inl rfl) ?_
  intro best hbest k hk
  have hlt : k < min 2048 i := List.mem_range.1 hk
  split
  · exact .inr (matchAt_matches (by omega) hi)
  · exact hbest

/-- Copying out of what is already there continues the record as far as the match goes (R129). -/
theorem copyOut_take {x : List Byte} {d : Nat} (hd : 1 ≤ d) (m i : Nat) (hdi : d ≤ i) (him : i + m ≤ x.length)
    (same : ∀ k < m, x[i + k - d]? = x[i + k]?) : copyOut d m (x.take i) = x.take (i + m) := by
  induction m generalizing i with
  | zero => rfl
  | succ m ih =>
    have hlen : (x.take i).length = i := by rw [List.length_take]; omega
    have hnext : x.take i ++ [(x.take i).getD ((x.take i).length - d) 0] = x.take (i + 1) := by
      have h0 := same 0 (by omega)
      rw [Nat.add_zero] at h0
      rw [hlen, List.getD_eq_getElem?_getD, List.getElem?_take_of_lt (by omega), h0, List.getElem?_eq_getElem (by omega),
        Option.getD_some, List.take_append_getElem]
    rw [copyOut, hnext, ih (i + 1) (by omega) (by omega) fun k hk => by
      rw [show i + 1 + k = i + (k + 1) by omega]; exact same (k + 1) (by omega), show i + 1 + m = i + (m + 1) by omega]

/-! ### Expansion (R129) -/

theorem expandFrom_done (len fuel : Nat) (bs : List Bool) (out : List Byte) (h : out.length = len) : expandFrom len fuel bs out = (out, true) := by
  cases fuel <;> simp [expandFrom, h]

theorem expandFrom_byte {len fuel : Nat} {b : Byte} {bs : List Bool} {out : List Byte} (h : out.length < len) :
    expandFrom len (fuel + 1) ((Token.byte b).bits ++ bs) out = expandFrom len fuel bs (out ++ [b]) := by
  have hb : bitsNat (bitsOf 8 b.toNat) = b.toNat := bitsNat_bitsOf 8 _ b.isLt
  simp [Token.bits, expandFrom, Nat.ne_of_lt h, hb]

theorem expandFrom_copy {len fuel d m : Nat} {bs : List Bool} {out : List Byte} (hd : 1 ≤ d ∧ d ≤ 2048 ∧ d ≤ out.length)
    (hm : 3 ≤ m ∧ m ≤ 34) (h : out.length + m ≤ len) :
    expandFrom len (fuel + 1) ((Token.copy d m).bits ++ bs) out = expandFrom len fuel bs (copyOut d m out) := by
  have hd' : bitsNat (bitsOf 11 (d - 1)) + 1 = d := by rw [bitsNat_bitsOf 11 _ (by omega)]; omega
  have hm' : bitsNat (bitsOf 5 (m - 3)) + 3 = m := by rw [bitsNat_bitsOf 5 _ (by omega)]; omega
  have t1 : ((bitsOf 11 (d - 1) ++ (bitsOf 5 (m - 3) ++ bs)).take 11) = bitsOf 11 (d - 1) := List.take_left' (bitsOf_length _ _)
  have t2 : ((bitsOf 11 (d - 1) ++ (bitsOf 5 (m - 3) ++ bs)).drop 11) = bitsOf 5 (m - 3) ++ bs := List.drop_left' (bitsOf_length _ _)
  have t3 : (bitsOf 5 (m - 3) ++ bs).take 5 = bitsOf 5 (m - 3) := List.take_left' (bitsOf_length _ _)
  have t4 : ((bitsOf 11 (d - 1) ++ (bitsOf 5 (m - 3) ++ bs)).drop 16) = bs := by
    rw [← List.append_assoc]; exact List.drop_left' (by simp)
  simp only [Token.bits, List.cons_append, List.append_assoc, expandFrom, t1, t2, t3, t4, hd', hm', List.length_append, bitsOf_length,
    if_neg (show ¬ out.length = len by omega), if_neg (show ¬ 11 + (5 + bs.length) < 16 by omega),
    show (decide (out.length < d) || decide (len < out.length + m)) = false by simp; omega, Bool.false_eq_true, if_false]

/-- Expanding the tokens parsed from position i continues the record from its first i bytes to its end. -/
theorem expandFrom_parseFrom (x : List Byte) (pad : List Bool) (fuel i fuel' : Nat) (hi : i ≤ x.length) (hf : x.length - i ≤ fuel)
    (hf' : x.length - i ≤ fuel') : expandFrom x.length fuel' ((parseFrom x fuel i).flatMap Token.bits ++ pad) (x.take i) = (x, true) := by
  have hlen : (x.take i).length = i := by rw [List.length_take]; omega
  have whole : i = x.length → expandFrom x.length fuel' ((parseFrom x fuel i).flatMap Token.bits ++ pad) (x.take i) = (x, true) := by
    intro h
    rw [expandFrom_done _ _ _ _ (hlen.trans h), h, List.take_length]
  induction fuel generalizing i fuel' with
  | zero => exact whole (by omega)
  | succ fuel ih =>
    rcases Nat.eq_or_lt_of_le hi with h | hlt
    · exact whole h
    obtain ⟨f, rfl⟩ : ∃ f, fuel' = f + 1 := ⟨fuel' - 1, by omega⟩
    by_cases hm : 3 ≤ (bestMatch x i).2
    · obtain h0 | hmatch := bestMatch_matches hi
      · omega
      obtain ⟨⟨hd1, hd2, hdi⟩, ⟨hm34, him⟩, same⟩ := hmatch
      rw [parseFrom, if_pos hlt, if_pos hm, List.flatMap_cons, List.append_assoc,
        expandFrom_copy ⟨hd1, hd2, by omega⟩ ⟨hm, hm34⟩ (by omega), copyOut_take hd1 _ _ hdi him same]
      have hlen' : (x.take (i + (bestMatch x i).2)).length = i + (bestMatch x i).2 := by rw [List.length_take]; omega
      exact ih _ _ him (by omega) (by omega) hlen' fun h => by rw [expandFrom_done _ _ _ _ (hlen'.trans h), h, List.take_length]
    · have hbyte : x.take i ++ [x.getD i 0] = x.take (i + 1) := by
        rw [List.getD_eq_getElem?_getD, List.getElem?_eq_getElem hlt, Option.getD_some, List.take_append_getElem]
      rw [parseFrom, if_pos hlt, if_neg hm, List.flatMap_cons, List.append_assoc, expandFrom_byte (by omega), hbyte]
      have hlen' : (x.take (i + 1)).length = i + 1 := by rw [List.length_take]; omega
      exact ih _ _ hlt (by omega) (by omega) hlen' fun h => by rw [expandFrom_done _ _ _ _ (hlen'.trans h), h, List.take_length]

theorem expandBytes_tokenStream (x : List Byte) : expandBytes x.length (tokenStream x) = (x, true) := by
  obtain ⟨k, hk⟩ := packBits_unpack _ ((parse x).flatMap Token.bits) le_rfl
  unfold expandBytes tokenStream
  rw [hk]
  exact expandFrom_parseFrom x _ x.length 0 _ (Nat.zero_le _) (by omega) (by omega)

/-! ### The stored form (R126, R128, R130) -/

theorem tokenStream_pos {x : List Byte} (h : 1 ≤ x.length) : 1 ≤ (tokenStream x).length := by
  by_contra hz
  have hnil : tokenStream x = [] := List.length_eq_zero_iff.1 (by omega)
  have hx := expandBytes_tokenStream x
  rw [hnil] at hx
  simp only [expandBytes, expandFrom, List.flatMap_nil, List.length_nil, if_neg (show ¬ 0 = x.length by omega), Prod.mk.injEq,
    Bool.false_eq_true, and_false] at hx

theorem shrinkRecord_cases (on : Bool) (x : List Byte) :
    (shrinkRecord on x = (.shrunk, tokenStream x) ∧ (tokenStream x).length < x.length) ∨ shrinkRecord on x = (.plain, x) := by
  unfold shrinkRecord
  split
  · next h => exact .inl ⟨rfl, by simp_all⟩
  · exact .inr rfl

/-- Settles O16: the parse is expanded back token by token, each copy out of what its match found. -/
theorem shrunkRecordsExpandBack : Obligations.ShrunkRecordsExpandBack := by
  intro on x h hpos hmax hform hraw hstored hcheck
  obtain ⟨hs, hlt⟩ | hs := shrinkRecord_cases on x <;> rw [hs] at hform hstored ⊢
  · have hform1 : h.form = 1 := hform
    have hlen := tokenStream_pos hpos
    refine ⟨hlt.le, ?_, ?_⟩
    · simp [expandRecord, hform1, hraw, expandBytes_tokenStream, hcheck]
    · intro hk
      simp only [headerPasses, hform1, hraw, hstored, Config.maxRecord, kindData, kindIndex]
      rcases hk with hk | ⟨hk, h4⟩ <;> simp [*]
  · have hform0 : h.form = 0 := hform
    have hsame : h.storedLen = h.rawLen := BitVec.eq_of_toNat_eq (hstored.trans hraw.symm)
    refine ⟨le_rfl, ?_, ?_⟩
    · simp [expandRecord, hform0, hcheck]
    · intro hk
      simp only [headerPasses, hform0, hraw, hsame, Config.maxRecord, kindData, kindIndex]
      rcases hk with hk | ⟨hk, h4⟩ <;> simp [*]

end Sys2Proof.Machine
end

section
/-! PROOFS. A refill of a unit window, and the turns by which a congested pool's units go (R81 to R83, R89, R90). -/

namespace Sys2Proof.Machine

/-- Settles O59: the two counts are the lesser of what is wanted and what is FREE. -/
theorem refillFillsTheUnitWindow : Obligations.RefillFillsTheUnitWindow := by
  intro v b p
  obtain ⟨lack, hlack⟩ : ∃ n, n = v.unitCeiling p - (b.share.get p).unitWindow := ⟨_, rfl⟩
  obtain ⟨home, hhome⟩ : ∃ n, n = min lack (b.share.get p).writeFree := ⟨_, rfl⟩
  obtain ⟨pool, hpool⟩ : ∃ n, n = if 0 < v.weight p then min (lack - home) b.poolFree else 0 := ⟨_, rfl⟩
  refine ⟨home, pool, by simp only [refillUnits, ← hlack, ← hhome, ← hpool, Buffer.modShare, addCount], ?_⟩
  split at hpool <;> refine ⟨?_, ?_, ?_, ?_, ?_, ?_⟩ <;> omega

/-! ### The turns (R89, R90) -/

/-- The count of the present turn: 0 when the turn is about to move. -/
def turnUsed (v : CreditEnv) (b : Buffer) : Nat := if poolWaiter v b b.turnPort then b.turnCount else 0

/-- R90 step 1: whose turn it is. -/
def turnWaiter (v : CreditEnv) (b : Buffer) : Port :=
  if poolWaiter v b b.turnPort then b.turnPort else (nextWaiter v b b.turnPort).getD b.turnPort

theorem nextWaiter_first {v : CreditEnv} {b : Buffer} {p : Port} (h : poolWaiter v b p.next = true) : nextWaiter v b p = some p.next := by
  simp [nextWaiter, h]

theorem nextWaiter_second {v : CreditEnv} {b : Buffer} {p : Port} (h : poolWaiter v b p.next = false)
    (h' : poolWaiter v b p.next.next = true) : nextWaiter v b p = some p.next.next := by
  simp [nextWaiter, h, h']

theorem nextWaiter_none {v : CreditEnv} {b : Buffer} {p : Port} (h : poolWaiter v b p.next = false)
    (h' : poolWaiter v b p.next.next = false) : nextWaiter v b p = none := by
  simp [nextWaiter, h, h']

theorem congested_waiter {v : CreditEnv} {b : Buffer} (p : Port) (h : congested v b = true) :
    poolWaiter v b p = true ∨ poolWaiter v b p.next = true ∨ poolWaiter v b p.next.next = true := by
  simp only [congested, Bool.and_eq_true, Bool.or_eq_true] at h
  obtain ⟨-, (h0 | h1) | h2⟩ := h <;> cases p <;> simp only [Port.next] <;> tauto

theorem turnWaiter_waits {v : CreditEnv} {b : Buffer} (h : congested v b = true) : poolWaiter v b (turnWaiter v b) = true := by
  unfold turnWaiter
  split
  · assumption
  next h0 =>
    by_cases h1 : poolWaiter v b b.turnPort.next = true
    · rwa [nextWaiter_first h1]
    · have h2 := ((congested_waiter b.turnPort h).resolve_left h0).resolve_left h1
      rwa [nextWaiter_second (by simpa using h1) h2]

theorem givePoolUnit_turn (b : Buffer) (p q : Port) (n : Nat) :
    givePoolUnit { b with turnPort := q, turnCount := n } p = { givePoolUnit b p with turnPort := q, turnCount := n } := by
  have hf : ({ b with turnPort := q, turnCount := n } : Buffer).filling p = b.filling p := rfl
  cases hp : b.filling p with
  | none => simp only [givePoolUnit, hf, hp]; rfl
  | some a => cases ha : a.desc <;> simp only [givePoolUnit, hf, hp, Buffer.joinAlloc, ha]; rfl

@[simp] theorem givePoolUnit_poolFree (b : Buffer) (p : Port) : (givePoolUnit b p).poolFree = b.poolFree := by
  unfold givePoolUnit Buffer.joinAlloc
  split
  · split <;> rfl
  · rfl

/-- R90 as one equation: the unit goes to the port whose turn it is, and the turn after it. -/
theorem handPoolUnit_eq {v : CreditEnv} {b : Buffer} (h : congested v b = true) :
    handPoolUnit v b = { givePoolUnit b (turnWaiter v b) with
      turnPort := if v.weight (turnWaiter v b) ≤ turnUsed v b + 1
        then (nextWaiter v (givePoolUnit b (turnWaiter v b)) (turnWaiter v b)).getD (turnWaiter v b) else turnWaiter v b,
      turnCount := if v.weight (turnWaiter v b) ≤ turnUsed v b + 1 then 0 else turnUsed v b + 1 } := by
  unfold handPoolUnit
  extract_lets b1 b2
  have begun : b1 = { b with turnPort := turnWaiter v b, turnCount := turnUsed v b } := by
    simp only [b1, turnWaiter, turnUsed]
    split
    · rfl
    next h0 =>
      cases hn : nextWaiter v b b.turnPort with
      | some q => rfl
      | none =>
        have hw := turnWaiter_waits h
        rw [turnWaiter, if_neg h0, hn] at hw
        exact absurd hw h0
  have given : b2 = { givePoolUnit b (turnWaiter v b) with turnPort := turnWaiter v b, turnCount := turnUsed v b } := by
    simp only [b2, begun, givePoolUnit_turn]
  rw [given, begun]
  split
  · rfl
  · rfl

theorem releaseUnit_pool_congested {v : CreditEnv} {b : Buffer} (h : congested v b = true) : releaseUnit v b .pool = handPoolUnit v b := by
  simp only [releaseUnit, h, if_true]

theorem poolFree_of_congested {v : CreditEnv} {b : Buffer} (h : congested v b = true) : b.poolFree = 0 := by
  simp only [congested, poolEmpty, Bool.and_eq_true, decide_eq_true_eq] at h
  omega

/-- Settles O60. -/
theorem congestedUnitsGoByTurns : Obligations.CongestedUnitsGoByTurns := by
  intro v b h
  have released := (releaseUnit_pool_congested h).trans (handPoolUnit_eq h)
  have waits : ∀ c q, poolWaiter v (releaseUnit v b .pool) q = c → poolWaiter v (givePoolUnit b (turnWaiter v b)) q = c := by
    intro c q hq; rw [released] at hq; exact hq
  refine ⟨turnWaiter v b, turnWaiter_waits h, fun h0 => if_pos h0, fun h0 h1 => ?_, ?_, fun hf => ?_, fun a hf => ?_, fun q hq => ?_,
    fun n hn => ⟨fun hlt => ?_, fun hle => ⟨?_, fun h1 => ?_, fun h1 h2 => ?_, fun h1 h2 => ?_⟩⟩⟩
  · rw [turnWaiter, h0, nextWaiter_first h1]; rfl
  · rw [released]; simpa using poolFree_of_congested h
  · rw [released]; simp [givePoolUnit, hf, Buffer.modShare]
  · rw [released]; simp only [givePoolUnit, hf, Buffer.joinAlloc, true_and]; split <;> rfl
  · rw [released]
    unfold givePoolUnit Buffer.joinAlloc
    split
    · split <;> rfl
    · simp [Buffer.modShare, hq]
  all_goals change n = turnUsed v b + 1 at hn; subst hn
  · rw [released]; simp [Nat.not_le.2 hlt]
  · rw [released]; simp [hle]
  · rw [released]; simp [hle, nextWaiter_first (waits _ _ h1)]
  · rw [released]; simp [hle, nextWaiter_second (waits _ _ h1) (waits _ _ h2)]
  · rw [released]; simp [hle, nextWaiter_none (waits _ _ h1) (waits _ _ h2)]

end Sys2Proof.Machine
end

section
/-! PROOFS. WRITE_RECORD and WRITE_MARK: the records they append and the descriptor that holds the data (R78, R102, R103). -/

namespace Sys2Proof.Machine

/-! ### Descriptors that no allocation fills -/

@[simp] theorem onBuffer_buffer (s : State) (f : CreditEnv → Buffer → Buffer) : (onBuffer s f).buffer = f s.creditEnv s.buffer :=
  (onBuffer_keeps s f).1

theorem onBuffer_stream (s : State) (f : CreditEnv → Buffer → Buffer) (b : Bay) : (onBuffer s f).stream b = s.stream b := by
  simp [State.stream]

theorem find_replaceDesc_ne {id k : Nat} {f : Desc → Desc} (hf : ∀ d, (f d).id = d.id) (hk : k ≠ id) (ds : List Desc) :
    ((replaceDesc id f ds).find? fun d => d.id = k) = ds.find? fun d => d.id = k := by
  induction ds with
  | nil => rfl
  | cons d rest ih =>
    by_cases hd : d.id = id
    · have hne : d.id ≠ k := fun h => hk (h.symm.trans hd)
      have hne' : (f d).id ≠ k := by rwa [hf]
      simp [replaceDesc, hd, hne', hd ▸ hne]
    · simp only [replaceDesc, hd, if_false, List.find?_cons, ih]

/-- What an operation leaves that only fills allocations: the allocations themselves, and every descriptor that none of them fills. -/
structure FillsOnly (b c : Buffer) : Prop where
  allocs : c.allocs = b.allocs
  desc : ∀ id, (∀ a ∈ b.allocs, a.desc ≠ some id) → c.desc id = b.desc id

theorem FillsOnly.refl (b : Buffer) : FillsOnly b b := ⟨rfl, fun _ _ => rfl⟩

theorem FillsOnly.trans {b c d : Buffer} (h : FillsOnly b c) (g : FillsOnly c d) : FillsOnly b d where
  allocs := g.allocs.trans h.allocs
  desc id hid := (g.desc id (by rwa [h.allocs])).trans (h.desc id hid)

theorem fillsOnly_of_counts {b c : Buffer} (ha : c.allocs = b.allocs) (hd : c.descs = b.descs) : FillsOnly b c :=
  ⟨ha, fun id _ => by rw [Buffer.desc, hd]; rfl⟩

theorem fillsOnly_joinAlloc {b : Buffer} {a : Alloc} (ha : a ∈ b.allocs) (o : Origin) (n : Nat) : FillsOnly b (b.joinAlloc a o n) := by
  unfold Buffer.joinAlloc
  cases h : a.desc with
  | none => exact FillsOnly.refl b
  | some id =>
    refine ⟨rfl, fun k hk => find_replaceDesc_ne (fun d => by split <;> rfl) (fun hki => ?_) b.descs⟩
    exact hk a ha (by rw [h, hki])

theorem fillsOnly_fillAlloc {v : CreditEnv} {b : Buffer} {a : Alloc} (ha : a ∈ b.allocs) : FillsOnly b (fillAlloc v b a) := by
  unfold fillAlloc
  extract_lets home pool b1
  have counts : FillsOnly b { b1 with poolFree := b1.poolFree - pool } := fillsOnly_of_counts rfl rfl
  have joined := counts.trans (fillsOnly_joinAlloc (by rw [counts.allocs]; exact ha) (.readHome a.port) home)
  exact joined.trans (fillsOnly_joinAlloc (by rw [joined.allocs]; exact ha) .pool pool)

theorem filling_mem {b : Buffer} {p : Port} {a : Alloc} (h : b.filling p = some a) : a ∈ b.allocs := by
  unfold Buffer.filling at h
  dsimp only at h
  split at h
  · next x hx => exact Option.some.inj h ▸ List.mem_of_mem_filter (List.mem_of_find?_eq_some hx)
  · exact List.mem_of_mem_filter (List.mem_of_mem_head? h)

theorem fillsOnly_fillFor (v : CreditEnv) (p : Port) (n : Nat) (b : Buffer) : FillsOnly b (fillFor v p n b) := by
  induction n generalizing b with
  | zero => exact FillsOnly.refl b
  | succ n ih =>
    unfold fillFor
    cases hf : b.filling p with
    | none => exact FillsOnly.refl b
    | some a =>
      have filled := fillsOnly_fillAlloc (v := v) (filling_mem hf)
      dsimp only
      split
      · exact filled.trans (ih _)
      · exact filled

theorem fillsOnly_refillPort (v : CreditEnv) (b : Buffer) (p : Port) : FillsOnly b (refillPort v b p) := by
  unfold refillPort
  dsimp only
  split <;> (try split) <;> (try split) <;> exact fillsOnly_of_counts rfl rfl

theorem fillsOnly_settle (v : CreditEnv) (b : Buffer) : FillsOnly b (settle v b) := by
  have fill := fun c p => fillsOnly_fillFor v p c.allocs.length c
  exact ((fill _ _).trans ((fill _ _).trans (fill _ _))).trans
    ((fillsOnly_refillPort v _ _).trans ((fillsOnly_refillPort v _ _).trans (fillsOnly_refillPort v _ _)))

/-! ### The lowest unused number (log entry 7) -/

theorem le_foldl_max (l : List Nat) (m : Nat) : m ≤ l.foldl max m ∧ ∀ n ∈ l, n ≤ l.foldl max m := by
  induction l generalizing m with
  | nil => simp
  | cons a l ih =>
    obtain ⟨hm, hl⟩ := ih (max m a)
    rw [List.foldl_cons]
    refine ⟨le_trans (le_max_left m a) hm, fun n hn => ?_⟩
    rcases List.mem_cons.1 hn with rfl | hn
    · exact le_trans (le_max_right m n) hm
    · exact hl n hn

theorem freshId_unused (b : Buffer) : b.freshId ∉ b.descs.map (·.id) ++ b.allocs.filterMap (·.desc) := by
  unfold Buffer.freshId
  dsimp only
  cases hf : (List.range Config.totalDescs).find? fun n => !(b.descs.map (·.id) ++ b.allocs.filterMap (·.desc)).contains n with
  | some n => simpa using List.find?_some hf
  | none =>
    intro hmem
    have hle := (le_foldl_max (b.descs.map (·.id) ++ b.allocs.filterMap (·.desc)) 0).2 _ hmem
    simp only [Option.getD_none] at hle
    omega

theorem freshId_unfilled {b : Buffer} {a : Alloc} (ha : a ∈ b.allocs) : a.desc ≠ some b.freshId := fun h =>
  freshId_unused b (List.mem_append_right _ (List.mem_filterMap.2 ⟨a, ha, h⟩))

/-- R78: the descriptor that a write's bytes stand in, in its units of the write home and of the pool. -/
def consumedDesc (p : Port) (k : Nat) (bytes : List Byte) (b : Buffer) : Desc :=
  ⟨b.freshId, if 0 < (b.share.get p).descWriteGranted then .writeHome p else .pool,
    List.replicate (min k (b.share.get p).writeGranted) (.writeHome p)
      ++ List.replicate (k - min k (b.share.get p).writeGranted) .pool, [], bytes, []⟩

theorem consume_desc (p : Port) (k : Nat) (bytes : List Byte) (b : Buffer) :
    (b.consume p k bytes).desc b.freshId = some (consumedDesc p k bytes b) := by
  simp [Buffer.consume, Buffer.addDesc, Buffer.desc, consumedDesc]

theorem settle_consume_desc (v : CreditEnv) (p : Port) (k : Nat) (bytes : List Byte) (b : Buffer) :
    (settle v (b.consume p k bytes)).desc b.freshId = some (consumedDesc p k bytes b) :=
  ((fillsOnly_settle v (b.consume p k bytes)).desc b.freshId fun _ ha => freshId_unfilled (b := b) ha).trans (consume_desc p k bytes b)

/-! ### The offers keep the records' numbers -/

/-- The record `r` with its SHRINK item on offer. -/
def Rec.offeredWhen (num : Nat) (r : Rec) : Rec := if r.num = num then { r with state := .inEngine } else r

@[simp] theorem Rec.offeredWhen_num (num : Nat) (r : Rec) : (r.offeredWhen num).num = r.num := by
  unfold Rec.offeredWhen; split <;> rfl
@[simp] theorem Rec.offeredWhen_kind (num : Nat) (r : Rec) : (r.offeredWhen num).kind = r.kind := by
  unfold Rec.offeredWhen; split <;> rfl
@[simp] theorem Rec.offeredWhen_rawLen (num : Nat) (r : Rec) : (r.offeredWhen num).rawLen = r.rawLen := by
  unfold Rec.offeredWhen; split <;> rfl
@[simp] theorem Rec.offeredWhen_desc (num : Nat) (r : Rec) : (r.offeredWhen num).desc = r.desc := by
  unfold Rec.offeredWhen; split <;> rfl

theorem offerEngine_stream (s : State) (b : Bay) : (offerEngine s b).stream b = s.stream b
    ∨ ∃ num, (offerEngine s b).stream b = { s.stream b with records := (s.stream b).records.map (Rec.offeredWhen num) } := by
  unfold offerEngine
  dsimp only
  split
  · split
    · next r _ => exact .inr ⟨r.num, (modStream_at s b b fun c => { c with records := c.records.map (Rec.offeredWhen r.num) }).trans
        (if_pos rfl)⟩
    · exact .inl rfl
  · exact .inl rfl

@[simp] theorem joinRecord_stream (s : State) (b : Bay) (kind : RecKind) (len : Nat) (st : RecState) (id : Nat) :
    (joinRecord s b kind len st id).stream b = { s.stream b with
      records := (s.stream b).records ++ [⟨(s.stream b).nextRecord, kind, len, st, none, none, 0, id, none⟩],
      nextRecord := (s.stream b).nextRecord + 1 } := by
  simp [joinRecord]

section
variable {s : State} {p : Port} {b : Bay} {kind : RecKind} {raw : List Byte}

theorem offerEngine_appended {l : List Rec} {r : Rec} (h : (s.stream b).records = l ++ [r]) :
    ((offerEngine s b).stream b).nextRecord = (s.stream b).nextRecord
    ∧ ((offerEngine s b).stream b).records.map (·.num) = l.map (·.num) ++ [r.num]
    ∧ ∃ q, ((offerEngine s b).stream b).records.getLast? = some q ∧ q.kind = r.kind ∧ q.rawLen = r.rawLen ∧ q.desc = r.desc := by
  obtain hs | ⟨num, hs⟩ := offerEngine_stream s b <;> rw [hs]
  · exact ⟨rfl, by simp [h], r, by simp [h], rfl, rfl, rfl⟩
  · exact ⟨rfl, by simp [h, Function.comp_def], r.offeredWhen num, by simp [h], by simp, by simp, by simp⟩

/-- The state in which an accepted record is offered to the engine. -/
def recordJoined (s : State) (p : Port) (b : Bay) (kind : RecKind) (raw : List Byte) : State :=
  joinRecord (onBuffer s fun _ u => u.consume p (unitsFor raw.length) raw) b kind raw.length .raw s.buffer.freshId

theorem acceptRecord_eq : acceptRecord s p b kind raw = onBuffer (offerEngine (recordJoined s p b kind raw) b) settle := rfl

theorem recordJoined_stream : (recordJoined s p b kind raw).stream b = { s.stream b with
    records := (s.stream b).records ++ [⟨(s.stream b).nextRecord, kind, raw.length, .raw, none, none, 0, s.buffer.freshId, none⟩],
    nextRecord := (s.stream b).nextRecord + 1 } := by
  rw [recordJoined, joinRecord_stream, onBuffer_stream]

theorem acceptRecord_stream : ((acceptRecord s p b kind raw).stream b).nextRecord = (s.stream b).nextRecord + 1
    ∧ ((acceptRecord s p b kind raw).stream b).records.map (·.num) = (s.stream b).records.map (·.num) ++ [(s.stream b).nextRecord]
    ∧ ∃ r, ((acceptRecord s p b kind raw).stream b).records.getLast? = some r ∧ r.kind = kind ∧ r.rawLen = raw.length
      ∧ r.desc = s.buffer.freshId := by
  rw [acceptRecord_eq, onBuffer_stream]
  obtain ⟨hnext, hrest⟩ := offerEngine_appended (s := recordJoined s p b kind raw) (by rw [recordJoined_stream])
  exact ⟨hnext.trans (by rw [recordJoined_stream]), hrest⟩

theorem recordJoined_buffer : (recordJoined s p b kind raw).buffer = s.buffer.consume p (unitsFor raw.length) raw := by
  simp only [recordJoined, frame_joinRecord, onBuffer_buffer]

theorem acceptRecord_desc : (acceptRecord s p b kind raw).buffer.desc s.buffer.freshId
    = some (consumedDesc p (unitsFor raw.length) raw s.buffer) := by
  have hbuffer : (offerEngine (recordJoined s p b kind raw) b).buffer = (recordJoined s p b kind raw).buffer := by simp
  rw [acceptRecord_eq, onBuffer_buffer, hbuffer, recordJoined_buffer, settle_consume_desc]

end

theorem consumedDesc_length (p : Port) (k : Nat) (bytes : List Byte) (b : Buffer) : (consumedDesc p k bytes b).units.length = k := by
  simp [consumedDesc]

/-! ### An accepted write -/

theorem writeStream_of {s : State} {p : Port} {stream : Byte} {b : Bay} (hb : bayOf stream = some b) (hp : (s.stream b).port = some p)
    (ho : (s.stream b).state = .open) : writeStream s p stream = some b := by
  simp [writeStream, hb, Stream.namedBy, hp, ho]

theorem exec_writeRecord_accepted {s : State} {p : Port} {stream kind : Byte} {raw : List Byte} {b : Bay} (hu : (s.port p).up = true)
    (hb : bayOf stream = some b) (hk : kind = 0 ∨ (kind = 1 ∧ raw.length % 4 = 0)) (hp : (s.stream b).port = some p)
    (ho : (s.stream b).state = .open) (h1 : 1 ≤ raw.length) (h2 : raw.length ≤ 32768)
    (hw : windowsHold s.buffer p (unitsFor raw.length) = true) :
    exec (.writeRecord p stream kind raw) s = .next (pump (acceptRecord s p b (if kind = 1 then .index else .data) raw)) := by
  have hne : raw ≠ [] := List.ne_nil_of_length_pos h1
  have hmax : ¬ 32768 < raw.length := by omega
  change execWriteRecord p stream kind raw s = _
  rcases hk with rfl | ⟨rfl, h4⟩ <;>
    simp [execWriteRecord, flagOf, writeStream_of hb hp ho, Config.maxRecord, finish, *]

theorem exec_writeMark_accepted {s : State} {p : Port} {stream : Byte} {b : Bay} (hu : (s.port p).up = true)
    (hb : bayOf stream = some b) (hp : (s.stream b).port = some p) (ho : (s.stream b).state = .open) (hm : markCount s b < 63)
    (hw : windowsHold s.buffer p 0 = true) : exec (.writeMark p stream) s = .next (pump (acceptMark s p b)) := by
  have hm' : ¬ Config.maxMarks ≤ markCount s b := by simp only [Config.maxMarks]; omega
  change execWriteMark p stream s = _
  simp [execWriteMark, hu, hb, writeStream_of hb hp ho, ho, hm', hw, finish]

/-! ### A mark's offer to the bay -/

/-- What the stream of a bay takes next. -/
def State.nextRecordAt (s : State) (b : Bay) : Nat := (s.stream b).nextRecord

theorem nextRecordAt_of_streams {s t : State} {b : Bay} (h : t.streams = s.streams) : t.nextRecordAt b = s.nextRecordAt b := by
  rw [State.nextRecordAt, State.nextRecordAt, State.stream, State.stream, h]

theorem nextRecordAt_modStream (s : State) (a b : Bay) {f : Stream → Stream} (hf : ∀ c, (f c).nextRecord = c.nextRecord) :
    (s.modStream a f).nextRecordAt b = s.nextRecordAt b := by
  simp only [State.nextRecordAt, modStream_at]
  split
  · next h => rw [hf, h]
  · rfl

theorem nextRecordAt_toStreamPort (s : State) (a b : Bay) (n : Notice) : (toStreamPort s a n).nextRecordAt b = s.nextRecordAt b :=
  nextRecordAt_of_streams (by simp)

theorem nextRecordAt_answerSync (s : State) (a b : Bay) (tag : Byte) (code : ReplyCode) :
    (answerSync s a tag code).nextRecordAt b = s.nextRecordAt b := by
  unfold answerSync
  dsimp only
  split
  · rw [nextRecordAt_modStream]
    · exact nextRecordAt_of_streams (by simp)
    · exact fun _ => rfl
  · rfl

theorem nextRecordAt_testSyncs (s : State) (a b : Bay) : (testSyncs s a).nextRecordAt b = s.nextRecordAt b :=
  (foldl_same (·.nextRecordAt b) _ (fun t _ => nextRecordAt_answerSync t a b _ _) _ _).trans (nextRecordAt_modStream s a b fun _ => rfl)

theorem nextRecordAt_giveUpRecords (s : State) (a b : Bay) (f : Rec → Bool) :
    (giveUpRecords s a f).nextRecordAt b = s.nextRecordAt b := by
  refine foldl_same (·.nextRecordAt b) _ (fun t r => ?_) _ _
  unfold giveUpRecord
  split
  · rfl
  · rw [nextRecordAt_modStream]
    · exact nextRecordAt_of_streams (by simp)
    · exact fun _ => rfl

theorem nextRecordAt_mediumEnd (s : State) (a b : Bay) (u : Nat) : (mediumEnd s a u).nextRecordAt b = s.nextRecordAt b :=
  (nextRecordAt_testSyncs _ a b).trans <| (nextRecordAt_toStreamPort _ a b _).trans <| (nextRecordAt_giveUpRecords _ a b _).trans
    (nextRecordAt_modStream s a b fun _ => rfl)

theorem nextRecordAt_sendBlock (s : State) (a b : Bay) (r : Rec) (block : Nat) :
    (sendBlock s a r block).nextRecordAt b = s.nextRecordAt b := by
  have sent : ∀ u : State, (earlyWarning u a r.num).nextRecordAt b = u.nextRecordAt b := by
    intro u
    unfold earlyWarning
    split
    · rw [nextRecordAt_modStream, nextRecordAt_toStreamPort]
      exact fun _ => rfl
    · rfl
  exact (sent _).trans (nextRecordAt_modStream _ a b fun _ => rfl)

theorem nextRecordAt_offerOnce {s t : State} {a b : Bay} (h : offerOnce s a = some t) : t.nextRecordAt b = s.nextRecordAt b := by
  unfold offerOnce at h
  dsimp only at h
  repeat' split at h
  · cases h
  · cases h
  · exact Option.some.inj h ▸ nextRecordAt_mediumEnd s a b _
  · cases h
  · exact Option.some.inj h ▸ nextRecordAt_mediumEnd s a b _
  · exact Option.some.inj h ▸ nextRecordAt_sendBlock s a b _ _
  · cases h

theorem nextRecordAt_offerBlocks (s : State) (a b : Bay) : (offerBlocks s a).nextRecordAt b = s.nextRecordAt b := by
  have run : ∀ n u, (offerRun n u a).nextRecordAt b = u.nextRecordAt b := by
    intro n
    induction n with
    | zero => exact fun _ => rfl
    | succ n ih =>
      intro u
      unfold offerRun
      cases h : offerOnce u a with
      | none => rfl
      | some t => exact (ih t).trans (nextRecordAt_offerOnce h)
  exact run _ s

/-- A record that is not yet stored keeps what stands behind it from the bay. -/
theorem offerBlocks_waits {s : State} {b : Bay} {r : Rec} (hr : ((s.stream b).records.find? fun r => r.state ≠ .inDrive) = some r)
    (hs : r.state ≠ .stored) : offerBlocks s b = s := by
  have none' : offerOnce s b = none := by
    unfold offerOnce
    dsimp only
    rw [hr]
    simp [hs]
  simp [offerBlocks, offerRun, none']

section
variable {s : State} {p : Port} {b : Bay}

/-- The state in which an accepted mark is offered to the bay. -/
def markJoined (s : State) (p : Port) (b : Bay) : State :=
  joinRecord (onBuffer s fun _ u => u.consume p 0 []) b .mark 0 .stored s.buffer.freshId

theorem acceptMark_eq : acceptMark s p b = onBuffer (offerBlocks (markJoined s p b) b) settle := rfl

theorem acceptMark_nextRecord : ((acceptMark s p b).stream b).nextRecord = (s.stream b).nextRecord + 1 := by
  rw [acceptMark_eq, onBuffer_stream]
  exact (nextRecordAt_offerBlocks (markJoined s p b) b b).trans
    (by simp [State.nextRecordAt, markJoined, onBuffer_stream])

theorem acceptMark_waits (h : ((s.stream b).records.find? fun r => decide (r.state ≠ .inDrive)).any (fun r => decide (r.state ≠ .stored))
    = true) :
    (acceptMark s p b).stream b = (markJoined s p b).stream b ∧ (acceptMark s p b).drives = s.drives := by
  obtain ⟨r, hr, hs⟩ := (Option.any_eq_true _ _).1 h
  have hfind : (((markJoined s p b).stream b).records.find? fun r => r.state ≠ .inDrive) = some r := by
    simp only [markJoined, joinRecord_stream, onBuffer_stream, List.find?_append, hr, Option.some_or]
  have hwait := offerBlocks_waits hfind (by simpa using hs)
  rw [acceptMark_eq, hwait]
  exact ⟨onBuffer_stream _ _ b, by simp [markJoined]⟩

end

/-- Settles O42: what neither write touches is its frame (`exec_leaves`, `exec_apart`). -/
theorem writesAppendRecords : Obligations.WritesAppendRecords := by
  constructor
  · intro s p stream kind raw b hu hb hk hp ho h1 h2 hw
    have hx := exec_writeRecord_accepted hu hb hk hp ho h1 h2 hw
    obtain ⟨hnext, hnums, r, hlast, hkind, hlen, hdesc⟩ := acceptRecord_stream (s := s) (p := p) (b := b)
      (kind := if kind = 1 then .index else .data) (raw := raw)
    have hother := (exec_apart (c := .writeRecord p stream kind raw) hb s _ hx).stream
    have hframe := exec_leaves (.writeRecord p stream kind raw) s _ hx
    refine ⟨_, r, consumedDesc p (unitsFor raw.length) raw s.buffer, hx, ?_, ?_, ?_, hkind, hlen, ?_, rfl, consumedDesc_length _ _ _ _,
      hother, hframe⟩
    · rw [pump_stream, hnext]
    · rw [pump_stream, hnums]
    · rw [pump_stream, hlast]
    · rw [pump_buffer, hdesc, acceptRecord_desc]
  · intro s p stream b hu hb hp ho hm hw
    have hx := exec_writeMark_accepted hu hb hp ho hm hw
    have hother := (exec_apart (c := .writeMark p stream) hb s _ hx).stream
    have hframe := exec_leaves (.writeMark p stream) s _ hx
    refine ⟨_, hx, ?_, fun hwait => ?_, hother, hframe⟩
    · rw [pump_stream, acceptMark_nextRecord]
    · obtain ⟨hstream, hdrives⟩ := acceptMark_waits (p := p) hwait
      exact ⟨by rw [pump_stream, hstream]; simp [markJoined, onBuffer_stream], by rw [pump_drives, hdrives]⟩

end Sys2Proof.Machine
end

section
/-! PROOFS. The ends of events at the ports (R173, R176), the requests answered or refused at once, and RELEASE_VOLUME (R16). -/

namespace Sys2Proof.Machine

/-! ### The next frame of a free link (R176) -/

theorem PortCtl.pump_idle {c : PortCtl} (h : c.up = false ∨ c.sending.isSome = true) : c.pump = c := by
  rcases h with h | h <;> simp [PortCtl.pump, h]

theorem PortCtl.pump_control {c : PortCtl} {x : Control} {rest : List Control} (hu : c.up = true) (hs : c.sending = none)
    (hc : c.control = x :: rest) : c.pump = { c with control := rest, sending := some (.control x) } := by
  simp [PortCtl.pump, hu, hs, hc]

theorem PortCtl.pump_frames {c : PortCtl} {d : DataFrame} {rest : List DataFrame} (hu : c.up = true) (hs : c.sending = none)
    (hc : c.control = []) (hf : c.frames = d :: rest) : c.pump = { c with frames := rest, sending := some (.data d) } := by
  simp [PortCtl.pump, hu, hs, hc, hf]

theorem PortCtl.pump_empty {c : PortCtl} (hc : c.control = []) (hf : c.frames = []) : c.pump = c := by
  simp [PortCtl.pump, hc, hf]

@[simp] theorem PortCtl.pump_tags (c : PortCtl) : c.pump.tags = c.tags := by
  unfold PortCtl.pump
  split
  · rfl
  · split <;> rfl

/-- A reply that waits at an UP port is on its way when the links have gone on. -/
theorem pump_sends {s : State} {p : Port} {r : Reply} (h : .reply r ∈ (s.port p).control) : (pump s).sends p r := by
  rw [State.sends, pump_port]
  by_cases hi : (s.port p).up = false ∨ (s.port p).sending.isSome = true
  · rw [PortCtl.pump_idle hi]
    exact .inr h
  · have hu : (s.port p).up = true := by simpa using fun h => hi (.inl h)
    have hs : (s.port p).sending = none := by simpa using fun h => hi (.inr h)
    obtain ⟨x, rest, hc⟩ := List.exists_cons_of_ne_nil (List.ne_nil_of_mem h)
    rw [hc] at h
    rw [PortCtl.pump_control hu hs hc]
    rcases List.mem_cons.1 h with rfl | h
    · exact .inl rfl
    · exact .inr h

/-- A reply at the port it is queued to. -/
theorem answer_port {s : State} {p : Port} (tag : Byte) (k : ReqKind) (code : ReplyCode) (body : ReplyBody) (clamped : Bool)
    (hu : (s.port p).up = true) : (answer s p tag k code body clamped).port p
      = { s.port p with control := (s.port p).control ++ [.reply ⟨k.code, tag, code, clamped, body, true⟩] } := by
  simp only [answer, queueReply, modPort_at, if_true, hu]

theorem answer_port_ne {s : State} {p q : Port} (tag : Byte) (k : ReqKind) (code : ReplyCode) (body : ReplyBody) (clamped : Bool)
    (hq : q ≠ p) : (answer s p tag k code body clamped).port q = s.port q := by
  simp only [answer, queueReply, modPort_at, if_neg hq]

theorem answer_sends {s : State} {p : Port} (tag : Byte) (k : ReqKind) (code : ReplyCode) (body : ReplyBody) (clamped : Bool)
    (hu : (s.port p).up = true) : (pump (answer s p tag k code body clamped)).sends p ⟨k.code, tag, code, clamped, body, true⟩ :=
  pump_sends (by rw [answer_port _ _ _ _ _ hu]; simp)

theorem openTag_port (s : State) (p : Port) (tag : Byte) (k : ReqKind) :
    (openTag s p tag k).port p = { s.port p with tags := (s.port p).tags.set tag.toNat (some k) } :=
  (modPort_at s p p _).trans (if_pos rfl)

theorem openTag_port_ne (s : State) {p q : Port} (tag : Byte) (k : ReqKind) (hq : q ≠ p) : (openTag s p tag k).port q = s.port q :=
  (modPort_at s p q _).trans (if_neg hq)

/-- Settles O18. -/
theorem repliesAndFrames : Obligations.RepliesAndFrames := by
  refine ⟨?_, fun _ => rfl, fun s p => ⟨fun h => ?_, fun hu hs => ⟨fun x rest hc => ?_, fun d rest hc hf => ?_, fun hc hf => ?_⟩⟩⟩
  · rintro s p tag kind code body clamped ⟨hu, htag, -⟩ hlen hc hs
    have hport : (s.replied p tag kind code body clamped).port p = { s.port p with
        tags := (s.port p).tags.set tag.toNat (some kind), control := [],
        sending := some (.control (.reply ⟨kind.code, tag, code, clamped, body, true⟩)) } := by
      have hup : ((openTag s p tag kind).port p).up = true := by rw [openTag_port]; exact hu
      rw [State.replied, pump_port, answer_port _ _ _ _ _ hup, openTag_port]
      simp only [PortCtl.pump, hu, hs, hc, Bool.not_true, Option.isSome_none, Bool.or_false, Bool.false_eq_true, if_false,
          List.nil_append]
    refine ⟨by simp [State.replied], fun q hq => ?_, ?_, ?_, fun x hx => ?_⟩
    · rw [State.replied, pump_port, answer_port_ne _ _ _ _ _ hq, openTag_port_ne _ _ _ hq]
    · rw [hport]
    · rw [hport]
      simp [PortCtl.tagKind, show tag.toNat < (s.port p).tags.length by omega]
    · have hne : tag.toNat ≠ x.toNat := fun h => hx (BitVec.eq_of_toNat_eq h.symm)
      rw [hport]
      simp [PortCtl.tagKind, hne]
  · rw [pump_port, PortCtl.pump_idle h]
  · rw [pump_port, PortCtl.pump_control hu hs hc]
  · rw [pump_port, PortCtl.pump_frames hu hs hc hf]
  · rw [pump_port, PortCtl.pump_empty hc hf]

/-! ### Requests refused and answered at once -/

/-- A request whose owning block answers it at once. -/
theorem request_replied {s : State} {p : Port} {tag : Byte} {k : ReqKind} {f : State → State} {code : ReplyCode} {body : ReplyBody}
    {clamped : Bool} (h : s.takes p tag) (hf : f (openTag s p tag k) = answer (openTag s p tag k) p tag k code body clamped) :
    request s p tag k f = .next (s.replied p tag k code body clamped) := by
  rw [request_taken k f h, hf, State.replied]

/-- Settles O21. -/
theorem unknownBlocksRefused : Obligations.UnknownBlocksRefused := by
  intro s p type kind tag body hu hk
  refine ⟨fun hb => ?_, fun k hb ht htakes => ?_, fun k hb ht => ?_⟩ <;> change execUnknownRequest p type kind tag body s = _
  · simp [execUnknownRequest, hu, hk, hb, finish]
  · simp only [execUnknownRequest, hu, hk, hb, ht, Bool.not_true, Bool.or_false, Bool.false_eq_true, if_false, if_true]
    exact request_replied htakes rfl
  · simp [execUnknownRequest, hu, hk, hb, ht, finish]

theorem planned_openTag (s : State) (p : Port) (tag : Byte) (k : ReqKind) : (openTag s p tag k).planned = openTag s.planned p tag k := by
  cases h : s.storeWrite with
  | none =>
    have h' : (openTag s p tag k).storeWrite = none := h
    simp only [State.planned, h, h']
  | some q =>
    have h' : (openTag s p tag k).storeWrite = some q := h
    simp only [State.planned, h, h', applySettings]
    split
    · next hp =>
      rw [if_pos (show (s.settings.with q.entries).partition ≠ s.settings.partition from hp)]
      rfl
    · next hp =>
      rw [if_neg (show ¬ (s.settings.with q.entries).partition ≠ s.settings.partition from hp)]
      rfl

theorem notReady_planned {s : State} (h : s.picker.condition ≠ .ready) : notReady s.planned = (true, .notReady) := by
  simp [notReady, planned_picker, h]

theorem decideMove_notReady {s x : State} {p : Port} {tag : Byte} {k : ReqKind} {f : State} {tests : List (Bool × ReplyCode)}
    (h : x.picker.condition ≠ .ready) : decideMove s p tag k (notReady x.planned :: tests) f = refuse s p tag k .notReady := by
  simp [decideMove, firstRefusal, notReady_planned h]

/-- Settles O26: the condition is the first test of each. -/
theorem movesRefusedNotReady : Obligations.MovesRefusedNotReady := by
  intro s p tag ht hc
  refine ⟨?_, fun lea => ?_, fun form src dst label hsrc => ?_, fun lea named dst hnamed hrel => ?_⟩
  · refine request_replied ht ?_
    exact if_pos hc
  · exact request_replied ht (decideMove_notReady (x := openTag s p tag .loadScratch) hc)
  · obtain ⟨src', hsrc'⟩ := Option.isSome_iff_exists.1 hsrc
    constructor
    · refine request_replied ht ?_
      simp only [hsrc']
      exact decideMove_notReady (x := openTag s p tag .move) hc
    · refine request_replied ht ?_
      simp only [hsrc']
      exact decideMove_notReady (x := openTag s p tag .load) hc
  · obtain ⟨n, hn⟩ := Option.isSome_iff_exists.1 hnamed
    refine request_replied ht ?_
    have hlisted : unlessReleased (openTag s p tag .unload) p tag .unload (bayOfLea lea) = fun f => f (openTag s p tag .unload) := by
      funext f
      cases hb : bayOfLea lea with
      | none => rfl
      | some b => exact unlessReleased_some _ _ _ _ _ _ (by rw [openTag_released]; simpa [hb] using hrel)
    simp only [hlisted, hn]
    exact decideMove_notReady (x := openTag s p tag .unload) hc

theorem statusFields_openTag (s : State) (p q : Port) (tag : Byte) (k : ReqKind) :
    statusFields (openTag s q tag k) p = statusFields s p := by
  cases p <;> cases q <;> rfl

/-- Settles O37: what is reported does not look at the tag that the request opens. -/
theorem reportsAnswered : Obligations.ReportsAnswered := by
  intro s p tag ht
  refine ⟨fun first count hc => request_replied ht (if_neg hc), fun label => request_replied ht (if_pos rfl), fun label v hl hv ho => ?_,
    request_replied ht ?_⟩
  · refine request_replied ht ?_
    have hv' : (openTag s p tag .reportVolumes).volume label = some v := hv
    have ho' : ownOrScratch p v = true := ho
    simp [hl, hv', ho']
    rfl
  · rw [statusFields_openTag]

/-! ### RELEASE_VOLUME (R16) -/

theorem volume_label {s : State} {l : Label} {v : Volume} (h : s.volume l = some v) : v.label = l := by
  simpa using List.find?_some h

section
variable {s : State} {p : Port} {tag : Byte} {l : Label} {v : Volume}

theorem exec_releaseVolume_refused {code : ReplyCode} (ht : s.takes p tag) (hl : l.valid = true) (hr : releaseRefusal s p l = some code) :
    exec (.releaseVolume p tag l) s = .next (s.replied p tag .releaseVolume code) := by
  have hr' : releaseRefusal (openTag s p tag .releaseVolume) p l = some code := hr
  refine request_replied ht ?_
  simp only [hl, hr', Bool.not_true, Bool.false_eq_true, if_false]
  rfl

theorem exec_releaseVolume_begun (ht : s.takes p tag) (hl : l.valid = true) (hr : releaseRefusal s p l = none) (hv : s.volume l = some v)
    :
    exec (.releaseVolume p tag l) s = .next (pump (beginRelease (openTag s p tag .releaseVolume) p tag v)) := by
  have hr' : releaseRefusal (openTag s p tag .releaseVolume) p l = none := hr
  have hv' : (openTag s p tag .releaseVolume).volume l = some v := hv
  change execReleaseVolume p tag l s = _
  rw [execReleaseVolume, request_taken _ _ ht]
  simp only [hl, hr', hv', Bool.not_true, Bool.false_eq_true, if_false]

/-- The elements after a release: the one where a MISPLACED volume stands is NORMAL. -/
theorem settleReleased_elements (s : State) (v : Volume) : (settleReleased s v).elements = s.elements.map (fun e =>
    match v.location, e.state with
    | .element q, .full l .misplaced => if e.pea = q then { e with state := .full l .normal } else e
    | _, _ => e) := by
  unfold settleReleased
  cases v.location with
  | element q =>
    refine List.map_congr_left fun e _ => ?_
    rcases e with ⟨pea, _ | _ | ⟨l, c⟩, claim⟩
    · split <;> rfl
    · split <;> rfl
    · by_cases hq : pea = q <;> cases c <;> simp [hq]
  | picker => simp
  | unknown => simp
  | outside n => simp

theorem beginRelease_fields (s : State) (p : Port) (tag : Byte) (v : Volume) :
    (beginRelease s p tag v).store = { s.store with volumes := s.store.volumes.map fun w => if w.label = v.label then w.released else w }
    ∧ (beginRelease s p tag v).ports = s.ports
    ∧ (beginRelease s p tag v).releaseWrites = s.releaseWrites ++ [⟨p, some tag, s.storeWrite.isSome, v⟩]
    ∧ (beginRelease s p tag v).elements = (settleReleased s v).elements := by
  unfold beginRelease settleReleased
  cases v.location <;> exact ⟨rfl, rfl, rfl, rfl⟩

end

theorem releaseInStore_front {s : State} {r : ReleaseWrite} {rest : List ReleaseWrite} (h : s.releaseWrites = r :: rest)
    (hr : r.behind = false ∨ s.storeWrite = none) : s.releaseInStore = some (r, rest) := by
  rcases hr with hr | hr <;> simp [State.releaseInStore, h, hr]

/-- Settles O36. -/
theorem volumeReleased : Obligations.VolumeReleased := by
  constructor
  · intro s p tag label ht hl
    refine ⟨fun hv => exec_releaseVolume_refused ht hl (by simp [releaseRefusal, hv]), fun v hv => ⟨?_, ?_, ?_⟩⟩
    · rintro ⟨q, hq, ho⟩
      exact exec_releaseVolume_refused ht hl (by simp [releaseRefusal, hv, firstRefusal, ho, hq])
    · intro ho hloc
      have hown : (v.owner.isSome && v.owner ≠ some p) = false := by rcases ho with ho | ho <;> simp [ho]
      have hbusy : (isPickerOrBay v || claimedAt s v) = true := by
        rcases hloc with h | ⟨b, h⟩ | ⟨q, h, hc⟩
        · simp [isPickerOrBay, h]
        · cases b <;> simp [isPickerOrBay, h, bayPea, isBay]
        · simp [claimedAt, h, hc]
      exact exec_releaseVolume_refused ht hl (by simp only [releaseRefusal, hv, firstRefusal, hown, hbusy]; rfl)
    · intro ho hpick hfree
      have hown : (v.owner.isSome && v.owner ≠ some p) = false := by rcases ho with ho | ho <;> simp [ho]
      have hidle : (isPickerOrBay v || claimedAt s v) = false := by
        cases hloc : v.location with
        | element q => simp [isPickerOrBay, claimedAt, hloc, (hfree q hloc).1, (hfree q hloc).2]
        | picker => exact absurd hloc hpick
        | unknown => simp [isPickerOrBay, claimedAt, hloc]
        | outside n => simp [isPickerOrBay, claimedAt, hloc]
      have hx := exec_releaseVolume_begun ht hl (by simp only [releaseRefusal, hv, firstRefusal, hown, hidle]; rfl) hv
      have hframe := exec_leaves (.releaseVolume p tag label) s _ hx
      obtain ⟨hstore, hports, hwrites, helements⟩ := beginRelease_fields (openTag s p tag .releaseVolume) p tag v
      refine ⟨_, hx, ?_, ?_, ?_, ?_, hframe⟩
      · rw [pump_store, hstore, volume_label hv]; rfl
      · rw [pump_eq, pump_eq, hports]
      · rw [pump_releaseWrites, hwrites]; rfl
      · rw [pump_elements, helements, settleReleased_elements]; rfl
  · intro s r rest hw hr
    have hx : exec .settingsStoreWriteComplete s = .next (pump (releaseWritten s r rest)) := by
      change execSettingsStoreWriteComplete s = _
      simp only [execSettingsStoreWriteComplete, releaseInStore_front hw hr, finish]
    refine ⟨_, hx, ?_, fun tag htag hu => ?_, ?_⟩
    · unfold releaseWritten answerHeld; cases r.tag <;> rfl
    · simp only [releaseWritten, answerHeld, htag]
      exact answer_sends tag .releaseVolume .done .none false hu
    · unfold releaseWritten answerHeld; cases r.tag <;> rfl

end Sys2Proof.Machine
end

section
/-! PROOFS. The two resets (R12, R52, R183, R184). -/

namespace Sys2Proof.Machine

/-! ### What a cut-short store write leaves (log entries 10 and 44) -/

theorem cutShort_settings_of_none {s : State} (h : s.storeWrite = none) : (cutShort s).1 = s.settings := by
  unfold cutShort
  rw [h]
  cases s.releaseInStore <;> rfl

theorem cutShort_settings_of_release {s : State} {r : ReleaseWrite} {rest : List ReleaseWrite} (h : s.releaseWrites = r :: rest)
    (hr : r.behind = false) : (cutShort s).1 = s.settings := by
  simp only [cutShort, releaseInStore_front h (.inl hr)]

theorem cutShort_settings_of_write {s : State} {q : ConfigRequest} (h : s.storeWrite = some q) :
    (cutShort s).1 = s.settings ∨ (cutShort s).1 = s.settings.with q.entries := by
  unfold cutShort
  rw [h]
  cases s.releaseInStore with
  | some x => exact .inl rfl
  | none =>
    dsimp only
    split
    · exact .inr rfl
    · exact .inl rfl

theorem cutShort_releases_of_none {s : State} (h : s.releaseWrites = []) : (cutShort s).2 = [] := by
  have hnone : s.releaseInStore = none := by simp [State.releaseInStore, h]
  unfold cutShort
  rw [hnone]
  cases s.storeWrite <;> exact h

/-- What of a record no release and no reset touches. -/
def Volume.lasting (v : Volume) := (v.label, v.home, v.cls, v.writeProtected, v.softErrors, v.hardErrors)

theorem Volume.lasting_afterReset (v : Volume) : v.afterReset.lasting = v.lasting := by
  unfold Volume.afterReset
  split <;> rfl

theorem lasting_unreleased (rs : List ReleaseWrite) (v : Volume) : (unreleased rs v).lasting = v.lasting := by
  unfold unreleased
  induction rs with
  | nil => rfl
  | cons r rs ih =>
    rw [List.foldr_cons, ← ih]
    split <;> rfl

theorem storeAtReset_lasting (s : State) : (storeAtReset s).volumes.map Volume.lasting = s.store.volumes.map Volume.lasting := by
  simp [storeAtReset, Function.comp_def, Volume.lasting_afterReset, lasting_unreleased]

theorem Volume.afterReset_eq (v : Volume) : v.afterReset = { v with location :=
    match v.location with
    | .outside n => .outside n
    | _ => .unknown } := by
  rcases v with ⟨_, _, loc, _⟩
  cases loc <;> rfl

/-! ### The board reset -/

section
variable {s : State} {l1 l0 serviceOpen mailOpen : Bool}

/-- The part after a board reset, but for a picker that stays DISABLED. -/
def boardReset (s : State) (l1 l0 serviceOpen mailOpen : Bool) : State :=
  { resetPart s l1 l0 serviceOpen mailOpen with scratchPointer := keptPointer s (resetPart s l1 l0 serviceOpen mailOpen) }

theorem exec_boardReset : exec (.boardReset l1 l0 serviceOpen mailOpen) s = .next (if s.picker.state = .disabled
    then (boardReset s l1 l0 serviceOpen mailOpen).modPicker Picker.disabledReset else boardReset s l1 l0 serviceOpen mailOpen) := rfl

theorem boardReset_pointer (k : Nat) (h : k = keptPointer s (resetPart s l1 l0 serviceOpen mailOpen)) :
    (if s.picker.state = .disabled then (boardReset s l1 l0 serviceOpen mailOpen).modPicker Picker.disabledReset
      else boardReset s l1 l0 serviceOpen mailOpen).scratchPointer = k := by
  subst h
  split <;> rfl

end

/-- Settles O11. -/
theorem resetsRebuild : Obligations.ResetsRebuild := by
  intro l1 l0 serviceOpen mailOpen s
  refine ⟨resetPart s l1 l0 serviceOpen mailOpen, _, rfl, exec_boardReset, rfl, rfl, rfl, rfl, rfl, rfl, ?_, ?_, ?_, ?_, rfl, rfl, rfl,
      rfl,
    rfl, rfl, rfl, rfl, rfl, rfl, rfl, rfl, rfl, rfl, fun hs => ?_, fun hp => ?_, fun hp => ?_, fun hs => ?_⟩
  · rintro (h | ⟨r, rest, h, hr⟩)
    · exact cutShort_settings_of_none h
    · exact cutShort_settings_of_release h hr
  · exact fun q hq => cutShort_settings_of_write hq
  · intro h
    change (storeAtReset s).volumes = _
    simp only [storeAtReset, cutShort_releases_of_none h]
    exact List.map_congr_left fun v _ => (Volume.afterReset_eq v).trans (by cases v.location <;> rfl)
  · exact storeAtReset_lasting s
  · rw [if_neg hs]
    rfl
  · exact boardReset_pointer _ (if_pos hp).symm
  · exact boardReset_pointer _ (if_neg (Nat.not_lt.2 hp)).symm
  · rw [if_pos hs]
    exact ⟨rfl, rfl, rfl, rfl⟩

end Sys2Proof.Machine
end

section
/-! PROOFS. The link up (R170), the frame sent (R151, R173, R176) and the claim hold (R178). -/

namespace Sys2Proof.Machine

/-! ### The credit notices (R80, R175) -/

/-- A port after a notice to it. -/
def PortCtl.noticed (n : Notice) (c : PortCtl) : PortCtl := if c.up then { c with control := queueControl n c.control } else c

theorem queueNotice_port (s : State) (p : Port) (n : Notice) : (queueNotice s p n).port p = (s.port p).noticed n :=
  (modPort_at s p p _).trans (if_pos rfl)

theorem queueNotice_port_ne (s : State) {p q : Port} (n : Notice) (h : q ≠ p) : (queueNotice s p n).port q = s.port q :=
  (modPort_at s p q _).trans (if_neg h)

theorem creditNotice_port_ne (old : Buffer) (s : State) {p q : Port} (h : q ≠ p) : (creditNotice old s p).port q = s.port q := by
  unfold creditNotice
  dsimp only
  split
  · rfl
  · exact queueNotice_port_ne s _ h

theorem creditNotice_port (old : Buffer) (s : State) (p : Port) : (creditNotice old s p).port p = s.port p
    ∨ ∃ u d, (creditNotice old s p).port p = (s.port p).noticed (.credit u d) := by
  unfold creditNotice
  dsimp only
  split
  · exact .inl rfl
  · exact .inr ⟨_, _, queueNotice_port s p _⟩

/-- All that a change of the buffer does at a port: at most a CREDIT notice. -/
theorem onBuffer_port (s : State) (f : CreditEnv → Buffer → Buffer) (p : Port) : (onBuffer s f).port p = s.port p
    ∨ ∃ u d, (onBuffer s f).port p = (s.port p).noticed (.credit u d) := by
  let t := { s with buffer := f s.creditEnv s.buffer }
  have stands : ∀ u : State, u.port p = s.port p → (creditNotice s.buffer u p).port p = s.port p
      ∨ ∃ x d, (creditNotice s.buffer u p).port p = (s.port p).noticed (.credit x d) := by
    intro u hu
    rw [← hu]
    exact creditNotice_port s.buffer u p
  unfold onBuffer
  cases p with
  | p0 =>
    rw [creditNotice_port_ne _ _ (by decide), creditNotice_port_ne _ _ (by decide)]
    exact stands t rfl
  | p1 =>
    rw [creditNotice_port_ne _ _ (by decide)]
    exact stands _ (creditNotice_port_ne s.buffer t (by decide))
  | p2 => exact stands _ (by rw [creditNotice_port_ne _ _ (by decide), creditNotice_port_ne s.buffer t (by decide)]; rfl)

/-! ### LINK_UP (R170) -/

/-- The port controller as a link up finds it and the CONDITION notice leaves it. -/
def PortCtl.upWith (c : PortCtl) (cs : List Control) : PortCtl :=
  { c with up := true, claimTimer := .stopped, holding := .all false, control := cs }

theorem noticed_upWith (c : PortCtl) (cs : List Control) (n : Notice) : (c.upWith cs).noticed n = c.upWith (queueControl n cs) := rfl

/-- The state in which the port is attached to its credit. -/
def linkTold (s : State) (p : Port) : State :=
  queueNotice (s.modPort p fun c => { c with up := true, claimTimer := .stopped, holding := .all false }) p
    (.condition s.picker.condition)

theorem linkTold_port {s : State} {p : Port} (hc : (s.port p).control = []) :
    (linkTold s p).port p = (s.port p).upWith [.notice (.condition s.picker.condition)] := by
  rw [linkTold, queueNotice_port, modPort_at, if_pos rfl]
  simp only [PortCtl.noticed, PortCtl.upWith, hc, queueControl, if_true]

theorem linkTold_creditEnv (s : State) (p : Port) : (linkTold s p).creditEnv = { s.creditEnv with up := s.creditEnv.up.set p true } := by
  cases p <;> simp [linkTold, queueNotice, State.creditEnv, State.modPort, PerPort.set, PerPort.get, State.settings]

theorem linkUp_eq (s : State) (p : Port) : linkUp s p = queueNotice (onBuffer (linkTold s p) fun v b => b.attach v p) p
    (.credit ((onBuffer (linkTold s p) fun v b => b.attach v p).buffer.share.get p).cumUnits
      ((onBuffer (linkTold s p) fun v b => b.attach v p).buffer.share.get p).cumDescs) := rfl

theorem linkUp_buffer (s : State) (p : Port) :
    (linkUp s p).buffer = s.buffer.attach { s.creditEnv with up := s.creditEnv.up.set p true } p := by
  have hb : (linkTold s p).buffer = s.buffer := rfl
  simp only [linkUp_eq, frame_queueNotice, onBuffer_buffer, linkTold_creditEnv, hb]

theorem linkUp_port {s : State} {p : Port} (hc : (s.port p).control = []) : (linkUp s p).port p
    = (s.port p).upWith [.notice (.condition s.picker.condition),
        .notice (.credit ((linkUp s p).buffer.share.get p).cumUnits ((linkUp s p).buffer.share.get p).cumDescs)] := by
  have hb : (linkUp s p).buffer = (onBuffer (linkTold s p) fun v b => b.attach v p).buffer := by simp only [linkUp_eq, frame_queueNotice]
  rw [hb, linkUp_eq, queueNotice_port]
  obtain h | ⟨u, d, h⟩ := onBuffer_port (linkTold s p) (fun v b => b.attach v p) p <;>
    rw [h, linkTold_port hc] <;> rfl

/-- Settles O22. -/
theorem linkUpAttaches : Obligations.LinkUpAttaches := by
  intro s p
  refine ⟨fun hu => if_pos hu, fun hu hc hs => ?_⟩
  have hx : exec (.linkUp p) s = .next (pump (linkUp s p)) := if_neg (by simp [hu])
  have hframe := exec_leaves (.linkUp p) s _ hx
  refine ⟨_, hx, ?_, ?_, ?_⟩
  · rw [pump_buffer, linkUp_buffer]
  · rw [pump_port, linkUp_port hc, pump_buffer]
    exact PortCtl.pump_control rfl hs rfl
  · exact hframe

/-! ### FRAME_SENT (R151, R173, R176) -/

/-- A run but for its staged entries. -/
def RestoreRun.sansStaged (r : RestoreRun) : RestoreRun := { r with staged := [] }

/-- The bay's run but for its staged entries. -/
def State.runAt (s : State) (b : Bay) : Option RestoreRun := (s.restore b).map RestoreRun.sansStaged

theorem runAt_of_restores {s t : State} {b : Bay} (h : t.restores = s.restores) : t.runAt b = s.runAt b := by
  rw [State.runAt, State.runAt, State.restore, State.restore, h]

theorem runAt_onBuffer (s : State) (f : CreditEnv → Buffer → Buffer) (b : Bay) : (onBuffer s f).runAt b = s.runAt b :=
  runAt_of_restores (by simp)

theorem runAt_modRestore (s : State) (b : Bay) {f : RestoreRun → RestoreRun} (hf : ∀ r, (f r).sansStaged = r.sansStaged) :
    (s.modRestore b f).runAt b = s.runAt b := by
  rw [State.runAt, State.runAt, modRestore_at, if_pos rfl, Option.map_map]
  exact congrArg (fun g => Option.map g (s.restore b)) (funext hf)

theorem runAt_askNext (s : State) (b : Bay) : (askNext s b).runAt b = s.runAt b := by
  unfold askNext
  split
  · split
    · rw [runAt_onBuffer]
      exact runAt_modRestore s b fun _ => rfl
    · rfl
  · rfl

theorem runAt_offerStaged (s : State) (b : Bay) : (offerStaged s b).runAt b = s.runAt b := by
  unfold offerStaged
  repeat' split
  · exact runAt_modRestore _ b fun _ => rfl
  · rfl
  · rfl
  · rfl
  · rfl

theorem runAt_handReady (s : State) (b : Bay) : (handReady s b).runAt b = s.runAt b := by
  unfold handReady
  split
  · next r hr =>
    have hq : ∀ (t : State) fs, (queueFrames t r.port fs).runAt b = t.runAt b := fun t fs => runAt_of_restores (by simp)
    dsimp only
    rw [hq, State.runAt, State.runAt, setRestore_at, if_pos rfl, hr]
    rfl
  · rfl

theorem runAt_restoreAdvance (s : State) (b : Bay) : (restoreAdvance s b).runAt b = s.runAt b :=
  (runAt_handReady _ b).trans ((runAt_offerStaged _ b).trans (runAt_askNext s b))

/-- R151: a record whose frame is sent counts as delivered, and the continuation block is the block after it (R73). -/
theorem recordDelivered_of {s : State} {b : Bay} {block : Nat} {id : Option Nat} {r : RestoreRun} {e : Staged} (hr : s.restore b = some r)
    (he : r.staged.find? (fun e => e.block = block && e.desc = id && e.stage = .sending) = some e) :
    (recordDelivered s b block id).runAt b = some { r with delivered := r.delivered + 1, staged := [] }
    ∧ ((recordDelivered s b block id).drive b).continuation = some (block + 1) := by
  let u := ((releaseOpt (dropStaged s b block) e.desc).modRestore b fun r => { r with delivered := r.delivered + 1 }).modDrive b
    fun d => { d with continuation := some (block + 1) }
  have hu : recordDelivered s b block id = restoreAdvance u b := by
    unfold recordDelivered
    rw [hr]
    dsimp only
    rw [he]
  have hrun : (releaseOpt (dropStaged s b block) e.desc).restore b = some { r with staged := r.staged.filter fun e => e.block ≠ block }
      := by
    have hres : (releaseOpt (dropStaged s b block) e.desc).restores = (dropStaged s b block).restores := by simp
    rw [State.restore, hres, ← State.restore, dropStaged, modRestore_at, if_pos rfl, hr]
    rfl
  rw [hu]
  refine ⟨(runAt_restoreAdvance u b).trans ?_, ?_⟩
  · have hur : u.restore b = some { r with staged := r.staged.filter fun e => e.block ≠ block, delivered := r.delivered + 1 } :=
      (modRestore_at _ b b _).trans (by rw [if_pos rfl, hrun]; rfl)
    rw [State.runAt, hur]
    rfl
  · have hdrives : (restoreAdvance u b).drives = u.drives := by simp
    rw [State.drive, hdrives, ← State.drive]
    exact congrArg Drive.continuation ((modDrive_at _ b b _).trans (if_pos rfl))

theorem onRunOf_current {s : State} {b : Bay} {id : Option Nat} {r : RestoreRun} {e : Staged} (f : State → State)
    (hr : s.restore b = some r) (he : e ∈ r.staged) (hid : e.desc = id) : onRunOf s b id f = f s := by
  cases id with
  | none =>
    have none_staged : ∀ r : RestoreRun, r.stages none = false := by
      intro r
      simp only [RestoreRun.stages, List.any_eq_false]
      intro x _ hx
      cases hd : x.desc <;> simp [hd] at hx
    have none_left : (s.restores.get b).left.findIdx? (fun r => r.stages none) = none :=
      List.findIdx?_eq_none_iff.2 fun r _ => none_staged r
    rw [onRunOf, hr, Option.any_some, none_staged, if_neg Bool.false_ne_true, none_left]
  | some n =>
    have hst : r.stages (some n) = true := List.any_eq_true.2 ⟨e, he, by simp [hid]⟩
    simp [onRunOf, hr, hst]

/-- The state once the frame's end is dealt with. -/
def afterFrame (s : State) (p : Port) (f : Frame) : State := frameEnded (s.modPort p fun c => { c with sending := none }) p f

theorem exec_frameSent {s : State} {p : Port} {f : Frame} (h : (s.port p).sending = some f) : exec (.frameSent p) s
    = .next (pump (if ((afterFrame s p f).port p).control.isEmpty && ((afterFrame s p f).port p).frames.isEmpty
        then idleReport (afterFrame s p f) p else afterFrame s p f)) := by
  change execFrameSent p s = _
  simp only [execFrameSent, h]
  change (if ((afterFrame s p f).port p).control.isEmpty && ((afterFrame s p f).port p).frames.isEmpty
    then finish (idleReport (afterFrame s p f) p) else finish (afterFrame s p f)) = _
  by_cases hb : (((afterFrame s p f).port p).control.isEmpty && ((afterFrame s p f).port p).frames.isEmpty) = true
  · rw [if_pos hb, if_pos hb, finish]
  · rw [if_neg hb, if_neg hb, finish]

theorem exec_frameSent_busy {s : State} {p : Port} {f : Frame} (h : (s.port p).sending = some f)
    (hc : ((afterFrame s p f).port p).control ≠ []) : exec (.frameSent p) s = .next (pump (afterFrame s p f)) := by
  rw [exec_frameSent h, if_neg (by simp [hc])]

/-- Settles O19. -/
theorem frameSentFreesAndDelivers : Obligations.FrameSentFreesAndDelivers := by
  refine ⟨fun s p r hs hc => ?_, fun s p n hs hc => ?_, fun s p d r e hs hr he => ?_⟩
  · have hafter : afterFrame s p (.control (.reply r))
        = s.modPort p fun c => { c with sending := none, tags := if r.frees then c.tags.set r.tag.toNat none else c.tags } := by
      simp only [afterFrame, frameEnded]
      split
      · cases p <;> rfl
      · rfl
    rw [exec_frameSent_busy hs, hafter]
    rw [hafter, modPort_at, if_pos rfl]
    exact hc
  · refine exec_frameSent_busy hs ?_
    simpa [afterFrame, frameEnded] using hc
  · let u := recordDelivered (s.modPort p fun c => { c with sending := none }) d.bay d.block d.desc
    have hafter : afterFrame s p (.data d) = onBuffer u settle := by
      have hmem := List.mem_of_find?_eq_some he
      have hdesc : e.desc = d.desc := by have := List.find?_some he; simp_all
      rw [afterFrame, frameEnded, onRunOf_current _ (s := s.modPort p fun c => { c with sending := none }) hr hmem hdesc]
    obtain ⟨hrun, hcont⟩ := recordDelivered_of (s := s.modPort p fun c => { c with sending := none }) hr he
    have hx := exec_frameSent hs
    have hframe := exec_leaves (.frameSent p) s _ hx
    have hrestores : (if ((afterFrame s p (.data d)).port p).control.isEmpty && ((afterFrame s p (.data d)).port p).frames.isEmpty
        then idleReport (afterFrame s p (.data d)) p else afterFrame s p (.data d)).restores = u.restores := by
      rw [hafter]; split <;> simp
    have hdrives : (if ((afterFrame s p (.data d)).port p).control.isEmpty && ((afterFrame s p (.data d)).port p).frames.isEmpty
        then idleReport (afterFrame s p (.data d)) p else afterFrame s p (.data d)).drives = u.drives := by
      rw [hafter]; split <;> simp
    obtain ⟨w, hw, hwr⟩ := Option.map_eq_some_iff.1 hrun
    have hstore := congrArg State.store hframe
    have helements := congrArg State.elements hframe
    have hpicker := congrArg State.picker hframe
    refine ⟨_, w, hx, ?_, congrArg RestoreRun.delivered hwr, ?_, hstore, helements, hpicker⟩
    · rw [pump_restore, State.restore, hrestores]; exact hw
    · rw [pump_drive, State.drive, hdrives]; exact hcont

end Sys2Proof.Machine
end

section
/-! PROOFS. The end of a claim hold: the released-bay list, the unload-owed marks and the queued UNLOADs (R50, R178). -/

namespace Sys2Proof.Machine

/-! ### The owed unloads (R50) -/

/-- What a mark's step leaves alone: all but the move queue, its next number, and the claims. -/
structure MarksOnly (s t : State) : Prop where
  ports : t.ports = s.ports
  drives : t.drives = s.drives
  store : t.store = s.store
  buffer : t.buffer = s.buffer
  streams : t.streams = s.streams
  restores : t.restores = s.restores
  verifies : t.verifies = s.verifies
  started : ∀ p b, startedNames t p b = startedNames s p b

theorem MarksOnly.refl (s : State) : MarksOnly s s := ⟨rfl, rfl, rfl, rfl, rfl, rfl, rfl, fun _ _ => rfl⟩

theorem MarksOnly.trans {s t u : State} (h : MarksOnly s t) (g : MarksOnly t u) : MarksOnly s u :=
  ⟨g.ports.trans h.ports, g.drives.trans h.drives, g.store.trans h.store, g.buffer.trans h.buffer, g.streams.trans h.streams,
    g.restores.trans h.restores, g.verifies.trans h.verifies, fun p b => (g.started p b).trans (h.started p b)⟩

theorem MarksOnly.bayOwedBy {s t : State} (h : MarksOnly s t) (p : Port) (b : Bay) : bayOwedBy t p b = bayOwedBy s p b := by
  have hport : t.port p = s.port p := congrArg (PerPort.get · p) h.ports
  have hdrive : t.drive b = s.drive b := congrArg (PerBay.get · b) h.drives
  have hstream : t.stream b = s.stream b := congrArg (PerBay.get · b) h.streams
  have hrestore : t.restore b = s.restore b := congrArg (fun x => (PerBay.get x b).current) h.restores
  have hverify : t.verifyRun b = s.verifyRun b := congrArg (fun x => (PerBay.get x b).current) h.verifies
  rw [Machine.bayOwedBy, Machine.bayOwedBy, hport, hdrive, hstream, hrestore, hverify, h.started]

theorem marksOnly_queueOwedUnload (s : State) (b : Bay) : MarksOnly s (queueOwedUnload s b)
    ∧ (queueOwedUnload s b).picker.unloadOwed = s.picker.unloadOwed := by
  unfold queueOwedUnload
  split
  · refine ⟨⟨rfl, rfl, rfl, rfl, rfl, rfl, rfl, fun p a => ?_⟩, rfl⟩
    simp [startedNames, acceptEntry, setClaim, modElement, State.modPicker, Requester.isPort]
  · exact ⟨MarksOnly.refl s, rfl⟩

theorem marksOnly_queueOwedUnloads (s : State) : MarksOnly s (queueOwedUnloads s)
    ∧ (queueOwedUnloads s).picker.unloadOwed = s.picker.unloadOwed := by
  obtain ⟨h0, u0⟩ := marksOnly_queueOwedUnload s .d0
  obtain ⟨h1, u1⟩ := marksOnly_queueOwedUnload (queueOwedUnload s .d0) .d1
  exact ⟨h0.trans h1, u1.trans u0⟩

theorem markOwed_marked {s : State} {b : Bay} (h : s.picker.unloadOwed.get b = true) : markOwed s b = s := if_pos h

theorem markOwed_unmarked {s : State} {b : Bay} (h : s.picker.unloadOwed.get b = false) : MarksOnly s (markOwed s b)
    ∧ (markOwed s b).picker.unloadOwed = s.picker.unloadOwed.set b true := by
  obtain ⟨hm, hu⟩ := marksOnly_queueOwedUnloads (s.modPicker fun k => { k with unloadOwed := k.unloadOwed.set b true })
  rw [markOwed, if_neg (by simp [h])]
  have noted : MarksOnly s (s.modPicker fun k => { k with unloadOwed := k.unloadOwed.set b true }) :=
    ⟨rfl, rfl, rfl, rfl, rfl, rfl, rfl, fun _ _ => rfl⟩
  exact ⟨noted.trans hm, hu⟩

/-! ### The marks at the expiry (R178) -/

/-- From s to t only the bays that meet `due` are marked, and the picker stands where none is marked anew. -/
structure Marked (due : Bay → Bool) (s t : State) : Prop where
  only : MarksOnly s t
  marked : ∀ b, due b = true → t.picker.unloadOwed.get b = true
  others : ∀ b, due b = false → t.picker.unloadOwed.get b = s.picker.unloadOwed.get b
  still : t.picker.unloadOwed = s.picker.unloadOwed → t.picker = s.picker ∧ t.elements = s.elements

theorem PerBay.set_true_eq {x : PerBay Bool} {b : Bay} (h : x.set b true = x) : x.get b = true := by
  rw [← h]; simp

/-- One bay's mark at the expiry, when the timer governs its claim and its work has ended. -/
def markIf (due : Bool) (s : State) (b : Bay) : State := if due then markOwed s b else s

theorem markIf_marked (due : Bool) (s : State) (b : Bay) : Marked (fun a => due && decide (a = b)) s (markIf due s b) := by
  unfold markIf
  split
  · next hd =>
    cases h : s.picker.unloadOwed.get b with
    | true =>
      rw [markOwed_marked h]
      refine ⟨MarksOnly.refl s, fun a ha => ?_, fun _ _ => rfl, fun _ => ⟨rfl, rfl⟩⟩
      obtain rfl : a = b := by simpa [hd] using ha
      exact h
    | false =>
      obtain ⟨hm, hu⟩ := markOwed_unmarked h
      refine ⟨hm, fun a ha => ?_, fun a ha => ?_, fun heq => ?_⟩
      · obtain rfl : a = b := by simpa [hd] using ha
        rw [hu]; simp
      · have hne : a ≠ b := by simpa [hd] using ha
        rw [hu]; simp [hne]
      · exact absurd (PerBay.set_true_eq (hu.symm.trans heq)) (by simp [h])
  · next hd => exact ⟨MarksOnly.refl s, fun a ha => by simp [hd] at ha, fun _ _ => rfl, fun _ => ⟨rfl, rfl⟩⟩

theorem markIf_mono {due : Bool} {s : State} {a b : Bay} (h : s.picker.unloadOwed.get a = true) :
    (markIf due s b).picker.unloadOwed.get a = true := by
  have hm := markIf_marked due s b
  cases hd : due && decide (a = b) with
  | true => exact hm.marked a hd
  | false => rw [hm.others a hd, h]

/-- The marks of D0 and then D1. -/
theorem marked_both (due : Bay → Bool) (s : State) : Marked due s (markIf (due .d1) (markIf (due .d0) s .d0) .d1) := by
  have h0 := markIf_marked (due .d0) s .d0
  have h1 := markIf_marked (due .d1) (markIf (due .d0) s .d0) .d1
  refine ⟨h0.only.trans h1.only, fun b hb => ?_, fun b hb => ?_, fun heq => ?_⟩
  · cases b with
    | d0 => exact markIf_mono (h0.marked .d0 (by simpa using hb))
    | d1 => exact h1.marked .d1 (by simpa using hb)
  · rw [h1.others b (by cases b <;> simp [hb]), h0.others b (by cases b <;> simp [hb])]
  · have hfirst : (markIf (due .d0) s .d0).picker.unloadOwed = s.picker.unloadOwed := by
      have first : (markIf (due .d0) s .d0).picker.unloadOwed.d0 = s.picker.unloadOwed.d0 :=
        (h1.others .d0 (by simp)).symm.trans (congrArg (PerBay.get · .d0) heq)
      have second : (markIf (due .d0) s .d0).picker.unloadOwed.d1 = s.picker.unloadOwed.d1 := h0.others .d1 (by simp)
      exact congrArg₂ PerBay.mk first second
    obtain ⟨hp0, he0⟩ := h0.still hfirst
    obtain ⟨hp1, he1⟩ := h1.still (heq.trans hfirst.symm)
    exact ⟨hp1.trans hp0, he1.trans he0⟩

/-! ### The expiry -/

section
variable {s : State} {p : Port}

/-- A bay that the expiry marks. -/
def holdDue (s : State) (p : Port) (b : Bay) : Bool := holdGoverns s p b && bayOwedBy (holdExpired s p) p b

theorem holdExpiry_eq : holdExpiry s p = markIf (holdDue s p .d1) (markIf (holdDue s p .d0) (holdExpired s p) .d0) .d1 := by
  have first : (if holdGoverns s p .d0 then markIfOwed (holdExpired s p) p .d0 else holdExpired s p)
      = markIf (holdDue s p .d0) (holdExpired s p) .d0 := by
    unfold markIf holdDue markIfOwed
    cases holdGoverns s p .d0 <;> simp
  have owed : bayOwedBy (markIf (holdDue s p .d0) (holdExpired s p) .d0) p .d1 = bayOwedBy (holdExpired s p) p .d1 :=
    (markIf_marked _ _ _).only.bayOwedBy p .d1
  unfold holdExpiry
  dsimp only
  rw [first, markIfOwed, owed]
  cases hg : holdGoverns s p .d1 <;> cases ho : bayOwedBy (holdExpired s p) p .d1 <;>
    simp only [markIf, holdDue, hg, ho, if_true, if_false, Bool.and_false, Bool.and_true, Bool.false_eq_true]

theorem holdExpiry_marked : Marked (holdDue s p) (holdExpired s p) (holdExpiry s p) := by
  rw [holdExpiry_eq]
  exact marked_both (holdDue s p) (holdExpired s p)

theorem holdExpired_port : (holdExpired s p).port p = { s.port p with
    claimTimer := .stopped, holding := .all false,
    released := (s.port p).released ++ [Bay.d0, .d1].filter (holdGoverns s p) } :=
  (modPort_at s p p _).trans (if_pos rfl)

theorem holdExpiry_port : (holdExpiry s p).port p = (holdExpired s p).port p := by
  rw [State.port, State.port, holdExpiry_marked.only.ports]

theorem mem_released_holdExpiry (b : Bay) : b ∈ ((holdExpiry s p).port p).released ↔ b ∈ (s.port p).released ∨ holdGoverns s p b = true
    := by
  rw [holdExpiry_port, holdExpired_port]
  cases b <;> simp

theorem holdGoverns_iff (b : Bay) : holdGoverns s p b = true
    ↔ ((s.port p).holding.get b = true ∧ bayClaimed s p b = true) ∧ b ∉ (s.port p).released := by
  simp [holdGoverns, claimOutside, and_assoc]

end

@[simp] theorem PortCtl.pump_claimTimer (c : PortCtl) : c.pump.claimTimer = c.claimTimer := by
  unfold PortCtl.pump
  split
  · rfl
  · split <;> rfl

@[simp] theorem PortCtl.pump_released (c : PortCtl) : c.pump.released = c.released := by
  unfold PortCtl.pump
  split
  · rfl
  · split <;> rfl

@[simp] theorem bayOwedBy_pump (s : State) (p : Port) (b : Bay) : bayOwedBy (pump s) p b = bayOwedBy s p b := by
  simp only [bayOwedBy, pump_port, PortCtl.pump_released]
  rfl

theorem queueOwedUnload_queued {s : State} {b : Bay} (h : s.picker.unloadOwed.get b = true) (hi : s.picker.internalEntries < 2)
    (hc : s.isClaimed (bayPea b) = false) : queueOwedUnload s b
      = acceptEntry s .internal .unload (bayPea b) none ((s.elemState (bayPea b)).bind (·.anyLabel)) .queued := by
  simp [queueOwedUnload, h, hi, hc, Config.internalPlaces]

theorem queueOwedUnload_unmarked {s : State} {b : Bay} (h : s.picker.unloadOwed.get b = false) : queueOwedUnload s b = s := by
  simp [queueOwedUnload, h]

/-- Settles O24. -/
theorem claimHoldEnds : Obligations.ClaimHoldEnds := by
  refine ⟨fun s p hr => ?_, fun s p b ho hu => ?_, fun s b hu hi hc => ?_⟩
  · have hx : exec (.claimHoldTimerExpiry p) s = .next (pump (holdExpiry s p)) := if_pos hr
    have hm := holdExpiry_marked (s := s) (p := p)
    refine ⟨_, hx, ?_, fun b => ?_, fun b hb hn ho => ?_, fun b hb => ?_, ?_, ?_, ?_, ?_⟩
    · rw [pump_port, PortCtl.pump_claimTimer, holdExpiry_port, holdExpired_port]
    · rw [pump_port, PortCtl.pump_released, mem_released_holdExpiry, holdGoverns_iff]
      tauto
    · rw [pump_port, PortCtl.pump_released, mem_released_holdExpiry] at hb
      rw [bayOwedBy_pump, hm.only.bayOwedBy] at ho
      exact hm.marked b (by rw [holdDue, hb.resolve_left hn, ho]; rfl)
    · have hng : holdGoverns s p b = false := by
        rw [← Bool.not_eq_true, holdGoverns_iff]
        rw [pump_port, PortCtl.pump_released, mem_released_holdExpiry, holdGoverns_iff] at hb
        tauto
      exact hm.others b (by rw [holdDue, hng]; rfl)
    · rw [pump_picker, pump_elements]; exact hm.still
    · rw [pump_drives]; exact hm.only.drives
    · rw [pump_store]; exact hm.only.store
    · rw [pump_buffer]; exact hm.only.buffer
  · have hany : ((bayOwedBy s .p0 b || bayOwedBy s .p1 b || bayOwedBy s .p2 b) && !s.picker.unloadOwed.get b) = true := by
      cases p <;> simp [ho, hu]
    have hx : exec (.unloadOwedMark b) s = .next (pump (markOwed s b)) := if_pos hany
    obtain ⟨hm, hset⟩ := markOwed_unmarked hu
    exact ⟨_, hx, hset, hm.drives, hm.store, hm.buffer⟩
  · change finish (queueOwedUnloads s) = _
    rw [finish, queueOwedUnloads]
    cases b with
    | d0 =>
      have hfirst := queueOwedUnload_queued (b := .d0) (by rw [hu]; rfl) hi hc
      rw [queueOwedUnload_unmarked (b := .d1), hfirst]
      rw [(marksOnly_queueOwedUnload s .d0).2, hu]
      rfl
    | d1 =>
      rw [queueOwedUnload_unmarked (b := .d0) (by rw [hu]; rfl), queueOwedUnload_queued (by rw [hu]; rfl) hi hc]

end Sys2Proof.Machine
end

section
/-! PROOFS. What the element table shows after each operation on it (R7, R10). -/

namespace Sys2Proof.Machine

/-! ### Entries by address -/

theorem element_pea {s : State} {q : Nat} {x : Element} (h : s.element q = some x) : x.pea = q := by
  simpa using List.find?_some h

theorem element_of_elements {s t : State} (h : t.elements = s.elements) (q : Nat) : t.element q = s.element q := by
  rw [State.element, State.element, h]

theorem elemState_of_elements {s t : State} (h : t.elements = s.elements) (q : Nat) : t.elemState q = s.elemState q := by
  rw [State.elemState, State.elemState, element_of_elements h]

theorem element_map {s t : State} {f : Element → Element} (h : t.elements = s.elements.map f) (hf : ∀ e, (f e).pea = e.pea) (q : Nat) :
    t.element q = (s.element q).map f := by
  rw [State.element, State.element, h, List.find?_map]
  congr 2
  funext e
  simp [hf]

/-- A change of the claims alone shows the same entries. -/
theorem elemState_map_claims {s t : State} {f : Element → Element} (h : t.elements = s.elements.map f)
    (hf : ∀ e, (f e).pea = e.pea ∧ (f e).state = e.state) (q : Nat) : t.elemState q = s.elemState q := by
  rw [State.elemState, State.elemState, element_map h fun e => (hf e).1, Option.map_map]
  exact congrArg (fun g => Option.map g (s.element q)) (funext fun e => (hf e).2)

theorem modElement_element (s : State) (q : Nat) {f : Element → Element} (hf : ∀ e, (f e).pea = e.pea) (r : Nat) :
    (modElement s q f).element r = if r = q then (s.element r).map f else s.element r := by
  have hmap := element_map (t := modElement s q f) (s := s) rfl (fun e => by split <;> simp [hf]) r
  rw [hmap]
  cases h : s.element r with
  | none => split <;> rfl
  | some x =>
    have hx := element_pea h
    by_cases hr : r = q <;> simp [hx, hr]

@[simp] theorem setElem_element (s : State) (q : Nat) (st : ElemState) (r : Nat) :
    (setElem s q st).element r = if r = q then (s.element r).map fun e => { e with state := st } else s.element r :=
  modElement_element s q (f := fun e => { e with state := st }) (fun _ => rfl) r

@[simp] theorem setElem_elemState (s : State) (q : Nat) (st : ElemState) (r : Nat) :
    (setElem s q st).elemState r = if r = q then (s.elemState r).map fun _ => st else s.elemState r := by
  rw [State.elemState, State.elemState, setElem_element]
  split <;> cases s.element r <;> rfl

theorem setElem_elemState_same {s : State} {q : Nat} (st : ElemState) (h : s.installed q = true) :
    (setElem s q st).elemState q = some st := by
  obtain ⟨x, hx⟩ := Option.isSome_iff_exists.1 h
  simp [State.elemState, hx]

@[simp] theorem setElem_installed (s : State) (q : Nat) (st : ElemState) (r : Nat) : (setElem s q st).installed r = s.installed r := by
  rw [State.installed, State.installed, setElem_element]
  split <;> cases s.element r <;> rfl

@[simp] theorem setClaim_elemState (s : State) (q n r : Nat) : (setClaim s q n).elemState r = s.elemState r :=
  elemState_map_claims rfl (fun e => by split <;> exact ⟨rfl, rfl⟩) r

@[simp] theorem clearClaims_elemState (s : State) (n r : Nat) : (clearClaims s n).elemState r = s.elemState r :=
  elemState_map_claims rfl (fun e => by split <;> exact ⟨rfl, rfl⟩) r

@[simp] theorem acceptEntry_elemState (s : State) (q : Requester) (kind : MoveKind) (src : Nat) (dst : Option Nat) (l : Option Label)
    (ph : Phase) (r : Nat) : (acceptEntry s q kind src dst l ph).elemState r = s.elemState r :=
  elemState_map_claims (acceptEntry_elements s q kind src dst l ph) (fun e => by split <;> exact ⟨rfl, rfl⟩) r

theorem elemState_isSome (s : State) (q : Nat) : (s.elemState q).isSome = s.installed q := by
  rw [State.elemState, State.installed, Option.isSome_map]

end Sys2Proof.Machine
end

section
/-! PROOFS. The move requests, AUDIT and RECOVER that pass their tests (R28 to R32, R43, R48). -/

namespace Sys2Proof.Machine

/-! ### The map that a move is tested on (R183) -/

theorem firstRefusal_eq_none {tests : List (Bool × ReplyCode)} : firstRefusal tests = none ↔ ∀ x ∈ tests, x.1 = false := by
  induction tests with
  | nil => simp [firstRefusal]
  | cons x rest ih =>
    obtain ⟨bad, code⟩ := x
    cases bad <;> simp [firstRefusal, ih]

/-- An element under the new map: a MISPLACED cartridge may be NORMAL there. -/
def Element.settledTo (x y : Element) : Prop :=
  y = x ∨ ∃ l, x.state = .full (some l) .misplaced ∧ y = { x with state := .full (some l) .normal }

theorem settleMisplaced_element (s : State) (q : Nat) :
    (s.element q = none ∧ (settleMisplaced s).element q = none)
    ∨ ∃ x y, s.element q = some x ∧ (settleMisplaced s).element q = some y ∧ x.settledTo y := by
  have key : ∀ es : List Element, ∀ f : Element → Element, (∀ e : Element, e.settledTo (f e)) →
      (es.find? (fun e => e.pea = q) = none ∧ (es.map f).find? (fun e => e.pea = q) = none)
      ∨ ∃ x y, es.find? (fun e => e.pea = q) = some x ∧ (es.map f).find? (fun e => e.pea = q) = some y ∧ x.settledTo y := by
    intro es f hf
    have hpea : ∀ e, (f e).pea = e.pea := by
      intro e
      rcases hf e with h | ⟨l, -, h⟩ <;> rw [h]
    have hfind : (es.map f).find? (fun e => e.pea = q) = (es.find? fun e => e.pea = q).map f := by
      rw [List.find?_map]
      congr 2
      funext e
      simp [hpea]
    rw [hfind]
    cases es.find? fun e => e.pea = q with
    | none => exact .inl ⟨rfl, rfl⟩
    | some x => exact .inr ⟨x, f x, rfl, rfl, hf x⟩
  refine key s.elements _ fun e => ?_
  split
  · next l he =>
    split
    · split
      · exact .inr ⟨l, he, rfl⟩
      · exact .inl rfl
    · exact .inl rfl
  · exact .inl rfl

theorem planned_element (s : State) (q : Nat) :
    (s.element q = none ∧ s.planned.element q = none) ∨ ∃ x y, s.element q = some x ∧ s.planned.element q = some y ∧ x.settledTo y := by
  have same : (s.element q = none ∧ s.element q = none) ∨ ∃ x y, s.element q = some x ∧ s.element q = some y ∧ x.settledTo y := by
    cases h : s.element q with
    | none => exact .inl ⟨rfl, rfl⟩
    | some x => exact .inr ⟨x, x, rfl, rfl, .inl rfl⟩
  unfold State.planned
  split
  · unfold applySettings
    dsimp only
    split
    · exact settleMisplaced_element { s with store := _, scratchPointer := 0 } q
    · exact same
  · exact same

theorem planned_fields (s : State) : s.planned.drives = s.drives ∧ s.planned.store.volumes = s.store.volumes
    ∧ s.planned.mailOpen = s.mailOpen := by
  unfold State.planned
  split
  · unfold applySettings
    dsimp only
    split <;> exact ⟨rfl, rfl, rfl⟩
  · exact ⟨rfl, rfl, rfl⟩

theorem planned_drive (s : State) (b : Bay) : s.planned.drive b = s.drive b := congrArg (PerBay.get · b) (planned_fields s).1

theorem planned_volume (s : State) (l : Label) : s.planned.volume l = s.volume l := by
  rw [State.volume, State.volume, (planned_fields s).2.1]

theorem planned_elemVolume (s : State) (q : Nat) : s.planned.elemVolume q = s.elemVolume q := by
  have hvol : s.planned.volume = s.volume := funext (planned_volume s)
  unfold State.elemVolume State.elemState
  rw [hvol]
  rcases planned_element s q with ⟨h, h'⟩ | ⟨x, y, h, h', rfl | ⟨l, hx, rfl⟩⟩
  · rw [h, h']
  · rw [h, h']
  · rw [h, h']
    simp [hx, ElemState.namedLabel]

theorem planned_empty {s : State} {q : Nat} {k : Option Nat} (h : s.element q = some ⟨q, .empty, k⟩) :
    s.planned.element q = some ⟨q, .empty, k⟩ := by
  rcases planned_element s q with ⟨h', -⟩ | ⟨x, y, h', hy, rfl | ⟨l, hx, rfl⟩⟩
  · rw [h] at h'; cases h'
  · rw [hy, ← h', h]
  · obtain rfl := Option.some.inj (h.symm.trans h'); cases hx

theorem planned_full {s : State} {q : Nat} {l : Option Label} {c : Condition} {k : Option Nat}
    (h : s.element q = some ⟨q, .full l c, k⟩) :
    ∃ c', s.planned.element q = some ⟨q, .full l c', k⟩ ∧ (c' = c ∨ c' = .normal) := by
  rcases planned_element s q with ⟨h', -⟩ | ⟨x, y, h', hy, rfl | ⟨l', hx, rfl⟩⟩
  · rw [h] at h'; cases h'
  · exact ⟨c, by rw [hy, ← h', h], .inl rfl⟩
  · obtain rfl := Option.some.inj (h.symm.trans h')
    obtain ⟨rfl, -⟩ := ElemState.full.inj hx
    exact ⟨.normal, hy, .inr rfl⟩

/-! ### The tests of R28 and R14 -/

theorem isSlot_ne {q : Nat} (h : isSlot q = true) : q ≠ 0 ∧ isBay q = false ∧ peaBay q = none := by
  simp only [isSlot, isStorage, isMail, Bool.or_eq_true, Bool.and_eq_true, decide_eq_true_eq] at h
  have h0 : q ≠ 0 := by omega
  have h1 : q ≠ 1 := by omega
  have h2 : q ≠ 2 := by omega
  exact ⟨h0, by simp [isBay, h1, h2], by simp [peaBay, h1, h2]⟩

theorem isBay_bayPea (b : Bay) : isBay (bayPea b) = true ∧ isMail (bayPea b) = false ∧ bayPea b ≠ 0 ∧ peaBay (bayPea b) = some b := by
  cases b <;> decide

section
variable {x : State} {p : Port} {q : Nat} {l : Option Label} {c : Condition}

/-- What the tests read of an unclaimed FULL entry. -/
theorem full_reads (h : x.element q = some ⟨q, .full l c, none⟩) : x.installed q = true ∧ x.isClaimed q = false
    ∧ isUnknownElem x q = false ∧ isFullElem x q = true ∧ expectedAt x q = l
    ∧ namesNoVolume x q = (c = .unregistered || c = .noLabel || c = .duplicate) := by
  simp [State.installed, State.isClaimed, isUnknownElem, isFullElem, expectedAt, namesNoVolume, State.elemState, h, ElemState.isFull,
    ElemState.label]

/-- What the tests read of an unclaimed EMPTY entry. -/
theorem empty_reads (h : x.element q = some ⟨q, .empty, none⟩) : x.installed q = true ∧ x.isClaimed q = false
    ∧ isUnknownElem x q = false ∧ x.isEmptyElem q = true := by
  simp [State.installed, State.isClaimed, isUnknownElem, State.isEmptyElem, State.elemState, h]

theorem noPlace_passes (h8 : x.picker.portEntries < 8) (h3 : (x.picker.entriesOf p).length < 3) : noPlace x p = (false, .queueFull) := by
  simp [noPlace, Config.portPlaces, Config.placesPerPort, Nat.not_le.2 h8, Nat.not_le.2 h3]

theorem notReady_passes (h : x.picker.condition = .ready) : notReady x = (false, .notReady) := by
  simp [notReady, h]

theorem ownedByOther_passes (h : (x.elemVolume q).all (fun v => v.owner.isNone || v.owner = some p) = true) : ownedByOther x p q = false
    := by
  unfold ownedByOther
  cases hv : x.elemVolume q with
  | none => rfl
  | some v =>
    rw [hv] at h
    cases ho : v.owner <;> simp_all

theorem anyUnknown_passes {qs : List Nat} (h : ∀ q ∈ qs, isUnknownElem x q = false ∧ (x.mailOpen = true → isMail q = false)) :
    anyUnknown x qs = (false, .elementBusy) := by
  have hfalse : (qs.any fun q => isUnknownElem x q || (isMail q && x.mailOpen)) = false := by
    rw [List.any_eq_false]
    intro q hq
    obtain ⟨hu, hm⟩ := h q hq
    cases ho : x.mailOpen <;> simp_all
  rw [anyUnknown, hfalse]

theorem anyClaimed_passes {qs : List Nat} (h : ∀ q ∈ qs, x.isClaimed q = false) : anyClaimed x qs = (false, .elementBusy) := by
  have hfalse : qs.any x.isClaimed = false := List.any_eq_false.2 fun q hq => by simp [h q hq]
  rw [anyClaimed, hfalse]

theorem moveTests_pass {name : SourceName} {e d : Nat} (hready : x.picker.condition = .ready) (hsrc : sourcePea x p name = some e)
    (he : isSlot e = true) (hd : isSlot d = true) (hne : e ≠ d) (hfull : x.element e = some ⟨e, .full l c, none⟩)
    (hempty : x.element d = some ⟨d, .empty, none⟩) (hv : x.visible p e = true)
    (hc : c = .normal ∨ c = .misplaced ∨ isMail d = true) (ho : ownedByOther x p e = false)
    (hm : x.mailOpen = true → isMail e = false ∧ isMail d = false) (h8 : x.picker.portEntries < 8)
    (h3 : (x.picker.entriesOf p).length < 3) : firstRefusal (moveTests x p name (some d)) = none := by
  obtain ⟨he0, -, heb⟩ := isSlot_ne he
  obtain ⟨hd0, -, -⟩ := isSlot_ne hd
  obtain ⟨hei, hecl, heu, hef, -, hnv⟩ := full_reads hfull
  obtain ⟨hdi, hdcl, hdu, hde⟩ := empty_reads hempty
  have hnames : (namesNoVolume x e && !isMail d) = false := by
    rw [hnv]
    rcases hc with rfl | rfl | hmail
    · rfl
    · rfl
    · simp [hmail]
  have hunk := anyUnknown_passes (x := x) (qs := [e, d]) (by simp; exact ⟨⟨heu, fun h => (hm h).1⟩, hdu, fun h => (hm h).2⟩)
  have hclaims := anyClaimed_passes (x := x) (qs := [e, d]) (by simp [hecl, hdcl])
  rw [firstRefusal_eq_none]
  simp [moveTests, r14, hsrc, notReady_passes hready, noPlace_passes h8 h3, hclaims, hunk, namesElement, he0, hd0, hei, hdi, hv, hnames,
    ho, heb, he, hd, hne, hef, hde]

theorem loadTests_pass {name : SourceName} {e : Nat} {b : Bay} (hready : x.picker.condition = .ready)
    (hsrc : sourcePea x p name = some e) (he : isSlot e = true) (hfull : x.element e = some ⟨e, .full l c, none⟩)
    (hempty : x.element (bayPea b) = some ⟨bayPea b, .empty, none⟩) (hv : x.visible p e = true) (hc : c = .normal ∨ c = .misplaced)
    (ho : ownedByOther x p e = false) (hm : x.mailOpen = true → isMail e = false) (h8 : x.picker.portEntries < 8)
    (h3 : (x.picker.entriesOf p).length < 3) (hst : (x.drive b).state = .empty) (hcl : (x.drive b).claim = none) :
    firstRefusal (loadTests x p name (some (bayPea b))) = none := by
  obtain ⟨he0, -, heb⟩ := isSlot_ne he
  obtain ⟨hb, hbm, hb0, hbb⟩ := isBay_bayPea b
  obtain ⟨hei, hecl, heu, hef, -, hnv⟩ := full_reads hfull
  obtain ⟨hdi, hdcl, hdu, hde⟩ := empty_reads hempty
  have hnames : namesNoVolume x e = false := by
    rw [hnv]
    rcases hc with rfl | rfl <;> rfl
  have hunk := anyUnknown_passes (x := x) (qs := [e, bayPea b]) (by simp; exact ⟨⟨heu, hm⟩, hdu, fun _ => hbm⟩)
  have hclaims := anyClaimed_passes (x := x) (qs := [e, bayPea b]) (by simp [hecl, hdcl])
  rw [firstRefusal_eq_none]
  simp [loadTests, r14, hsrc, notReady_passes hready, noPlace_passes h8 h3, hclaims, hunk, namesElement, he0, hb0, hei, hdi, hv, hnames,
    ho, heb, he, hb, hbb, hef, hde, driveLoadable, hst, hcl]

theorem unloadTests_pass {b : Bay} {dst : Option Nat} (hready : x.picker.condition = .ready) (hcl : (x.drive b).claim = some p)
    (hact : (x.drive b).carriesActivity = false) (hfull : x.element (bayPea b) = some ⟨bayPea b, .full l c, none⟩)
    (h8 : x.picker.portEntries < 8) (h3 : (x.picker.entriesOf p).length < 3)
    (hdst : ∀ d, dst = some d → isSlot d = true ∧ x.element d = some ⟨d, .empty, none⟩ ∧ (x.mailOpen = true → isMail d = false)) :
    firstRefusal (unloadTests x p (some b) dst.isSome dst) = none := by
  obtain ⟨-, hbm, -, -⟩ := isBay_bayPea b
  obtain ⟨-, hecl, heu, hef, -, -⟩ := full_reads hfull
  rw [firstRefusal_eq_none]
  cases dst with
  | none =>
    have hunk := anyUnknown_passes (x := x) (qs := [bayPea b]) (by simp; exact ⟨heu, fun _ => hbm⟩)
    have hclaims := anyClaimed_passes (x := x) (qs := [bayPea b]) (by simp [hecl])
    simp [unloadTests, notReady_passes hready, noPlace_passes h8 h3, hclaims, hunk, hcl, hact, hef]
  | some d =>
    obtain ⟨hd, hempty, hdm⟩ := hdst d rfl
    obtain ⟨hd0, -, -⟩ := isSlot_ne hd
    obtain ⟨hdi, hdcl, hdu, hde⟩ := empty_reads hempty
    have hunk := anyUnknown_passes (x := x) (qs := [bayPea b, d]) (by simp; exact ⟨⟨heu, fun _ => hbm⟩, hdu, hdm⟩)
    have hclaims := anyClaimed_passes (x := x) (qs := [bayPea b, d]) (by simp [hecl, hdcl])
    simp [unloadTests, notReady_passes hready, noPlace_passes h8 h3, hclaims, hunk, hcl, hact, hef, namesElement, hd0, hdi, hd, hde]

/-- The tests on a LOAD-SCRATCH leave the choice of test 8 to decide. -/
theorem loadScratchTests_pass {b : Bay} (hready : x.picker.condition = .ready)
    (hempty : x.element (bayPea b) = some ⟨bayPea b, .empty, none⟩) (hst : (x.drive b).state = .empty) (hcl : (x.drive b).claim = none)
    (h8 : x.picker.portEntries < 8) (h3 : (x.picker.entriesOf p).length < 3) : firstRefusal (loadScratchTests x p (some b))
      = if (chooseScratch x).isNone then some .noScratch else none := by
  obtain ⟨-, hbm, -, -⟩ := isBay_bayPea b
  obtain ⟨-, hdcl, hdu, hde⟩ := empty_reads hempty
  have hunk := anyUnknown_passes (x := x) (qs := [bayPea b]) (by simp; exact ⟨hdu, fun _ => hbm⟩)
  have hclaims := anyClaimed_passes (x := x) (qs := [bayPea b]) (by simp [hdcl])
  simp [loadScratchTests, firstRefusal, notReady_passes hready, noPlace_passes h8 h3, hclaims, hunk, driveLoadable, hde, hst, hcl]

end

/-! ### The requests -/

section
variable {s : State} {p : Port} {tag : Byte}

theorem bayOfLea_eq {lea : Byte} {b : Bay} (h : lea.toNat = bayPea b) : bayOfLea lea = some b := by
  rw [bayOfLea, h, (isBay_bayPea b).2.2.2]

theorem decodeLea_bay (x : State) {lea : Byte} {b : Bay} (h : lea.toNat = bayPea b) : decodeLea x p lea.toNat = some (bayPea b) := by
  rw [h]
  cases b <;> rfl

theorem expectedAt_full {q : Nat} {l : Option Label} {c : Condition} (h : s.element q = some ⟨q, .full l c, none⟩) : expectedAt s q = l :=
  (full_reads h).2.2.2.2.1

theorem planned_ready (h : s.picker.condition = .ready) : s.planned.picker.condition = .ready := by rw [planned_picker]; exact h

end

/-- Settles O27. -/
theorem movesAccepted : Obligations.MovesAccepted := by
  refine ⟨?_, ?_⟩
  · intro s p tag form srcLea dstLea label name e d l c ht hready hname hsrc hdst he hd hne hfull hempty hv hc ho hm h8 h3
    obtain ⟨c', hfull', hc'⟩ := planned_full hfull
    have htests : firstRefusal (moveTests s.planned p name (some d)) = none := by
      refine moveTests_pass (planned_ready hready) hsrc he hd hne hfull' (planned_empty hempty) hv ?_ ?_ ?_ ?_ ?_
      · rcases hc' with rfl | rfl
        · exact hc
        · exact .inl rfl
      · exact ownedByOther_passes (by rw [planned_elemVolume]; exact ho)
      · rw [(planned_fields s).2.2]; exact hm
      · rw [planned_picker]; exact h8
      · rw [planned_picker]; exact h3
    change execMove p tag form srcLea dstLea label s = _
    rw [execMove, request_taken _ _ ht]
    simp only [hname, planned_openTag]
    have hsrc' : sourcePea (openTag s.planned p tag .move) p name = some e := hsrc
    have hdst' : decodeLea (openTag s.planned p tag .move) p dstLea.toNat = some d := hdst
    have htests' : firstRefusal (moveTests (openTag s.planned p tag .move) p name (some d)) = none := htests
    have hexp : expectedAt (openTag s p tag .move) e = l := expectedAt_full hfull
    simp only [decideMove, hsrc', hdst', htests', Option.getD_some, hexp]
  · intro s p tag driveLea dstLea b l c ht hlea hrel hready hcl hact hfull h8 h3
    obtain ⟨c', hfull', -⟩ := planned_full hfull
    have htests : ∀ dst : Option Nat, (∀ d, dst = some d → isSlot d = true ∧ s.element d = some ⟨d, .empty, none⟩
        ∧ (s.mailOpen = true → isMail d = false)) → firstRefusal (unloadTests s.planned p (some b) dst.isSome dst) = none := by
      intro dst hd
      refine unloadTests_pass (planned_ready hready) ?_ ?_ hfull' ?_ ?_ fun d hdd => ?_
      · rw [planned_drive]; exact hcl
      · rw [planned_drive]; exact hact
      · rw [planned_picker]; exact h8
      · rw [planned_picker]; exact h3
      · obtain ⟨h1, h2, h4⟩ := hd d hdd
        exact ⟨h1, planned_empty h2, by rw [(planned_fields s).2.2]; exact h4⟩
    have hexp : expectedAt (openTag s p tag .unload) (bayPea b) = l := expectedAt_full hfull
    have taken : ∀ (named : Byte) (n : Bool) (dst : Option Nat), flagOf named = some n →
        (if n then decodeLea s.planned p dstLea.toNat else none) = dst → n = dst.isSome →
        firstRefusal (unloadTests s.planned p (some b) dst.isSome dst) = none → exec (.unload p tag driveLea named dstLea) s
          = .next (pump (acceptEntry (openTag s p tag .unload) (.port p (some tag)) .unload (bayPea b) dst l .queued)) := by
      intro named n dst hn hdst hsome htest
      have hdst' : (if n then decodeLea (openTag s.planned p tag .unload) p dstLea.toNat else none) = dst := hdst
      have htest' : firstRefusal (unloadTests (openTag s.planned p tag .unload) p (some b) dst.isSome dst) = none := htest
      change execUnload p tag driveLea named dstLea s = _
      rw [execUnload, request_taken _ _ ht, bayOfLea_eq hlea, unlessReleased_some _ _ _ _ _ _ (by rwa [openTag_released])]
      simp only [hn, planned_openTag, hdst']
      rw [hsome]
      simp only [decideMove, htest', Option.map_some, Option.getD_some, hexp]
    refine ⟨taken 0 false none rfl rfl rfl (htests none (by simp)), fun d hd hslot hempty hm => ?_⟩
    exact taken 1 true (some d) rfl hd rfl (htests (some d) fun d' hd' => by cases hd'; exact ⟨hslot, hempty, hm⟩)

/-- Settles O28. -/
theorem loadsAccepted : Obligations.LoadsAccepted := by
  refine ⟨?_, ?_⟩
  · intro s p tag form srcLea dstLea label name e b l c ht hready hname hsrc hlea he hfull hempty hv hc ho hm h8 h3 hst hcl _
    obtain ⟨c', hfull', hc'⟩ := planned_full hfull
    have htests : firstRefusal (loadTests s.planned p name (some (bayPea b))) = none := by
      refine loadTests_pass (planned_ready hready) hsrc he hfull' (planned_empty hempty) hv ?_ ?_ ?_ ?_ ?_ ?_ ?_
      · rcases hc' with rfl | rfl
        · exact hc
        · exact .inl rfl
      · exact ownedByOther_passes (by rw [planned_elemVolume]; exact ho)
      · rw [(planned_fields s).2.2]; exact hm
      · rw [planned_picker]; exact h8
      · rw [planned_picker]; exact h3
      · rw [planned_drive]; exact hst
      · rw [planned_drive]; exact hcl
    change execLoad p tag form srcLea dstLea label s = _
    rw [execLoad, request_taken _ _ ht]
    simp only [hname, planned_openTag]
    have hsrc' : sourcePea (openTag s.planned p tag .load) p name = some e := hsrc
    have htests' : firstRefusal (loadTests (openTag s.planned p tag .load) p name (some (bayPea b))) = none := htests
    have hexp : expectedAt (openTag s p tag .load) e = l := expectedAt_full hfull
    simp only [decideMove, hsrc', decodeLea_bay _ hlea, htests', Option.getD_some, hexp, Option.bind_some, (isBay_bayPea b).2.2.2,
      takeDrive]
  · intro s p tag driveLea b ht hready hlea hempty hst hcl h8 h3
    have htests : firstRefusal (loadScratchTests (openTag s.planned p tag .loadScratch) p (some b))
        = if (chooseScratch s.planned).isNone then some .noScratch else none := by
      refine loadScratchTests_pass (x := s.planned) (planned_ready hready) (planned_empty hempty) ?_ ?_ ?_ ?_
      · rw [planned_drive]; exact hst
      · rw [planned_drive]; exact hcl
      · rw [planned_picker]; exact h8
      · rw [planned_picker]; exact h3
    have hx : exec (.loadScratch p tag driveLea) s = execLoadScratch p tag driveLea s := rfl
    refine ⟨fun k q hk => ?_, fun hnone => ?_⟩
    · rw [hk] at htests
      have hk' : chooseScratch (openTag s.planned p tag .loadScratch) = some (k, q) := hk
      have hptr : pointerAfter (openTag s p tag .loadScratch) k = if s.planned.settings.partition = s.settings.partition
          then scratchAfter s k else s.scratchPointer := by
        simp only [pointerAfter, planned_openTag]
        rfl
      rw [hx, execLoadScratch, request_taken _ _ ht]
      simp only [bayOfLea_eq hlea, planned_openTag, decideMove, htests, hk', hptr]
      rfl
    · rw [hnone] at htests
      rw [hx]
      refine request_replied ht ?_
      simp only [bayOfLea_eq hlea, planned_openTag, decideMove, htests]
      rfl

end Sys2Proof.Machine
end

section
/-! PROOFS. The picker's own steps: AUDIT and RECOVER taken (R43, R48), the condition (R52), the beginning of a full audit (R47) and the
    next
work (R34). -/

namespace Sys2Proof.Machine

/-! ### The condition and the picker's fields -/

theorem queueNoticeAll_picker (s : State) (n : Notice) : (queueNoticeAll s n).picker = s.picker := by simp

@[simp] theorem setCondition_picker (s : State) (c : LibCondition) : (setCondition s c).picker = { s.picker with condition := c } := by
  unfold setCondition
  split
  · next h => rw [← h]
  · rw [queueNoticeAll_picker]; rfl

/-! ### AUDIT and RECOVER -/

/-- The entry that a RECOVER takes in hand. -/
theorem acceptRecover_picker (s : State) (p : Port) (tag : Byte) (dest : Option Nat) :
    ∃ e n, (acceptRecover s p tag dest).picker = { s.picker with
      queue := s.picker.queue ++ [e], nextMove := n, motion := some .homing, state := .moving,
      timer := .running (1000 * s.settings.motionLimit), recoverWaiting := s.picker.recoverWaiting ++ [(p, tag)] }
    ∧ e.kind = .recover ∧ e.source = 0 ∧ e.phase = .run .homing ∧ e.dest = dest := by
  unfold acceptRecover acceptEntry
  cases dest <;> exact ⟨_, _, rfl, rfl, rfl, rfl, rfl⟩

@[simp] theorem acceptRecover_elemState (s : State) (p : Port) (tag : Byte) (dest : Option Nat) (r : Nat) :
    (acceptRecover s p tag dest).elemState r = s.elemState r :=
  acceptEntry_elemState s .internal .recover 0 dest (s.picker.recovery.bind (·.label)) (.run .homing) r

theorem nothingGripped_picker (s : State) : (nothingGripped s).picker = { s.picker with recovery := none } := rfl

section
variable {s : State} {p : Port} {tag : Byte}

theorem exec_recover_gripped {d : Nat} (ht : s.takes p tag) (hfault : s.picker.condition = .motionFault)
    (hnone : (s.picker.queue.any fun e => decide (e.kind = .recover)) = false) (hd : recoveryDest s = some d) :
    exec (.recover p tag true) s = .next (pump (acceptRecover (openTag s p tag .recover) p tag (some d))) := by
  have hd' : recoveryDest (openTag s p tag .recover) = some d := hd
  have hnone' : ((openTag s p tag .recover).picker.queue.any fun e => decide (e.kind = .recover)) = false := hnone
  have hfault' : (openTag s p tag .recover).picker.condition = .motionFault := hfault
  change execRecover p tag true s = _
  rw [execRecover, request_taken _ _ ht, if_neg (by rw [hfault']; decide), if_neg (by rw [hnone']; decide), if_neg (by decide), hd']

theorem exec_recover_empty (ht : s.takes p tag) (hfault : s.picker.condition = .motionFault)
    (hnone : (s.picker.queue.any fun e => decide (e.kind = .recover)) = false) :
    exec (.recover p tag false) s = .next (pump (acceptRecover (nothingGripped (openTag s p tag .recover)) p tag none)) := by
  have hnone' : ((openTag s p tag .recover).picker.queue.any fun e => decide (e.kind = .recover)) = false := hnone
  have hfault' : (openTag s p tag .recover).picker.condition = .motionFault := hfault
  change execRecover p tag false s = _
  rw [execRecover, request_taken _ _ ht, if_neg (by rw [hfault']; decide), if_neg (by rw [hnone']; decide), if_pos (by decide)]

end

/-- Settles O29. -/
theorem auditAndRecoverAccepted : Obligations.AuditAndRecoverAccepted := by
  refine ⟨fun s p tag ht hready => ?_, fun s p tag gripped ht hfault hall hdest => ?_⟩
  · have hready' : (openTag s p tag .audit).picker.condition = .ready := hready
    change execAudit p tag s = _
    rw [execAudit, request_taken _ _ ht, if_neg (by rw [hready']; decide)]
  · have hnone : (s.picker.queue.any fun e => decide (e.kind = .recover)) = false := by
      rw [List.any_eq_false]
      intro e he
      simpa using List.all_eq_true.1 hall e he
    have accepted : ∀ (u : State) (dest : Option Nat), exec (.recover p tag gripped) s = .next (pump (acceptRecover u p tag dest)) →
        u.picker = { s.picker with recovery := if gripped then s.picker.recovery else none } → u.settings = s.settings →
        dest = (if gripped then recoveryDest s else none) → (gripped = false → s.installed 0 = true → u.elemState 0 = some .empty) →
        ∃ t, exec (.recover p tag gripped) s = .next t ∧ t.picker.motion = some .homing ∧ t.picker.state = .moving
          ∧ t.picker.timer = .running (1000 * s.settings.motionLimit) ∧ t.picker.condition = .motionFault
          ∧ t.picker.recoverWaiting = s.picker.recoverWaiting ++ [(p, tag)]
          ∧ (∃ e, t.picker.queue = s.picker.queue ++ [e] ∧ e.kind = .recover ∧ e.source = 0 ∧ e.phase = .run .homing
              ∧ e.dest = (if gripped then recoveryDest s else none))
          ∧ (gripped = false → t.picker.recovery = none ∧ (s.installed 0 = true → t.elemState 0 = some .empty))
          ∧ t.drives = s.drives ∧ t.buffer = s.buffer ∧ t.settings = s.settings := by
      intro u dest hx hu hset hd hempty
      obtain ⟨e, n, hpicker, hkind, hsource, hphase, hedest⟩ := acceptRecover_picker u p tag dest
      rw [hu, hset] at hpicker
      have hleaves := exec_leaves (.recover p tag gripped) s _ hx
      have hdrives := congrArg State.drives hleaves
      have hbuffer := congrArg State.buffer hleaves
      have hstore : (acceptRecover u p tag dest).store = u.store := by simp
      refine ⟨_, hx, ?_, ?_, ?_, ?_, ?_, ⟨e, ?_, hkind, hsource, hphase, hedest.trans hd⟩, fun hg => ⟨?_, fun hi => ?_⟩, hdrives,
        hbuffer, ?_⟩
      · rw [pump_picker, hpicker]
      · rw [pump_picker, hpicker]
      · rw [pump_picker, hpicker]
      · rw [pump_picker, hpicker]; exact hfault
      · rw [pump_picker, hpicker]
      · rw [pump_picker, hpicker]
      · rw [pump_picker, hpicker]; simp [hg]
      · rw [elemState_of_elements (pump_elements _), acceptRecover_elemState]
        exact hempty hg hi
      · rw [State.settings, pump_store, hstore]; exact hset
    cases gripped with
    | true =>
      obtain ⟨d, hd⟩ := Option.isSome_iff_exists.1 (hdest rfl)
      exact accepted _ _ (exec_recover_gripped ht hfault hnone hd) rfl rfl hd.symm (by simp)
    | false =>
      refine accepted _ _ (exec_recover_empty ht hfault hnone) rfl rfl rfl fun _ hi => ?_
      exact setElem_elemState_same (s := mapVolumes (openTag s p tag .recover) fun v =>
        if v.location = .picker then { v with location := .unknown } else v) .empty hi

/-! ### The beginning of a full audit (R47) -/

theorem storageSlots_head (strap : Nat) : ∃ rest, storageSlots strap = 16 :: rest := by
  have first : ∀ n, ∃ rest, ((List.range (n + 1)).map (· + 16)).filter isStorage = 16 :: rest := by
    intro n
    rw [List.range_succ_eq_map]
    exact ⟨_, rfl⟩
  have skip : ∀ strap : Nat, ([0, 1, 2] ++ (if strap = 3 then [] else [4, 5, 6, 7])).filter isStorage = [] := by
    intro strap
    split <;> rfl
  have count : ∃ n, (if strap = 0 then 24 else if strap = 1 then 36 else 48) = n + 1 := by
    split
    · exact ⟨23, rfl⟩
    · split
      · exact ⟨35, rfl⟩
      · exact ⟨47, rfl⟩
  obtain ⟨n, hn⟩ := count
  unfold storageSlots installedPeas
  rw [List.filter_append, skip, hn, List.nil_append]
  exact first n

/-- The state whose first reading a full audit asks for. -/
def auditBegun (s : State) (rest : List Nat) : State :=
  setCondition (s.modPicker fun k => { k with
    state := .auditing, auditPending := false, doorAudit := false,
    audit := some ⟨true, k.startupDue, 16 :: rest, [.d0, .d1], none, [], [], []⟩ }) .auditing

/-- A full audit begins with the reading of the first storage slot, whatever the doors. -/
theorem startFullAudit_eq (s : State) : ∃ rest, startFullAudit s = issueMotion ((auditBegun s rest).modPicker fun k =>
    { k with audit := some ⟨true, s.picker.startupDue, rest, [.d0, .d1], none, [], [], []⟩ }) (.reading 16) .auditing := by
  obtain ⟨rest, hrest⟩ := storageSlots_head s.strap
  refine ⟨rest ++ mailSlots s.strap, ?_⟩
  have hbegun : startFullAudit s = auditNext (auditBegun s (rest ++ mailSlots s.strap)) := by
    unfold startFullAudit auditBegun
    rw [hrest]
    rfl
  have haudit : (auditBegun s (rest ++ mailSlots s.strap)).picker.audit
      = some ⟨true, s.picker.startupDue, 16 :: (rest ++ mailSlots s.strap), [.d0, .d1], none, [], [], []⟩ := by
    rw [auditBegun, setCondition_picker]
    rfl
  have hslots : ∀ t : State, slotsLeft t ⟨true, s.picker.startupDue, 16 :: (rest ++ mailSlots s.strap), [.d0, .d1], none, [], [], []⟩
      = 16 :: (rest ++ mailSlots s.strap) := fun _ => rfl
  rw [hbegun, auditNext, haudit]
  dsimp only
  rw [hslots]

/-- What a full audit's beginning leaves: the condition AUDITING and the first reading at the picker, notices at the ports. -/
theorem startFullAudit_picker (s : State) : (startFullAudit s).picker.state = .auditing ∧ (startFullAudit s).picker.condition = .auditing
    ∧ (startFullAudit s).picker.motion = some (.reading 16)
    ∧ (startFullAudit s).picker.timer = .running (1000 * s.settings.motionLimit) ∧ (startFullAudit s).picker.auditPending = false := by
  obtain ⟨rest, h⟩ := startFullAudit_eq s
  have hstore : (auditBegun s rest).store = s.store := by simp [auditBegun]
  rw [h]
  refine ⟨rfl, ?_, rfl, ?_, ?_⟩
  · simp [issueMotion, auditBegun, State.modPicker]
  · simp [issueMotion, State.settings, hstore]
  · simp [issueMotion, auditBegun, State.modPicker]

theorem startFullAudit_rest (s : State) : (startFullAudit s).elements = s.elements ∧ (startFullAudit s).store = s.store
    ∧ (startFullAudit s).drives = s.drives ∧ (startFullAudit s).buffer = s.buffer ∧ (startFullAudit s).streams = s.streams
    ∧ (startFullAudit s).side = s.side := by
  obtain ⟨rest, h⟩ := startFullAudit_eq s
  rw [h]
  simp [issueMotion, auditBegun]

/-! ### The next work (R34) -/

theorem exec_pickerTakeWork {s : State} (hi : s.picker.state = .idle) (hc : s.picker.condition = .ready) :
    exec .pickerTakeWork s = .next (pump (nextWork s)) := by
  change execPickerTakeWork s = _
  rw [execPickerTakeWork, mayTakeWork, hi, hc]
  rfl

section
variable {s : State} (hc : s.picker.condition = .ready) (hr : s.picker.queue.find? (fun e => e.replied) = none)
  (hd : s.picker.mailAuditDue = false)
include hc hr hd

theorem nextWork_audit (ha : s.picker.auditPending = true) : nextWork s = startFullAudit s := by
  simp [nextWork, hc, hr, hd, ha]

theorem nextWork_entry {e : MoveEntry} (ha : s.picker.auditPending = false)
    (hint : (s.picker.queue.find? fun e => e.phase = .queued && e.requester.isInternal && !passedOver s e) = none)
    (hport : (s.picker.queue.find? fun e => e.phase = .queued && !e.requester.isInternal && !passedOver s e) = some e) :
    nextWork s = startEntry s e := by
  unfold nextWork
  dsimp only
  rw [if_neg (by simp [hc]), hr]
  dsimp only
  rw [hd, ha, if_neg (by simp), if_neg (by simp), if_neg (by simp [hc]), hint]
  dsimp only
  rw [hport]

end

/-- Settles O35. -/
theorem pickerTakesWork : Obligations.PickerTakesWork := by
  refine ⟨fun s hi hc hq hd ha => ?_, fun s e rest hi hc hd ha hm hq hall hph hrc hbay => ?_⟩
  · have hr : s.picker.queue.find? (fun e => e.replied) = none := by
      rw [List.find?_eq_none]
      intro e he
      simpa using List.all_eq_true.1 hq e he
    have hx : exec .pickerTakeWork s = .next (pump (startFullAudit s)) := by
      rw [exec_pickerTakeWork hi hc, nextWork_audit hc hr hd ha]
    obtain ⟨hstate, hcond, hmotion, -, hpend⟩ := startFullAudit_picker s
    obtain ⟨helements, hstore, -⟩ := startFullAudit_rest s
    refine ⟨_, hx, ?_⟩
    rw [pump_picker, pump_elements, pump_store]
    exact ⟨hstate, hcond, hmotion, hpend, helements, hstore⟩
  · rw [exec_pickerTakeWork hi hc]
    have hmem : ∀ x ∈ s.picker.queue, x.replied = false ∧ x.requester.isInternal = false := by
      intro x hx
      rw [hq] at hx
      simpa using List.all_eq_true.1 hall x hx
    have hr : s.picker.queue.find? (fun e => e.replied) = none := by
      rw [List.find?_eq_none]
      intro x hx
      simp [(hmem x hx).1]
    have hint : (s.picker.queue.find? fun e => e.phase = .queued && e.requester.isInternal && !passedOver s e) = none := by
      rw [List.find?_eq_none]
      intro x hx
      simp [(hmem x hx).2]
    have hport : (s.picker.queue.find? fun e => e.phase = .queued && !e.requester.isInternal && !passedOver s e) = some e := by
      rw [hq, List.find?_cons_of_pos]
      simp [hph, (hmem e (by simp [hq])).2, passedOver, hm]
    have hbay' : peaBay e.source = none := by
      simp only [isBay, Bool.or_eq_false_iff, decide_eq_false_iff_not] at hbay
      simp [peaBay, hbay]
    have hstart : startEntry s e = startFetch s e e.source := by
      simp only [startEntry, hrc, hbay']
      cases e.kind <;> rfl
    rw [nextWork_entry hc hr hd ha hint hport, hstart, startFetch, issueOrHold, if_neg (by simp [setPhase, modEntry, hm])]
    rfl

end Sys2Proof.Machine
end

section
/-! PROOFS. What the end of a move leaves (R41, R50): the entry gone, its claims free, its reply on its way; and the expiry of the motion
timer (R42, R44). -/

namespace Sys2Proof.Machine

/-! ### A port that is UP stays UP -/

theorem modPort_up {s : State} {q : Port} {f : PortCtl → PortCtl} (hf : ∀ c, (f c).up = c.up) (p : Port) :
    ((s.modPort q f).port p).up = (s.port p).up := by
  rw [modPort_at]
  split
  · next h => rw [hf, h]
  · rfl

theorem queueNotice_up (s : State) (q : Port) (n : Notice) (p : Port) : ((queueNotice s q n).port p).up = (s.port p).up :=
  modPort_up (fun c => by split <;> rfl) p

theorem answer_up (s : State) (q : Port) (tag : Byte) (k : ReqKind) (code : ReplyCode) (body : ReplyBody) (clamped : Bool) (p : Port) :
    ((answer s q tag k code body clamped).port p).up = (s.port p).up := by
  rw [answer, queueReply]
  exact modPort_up (f := fun c => if c.up then { c with
    control := c.control ++ [.reply ⟨k.code, tag, code, clamped, body, true⟩] } else c) (fun c => by split <;> rfl) p

theorem answerAll_up (k : ReqKind) (code : ReplyCode) (ws : List (Port × Byte)) (s : State) (p : Port) :
    ((answerAll s k code ws).port p).up = (s.port p).up := by
  induction ws generalizing s with
  | nil => rfl
  | cons w ws ih => exact (ih _).trans (answer_up s w.1 w.2 k code .none false p)

theorem setCondition_up (s : State) (c : LibCondition) (p : Port) : ((setCondition s c).port p).up = (s.port p).up := by
  unfold setCondition
  split
  · rfl
  · rw [queueNoticeAll, queueNotice_up, queueNotice_up, queueNotice_up]
    rfl

/-! ### What the end of a move changes -/

/-- From s to t only the claims change in the element table, and at the picker only the queue, its next number and the marks. -/
structure QueueOnly (s t : State) : Prop where
  elements : ∃ f : Element → Element, (∀ e, (f e).pea = e.pea ∧ (f e).state = e.state) ∧ t.elements = s.elements.map f
  picker : ∃ q n u, t.picker = { s.picker with queue := q, nextMove := n, unloadOwed := u }
  store : t.store = s.store

theorem QueueOnly.refl (s : State) : QueueOnly s s :=
  ⟨⟨id, fun _ => ⟨rfl, rfl⟩, (List.map_id _).symm⟩, ⟨_, _, _, rfl⟩, rfl⟩

theorem QueueOnly.trans {s t u : State} (h : QueueOnly s t) (g : QueueOnly t u) : QueueOnly s u := by
  obtain ⟨f, hf, hfe⟩ := h.elements
  obtain ⟨f', hf', hfe'⟩ := g.elements
  obtain ⟨q, n, o, hp⟩ := h.picker
  obtain ⟨q', n', o', hp'⟩ := g.picker
  refine ⟨⟨f' ∘ f, fun e => ⟨(hf' _).1.trans (hf e).1, (hf' _).2.trans (hf e).2⟩, ?_⟩, ⟨q', n', o', ?_⟩, g.store.trans h.store⟩
  · rw [hfe', hfe, List.map_map]
  · rw [hp', hp]

theorem QueueOnly.of_elements {s t : State} (he : t.elements = s.elements) (hp : ∃ q n u, t.picker = { s.picker with
      queue := q, nextMove := n, unloadOwed := u }) (hs : t.store = s.store) : QueueOnly s t :=
  ⟨⟨id, fun _ => ⟨rfl, rfl⟩, by rw [he, List.map_id]⟩, hp, hs⟩

theorem QueueOnly.elemState {s t : State} (h : QueueOnly s t) (q : Nat) : t.elemState q = s.elemState q := by
  obtain ⟨f, hf, he⟩ := h.elements
  exact elemState_map_claims he hf q

theorem QueueOnly.volume {s t : State} (h : QueueOnly s t) (l : Label) : t.volume l = s.volume l := by
  rw [State.volume, State.volume, h.store]

theorem queueOnly_acceptEntry (s : State) (q : Requester) (kind : MoveKind) (src : Nat) (dst : Option Nat) (l : Option Label)
    (ph : Phase) : QueueOnly s (acceptEntry s q kind src dst l ph) := by
  refine ⟨⟨_, fun e => ?_, acceptEntry_elements s q kind src dst l ph⟩, ?_, by simp⟩
  · split <;> exact ⟨rfl, rfl⟩
  · unfold acceptEntry
    cases dst <;> exact ⟨_, _, _, rfl⟩

theorem queueOnly_queueOwedUnload (s : State) (b : Bay) : QueueOnly s (queueOwedUnload s b) := by
  unfold queueOwedUnload
  split
  · exact queueOnly_acceptEntry _ _ _ _ _ _ _
  · exact QueueOnly.refl s

theorem queueOnly_queueOwedUnloads (s : State) : QueueOnly s (queueOwedUnloads s) :=
  (queueOnly_queueOwedUnload s .d0).trans (queueOnly_queueOwedUnload _ .d1)

theorem queueOnly_clearOwed (s : State) (b : Bay) : QueueOnly s (clearOwed s b) :=
  .of_elements rfl ⟨_, _, _, rfl⟩ rfl

theorem queueOnly_removeEntry (s : State) (n : Nat) : QueueOnly s (removeEntry s n) :=
  ⟨⟨_, fun e => by split <;> exact ⟨rfl, rfl⟩, rfl⟩, ⟨_, _, _, rfl⟩, rfl⟩

/-- A completion leaves the claim, the mark and the lists of a bay as they stand, or takes some of them away. -/
theorem settleClaims_cases (s : State) (e : MoveEntry) (code : ReplyCode) : settleClaims s e code = s
    ∨ (∃ b, settleClaims s e code = leaveReleased (dropClaim s b) b)
    ∨ (∃ b, settleClaims s e code = clearOwed (leaveReleased (dropClaim s b) b) b)
    ∨ ∃ b, settleClaims s e code = clearOwed (leaveReleased s b) b := by
  unfold settleClaims
  split
  · split
    · next b _ =>
      split
      · exact .inl rfl
      · exact .inr (.inl ⟨b, rfl⟩)
    · exact .inl rfl
  · split
    · split
      · next b _ =>
        split
        · exact .inr (.inr (.inl ⟨b, rfl⟩))
        · split
          · exact .inr (.inr (.inr ⟨b, rfl⟩))
          · exact .inl rfl
      · exact .inl rfl
    · exact .inl rfl

theorem queueOnly_leaveReleased (s : State) (b : Bay) : QueueOnly s (leaveReleased s b) := .of_elements rfl ⟨_, _, _, rfl⟩ rfl

theorem queueOnly_dropClaim (s : State) (b : Bay) : QueueOnly s (dropClaim s b) := .of_elements rfl ⟨_, _, _, rfl⟩ rfl

theorem queueOnly_settleClaims (s : State) (e : MoveEntry) (code : ReplyCode) : QueueOnly s (settleClaims s e code) := by
  rcases settleClaims_cases s e code with h | ⟨b, h⟩ | ⟨b, h⟩ | ⟨b, h⟩ <;> rw [h]
  · exact QueueOnly.refl s
  · exact (queueOnly_dropClaim s b).trans (queueOnly_leaveReleased _ b)
  · exact ((queueOnly_dropClaim s b).trans (queueOnly_leaveReleased _ b)).trans (queueOnly_clearOwed _ b)
  · exact (queueOnly_leaveReleased s b).trans (queueOnly_clearOwed _ b)

theorem queueOnly_moveReply (s : State) (e : MoveEntry) (code : ReplyCode) : QueueOnly s (moveReply s e code) :=
  .of_elements (by simp) ⟨_, _, _, by rw [show (moveReply s e code).picker = s.picker by simp]⟩ (by simp)

/-- The state of a completion before the owed unloads are queued. -/
def moveEnded (s : State) (e : MoveEntry) (code : ReplyCode) : State :=
  moveReply (settleClaims (removeEntry s e.number) e code) e code

theorem completeMove_cases (s : State) (e : MoveEntry) (code : ReplyCode) : completeMove s e code = moveEnded s e code
    ∨ completeMove s e code = queueOwedUnloads (moveEnded s e code) := by
  unfold completeMove
  dsimp only
  split
  · exact .inr rfl
  · exact .inl rfl

theorem queueOnly_moveEnded (s : State) (e : MoveEntry) (code : ReplyCode) : QueueOnly s (moveEnded s e code) :=
  ((queueOnly_removeEntry s e.number).trans (queueOnly_settleClaims _ e code)).trans (queueOnly_moveReply _ e code)

theorem queueOnly_completeMove (s : State) (e : MoveEntry) (code : ReplyCode) : QueueOnly s (completeMove s e code) := by
  rcases completeMove_cases s e code with h | h <;> rw [h]
  · exact queueOnly_moveEnded s e code
  · exact (queueOnly_moveEnded s e code).trans (queueOnly_queueOwedUnloads _)

/-! ### The queue, the claims and the reply -/

theorem settleClaims_queue (s : State) (e : MoveEntry) (code : ReplyCode) :
    (settleClaims s e code).picker.queue = s.picker.queue ∧ (settleClaims s e code).elements = s.elements
    ∧ (∀ b, s.picker.unloadOwed.get b = false → (settleClaims s e code).picker.unloadOwed.get b = false) := by
  have cleared : ∀ (t : State) (b a : Bay), t.picker.unloadOwed.get a = false → (clearOwed t b).picker.unloadOwed.get a = false := by
    intro t b a h
    simp [clearOwed, h]
  rcases settleClaims_cases s e code with h | ⟨b, h⟩ | ⟨b, h⟩ | ⟨b, h⟩ <;> rw [h]
  · exact ⟨rfl, rfl, fun _ h => h⟩
  · exact ⟨rfl, rfl, fun _ h => h⟩
  · exact ⟨rfl, rfl, fun a h => cleared (leaveReleased (dropClaim s b) b) b a h⟩
  · exact ⟨rfl, rfl, fun a h => cleared (leaveReleased s b) b a h⟩

theorem moveEnded_queue (s : State) (e : MoveEntry) (code : ReplyCode) :
    (moveEnded s e code).picker.queue = s.picker.queue.filter (fun x => x.number ≠ e.number)
    ∧ (moveEnded s e code).elements = (clearClaims s e.number).elements
    ∧ (∀ b, s.picker.unloadOwed.get b = false → (moveEnded s e code).picker.unloadOwed.get b = false) := by
  obtain ⟨hq, he, ho⟩ := settleClaims_queue (removeEntry s e.number) e code
  have hp : (moveEnded s e code).picker = (settleClaims (removeEntry s e.number) e code).picker := by simp [moveEnded]
  have hel : (moveEnded s e code).elements = (settleClaims (removeEntry s e.number) e code).elements := by simp [moveEnded]
  rw [hp, hel, hq, he]
  exact ⟨rfl, rfl, ho⟩

theorem queueOwedUnload_queue (s : State) (b : Bay) : ∀ x ∈ (queueOwedUnload s b).picker.queue,
    x ∈ s.picker.queue ∨ x.requester = .internal := by
  intro x hx
  unfold queueOwedUnload at hx
  split at hx
  · have hx' : x ∈ s.picker.queue ++ [_] := hx
    rcases List.mem_append.1 hx' with h | h
    · exact .inl h
    · obtain rfl := List.mem_singleton.1 h
      exact .inr rfl
  · exact .inl hx

theorem queueOwedUnloads_queue (s : State) : ∀ x ∈ (queueOwedUnloads s).picker.queue, x ∈ s.picker.queue ∨ x.requester = .internal := by
  intro x hx
  rcases queueOwedUnload_queue _ .d1 x hx with h | h
  · exact queueOwedUnload_queue s .d0 x h
  · exact .inr h

theorem entryGone_completeMove (s : State) (e : MoveEntry) (code : ReplyCode) : entryGone (completeMove s e code) e := by
  have gone : entryGone (moveEnded s e code) e := by
    intro x hx hn
    rw [(moveEnded_queue s e code).1] at hx
    simp [hn] at hx
  rcases completeMove_cases s e code with h | h <;> rw [h]
  · exact gone
  · intro x hx hn
    rcases queueOwedUnloads_queue _ x hx with hx | hx
    · exact gone x hx hn
    · exact hx

theorem queueOwedUnload_unowed {s : State} {b : Bay} (h : s.picker.unloadOwed.get b = false) : queueOwedUnload s b = s := by
  simp [queueOwedUnload, h]

theorem queueOwedUnloads_unowed {s : State} (h : ∀ b, s.picker.unloadOwed.get b = false) : queueOwedUnloads s = s := by
  rw [queueOwedUnloads, queueOwedUnload_unowed (h .d0), queueOwedUnload_unowed (h .d1)]

theorem clearClaims_element (s : State) (n q : Nat) : (clearClaims s n).element q
    = (s.element q).map fun e => if e.claim = some n then { e with claim := none } else e :=
  element_map rfl (fun e => by split <;> rfl) q

theorem queueOwedUnload_element {s : State} (b : Bay) {q : Nat} (h : isBay q = false) :
    (queueOwedUnload s b).element q = s.element q := by
  have hq : q ≠ bayPea b := by
    rintro rfl
    cases b <;> simp [isBay, bayPea] at h
  unfold queueOwedUnload
  split
  · have := modElement_element s (bayPea b) (f := fun e => { e with
        claim := some (freeNumber s.picker.queue (s.picker.queue.length + 1) s.picker.nextMove) }) (fun _ => rfl) q
    rw [if_neg hq] at this
    exact this
  · rfl

/-- The claims of the move that ends are free, off the bays or with no unload owed. -/
theorem completeMove_claim {s : State} {e : MoveEntry} {q : Nat} (code : ReplyCode)
    (h : isBay q = false ∨ s.picker.unloadOwed = .all false) (hc : (s.element q).bind (·.claim) = some e.number) :
    ((completeMove s e code).element q).bind (·.claim) = none := by
  have hfree : ((moveEnded s e code).element q).bind (·.claim) = none := by
    rw [element_of_elements (moveEnded_queue s e code).2.1, clearClaims_element]
    cases hx : s.element q with
    | none => rfl
    | some x =>
      rw [hx] at hc
      have hc' : x.claim = some e.number := hc
      simp [hc']
  rcases completeMove_cases s e code with hm | hm <;> rw [hm]
  · exact hfree
  · rcases h with h | h
    · rw [queueOwedUnloads, queueOwedUnload_element _ h, queueOwedUnload_element _ h]
      exact hfree
    · rw [queueOwedUnloads_unowed fun b => (moveEnded_queue s e code).2.2 b (by rw [h]; simp)]
      exact hfree

theorem settleClaims_up (s : State) (e : MoveEntry) (code : ReplyCode) (p : Port) :
    ((settleClaims s e code).port p).up = (s.port p).up := by
  have left : ∀ (t : State) (b : Bay), ((leaveReleased t b).port p).up = (t.port p).up := by
    intro t b
    have leave : ∀ c : PortCtl, (c.leave b).up = c.up := fun _ => rfl
    rw [leaveReleased, modPort_up leave, modPort_up leave, modPort_up leave]
  rcases settleClaims_cases s e code with h | ⟨b, h⟩ | ⟨b, h⟩ | ⟨b, h⟩ <;> rw [h]
  · exact left (dropClaim s b) b
  · exact left (dropClaim s b) b
  · exact left s b

theorem moveReply_failed {s : State} {e : MoveEntry} {p : Port} {tag : Byte} {code : ReplyCode} (hr : e.requester = .port p (some tag))
    (hc : code ≠ .done) : moveReply s e code = queueReply s p (moveFailure e tag code) := by
  rw [moveReply, hr]
  dsimp only
  rw [if_neg hc]
  rfl

/-- The completion reply of a move that fails waits at its port. -/
theorem completeMove_replied {s : State} {e : MoveEntry} {p : Port} {tag : Byte} {code : ReplyCode}
    (hr : e.requester = .port p (some tag)) (hc : code ≠ .done) (hu : (s.port p).up = true) :
    .reply (moveFailure e tag code) ∈ ((completeMove s e code).port p).control := by
  have hup : ((settleClaims (removeEntry s e.number) e code).port p).up = true := by
    rw [settleClaims_up]
    exact hu
  have hin : .reply (moveFailure e tag code) ∈ ((moveEnded s e code).port p).control := by
    rw [moveEnded, moveReply_failed hr hc, queueReply, modPort_at, if_pos rfl, if_pos hup]
    simp
  rcases completeMove_cases s e code with h | h <;> rw [h]
  · exact hin
  · rw [State.port, (marksOnly_queueOwedUnloads _).1.ports]
    exact hin

/-! ### The first fault (R42) -/

theorem answerAll_picker (s : State) (k : ReqKind) (code : ReplyCode) (ws : List (Port × Byte)) :
    (answerAll s k code ws).picker = s.picker := by simp

/-- What the stopping of an audit leaves at the picker. -/
theorem stopAudit_picker (s : State) : ∃ pending ws rs owed, (stopAudit s).picker = { s.picker with
    audit := none, auditPending := pending, auditWaiting := ws, recoverWaiting := rs, owedImport := owed } := by
  unfold stopAudit
  split
  · next a ha =>
    have howe : (oweImport s).picker = { s.picker with
        owedImport := s.picker.owedImport ++ a.noted.filterMap fun q => (s.elemState q).bind (·.anyLabel) } := by
      rw [oweImport, ha]
      rfl
    dsimp only
    split
    · rw [answerAll_picker, answerAll_picker, State.modPicker_picker, howe]
      exact ⟨_, _, _, _, rfl⟩
    · rw [State.modPicker_picker, howe]
      exact ⟨_, _, _, _, rfl⟩
  · next ha => exact ⟨_, _, _, _, by rw [← ha]⟩

theorem stopAudit_elements (s : State) : (stopAudit s).elements = s.elements ∧ (stopAudit s).store = s.store := by
  simp

theorem stopAudit_up (s : State) (p : Port) : ((stopAudit s).port p).up = (s.port p).up := by
  unfold stopAudit
  split
  · have howe : ((oweImport s).port p).up = (s.port p).up := by unfold oweImport; split <;> rfl
    dsimp only
    split
    · rw [answerAll_up, answerAll_up]; exact howe
    · exact howe
  · rfl

/-- The picker as the first fault leaves it, but for the queue and its marks. -/
theorem firstFault_picker (s : State) : (firstFault s).picker.state = .faulted ∧ (firstFault s).picker.condition = .motionFault
    ∧ (firstFault s).picker.motion = none ∧ (firstFault s).picker.timer = .stopped ∧ (firstFault s).picker.audit = none
    ∧ (firstFault s).picker.recovery = faultRecord s := by
  obtain ⟨pending, ws, rs, owed, hstop⟩ := stopAudit_picker (faultPicker s (faultRecord s))
  unfold firstFault
  dsimp only
  split
  · next e _ =>
    obtain ⟨q, n, u, hp⟩ := (queueOnly_completeMove (stopAudit (faultPicker s (faultRecord s))) e .motionFault).picker
    rw [hp, hstop]
    simp [faultPicker]
  · rw [hstop]
    simp [faultPicker]

/-! ### A disabled picker (R44) -/

/-- With no unload owed the completion takes the entries of its number from the queue, and nothing else at the picker. -/
theorem completeMove_picker_unowed {s : State} (e : MoveEntry) (code : ReplyCode) (h : s.picker.unloadOwed = .all false) :
    (completeMove s e code).picker.queue = s.picker.queue.filter (fun x => x.number ≠ e.number)
    ∧ (completeMove s e code).picker.unloadOwed = .all false := by
  obtain ⟨hq, -, ho⟩ := moveEnded_queue s e code
  have hnone : ∀ b, (moveEnded s e code).picker.unloadOwed.get b = false := fun b => ho b (by rw [h]; simp)
  have hall : (moveEnded s e code).picker.unloadOwed = .all false := congrArg₂ PerBay.mk (hnone .d0) (hnone .d1)
  rcases completeMove_cases s e code with hm | hm <;> rw [hm]
  · exact ⟨hq, hall⟩
  · rw [queueOwedUnloads_unowed hnone]
    exact ⟨hq, hall⟩

/-- The moves of a list ended, with no unload owed: none of their numbers stays. -/
theorem foldl_ended {f : State → MoveEntry → State} (hf : ∀ t e, QueueOnly t (f t e))
    (hq : ∀ t e, t.picker.unloadOwed = .all false → (f t e).picker.queue = t.picker.queue.filter (fun x => x.number ≠ e.number)
      ∧ (f t e).picker.unloadOwed = .all false)
    (es : List MoveEntry) (s : State) (h : s.picker.unloadOwed = .all false) :
    QueueOnly s (es.foldl f s) ∧ (es.foldl f s).picker.unloadOwed = .all false
    ∧ ∀ x ∈ (es.foldl f s).picker.queue, x ∈ s.picker.queue ∧ ∀ e ∈ es, x.number ≠ e.number := by
  induction es generalizing s with
  | nil => exact ⟨QueueOnly.refl s, h, fun x hx => ⟨hx, by simp⟩⟩
  | cons e es ih =>
    obtain ⟨hqueue, howed⟩ := hq s e h
    obtain ⟨honly, hu, hall⟩ := ih (f s e) howed
    refine ⟨(hf s e).trans honly, hu, fun x hx => ?_⟩
    obtain ⟨hin, hne⟩ := hall x hx
    rw [hqueue] at hin
    obtain ⟨hin, hn⟩ := List.mem_filter.1 hin
    refine ⟨hin, fun y hy => ?_⟩
    rcases List.mem_cons.1 hy with rfl | hy
    · simpa using hn
    · exact hne y hy

theorem clearOwedMarks_picker (s : State) : (clearOwedMarks s).picker = { s.picker with unloadOwed := .all false } := by
  have left : ∀ (t : State) (b : Bay), (leaveReleased t b).picker = t.picker := fun _ _ => rfl
  unfold clearOwedMarks
  dsimp only
  split <;> split <;> rfl

theorem disablePicker_picker (s : State) : (disablePicker s).picker.state = .disabled
    ∧ (disablePicker s).picker.condition = .pickerDisabled ∧ (disablePicker s).picker.motion = none
    ∧ (disablePicker s).picker.timer = .stopped ∧ (disablePicker s).picker.audit = none ∧ (disablePicker s).picker.queue = []
    ∧ (disablePicker s).picker.unloadOwed = .all false := by
  set s2 := answerAll (clearOwedMarks (setCondition (s.modPicker fun k =>
    { k with state := .disabled, motion := none, held := none, timer := .stopped, audit := none, doorAudit := false,
             recoverWaiting := [] }) .pickerDisabled)) .recover .motionFault s.picker.recoverWaiting with hs2
  have hp2 : s2.picker = { s.picker with
      state := .disabled, motion := none, held := none, timer := .stopped, audit := none, doorAudit := false, recoverWaiting := [],
      condition := .pickerDisabled, unloadOwed := .all false } := by
    rw [hs2, answerAll_picker, clearOwedMarks_picker, setCondition_picker]
    rfl
  obtain ⟨only3, owed3, queue3⟩ := foldl_ended (f := fun t e => completeMove t e .motionFault)
    (fun t e => queueOnly_completeMove t e _) (fun t e h => completeMove_picker_unowed e _ h)
    (s.picker.queue.filter fun e => !e.requester.isInternal) s2 (by rw [hp2])
  obtain ⟨only4, owed4, queue4⟩ := foldl_ended (f := fun t e => removeEntry t e.number)
    (fun t e => queueOnly_removeEntry t e.number) (fun t e h => ⟨rfl, h⟩)
    (s.picker.queue.filter fun e => e.requester.isInternal) _ owed3
  obtain ⟨q, n, u, hp⟩ := (only3.trans only4).picker
  have hempty : (disablePicker s).picker.queue = [] := by
    refine List.eq_nil_iff_forall_not_mem.2 fun x hx => ?_
    obtain ⟨hx3, hx4⟩ := queue4 x hx
    obtain ⟨hx2, hx3⟩ := queue3 x hx3
    rw [hp2] at hx2
    cases hi : x.requester.isInternal with
    | false => exact hx3 x (List.mem_filter.2 ⟨hx2, by simp [hi]⟩) rfl
    | true => exact hx4 x (List.mem_filter.2 ⟨hx2, by simp [hi]⟩) rfl
  have hpicker : (disablePicker s).picker = { s2.picker with
    queue := q, nextMove := n, unloadOwed := u } := hp
  refine ⟨?_, ?_, ?_, ?_, ?_, hempty, owed4⟩ <;> rw [hpicker, hp2]

/-- Settles O33. -/
theorem motionLimitExpires : Obligations.MotionLimitExpires := by
  intro s hrun
  have hx : exec .motionTimerExpiry s
      = .next (pump (if s.inHandMove.any fun e => e.kind = .recover then disablePicker s else firstFault s)) := if_pos hrun
  have frame : ∀ t, exec .motionTimerExpiry s = .next t → t.buffer = s.buffer ∧ t.store = s.store := by
    intro t h
    have hleaves := exec_leaves .motionTimerExpiry s t h
    have hbuffer := congrArg State.buffer hleaves
    have hstore := congrArg State.store hleaves
    exact ⟨hbuffer, hstore⟩
  cases hk : s.inHandMove.any fun e => decide (e.kind = .recover) with
  | true =>
    rw [hk, if_pos rfl] at hx
    obtain ⟨hstate, hcond, hmotion, htimer, haudit, hqueue, howed⟩ := disablePicker_picker s
    obtain ⟨hbuffer, hstore⟩ := frame _ hx
    refine ⟨_, hx, hmotion, htimer, haudit, hbuffer, hstore, by simp, fun e he hne => ?_, fun _ => ⟨hstate, hcond, hqueue, howed⟩⟩
    simp [he, hne] at hk
  | false =>
    rw [hk, if_neg (by decide)] at hx
    obtain ⟨hstate, hcond, hmotion, htimer, haudit, hrecovery⟩ := firstFault_picker s
    obtain ⟨hbuffer, hstore⟩ := frame _ hx
    refine ⟨_, hx, hmotion, htimer, haudit, hbuffer, hstore, fun _ => ⟨hstate, hcond⟩, fun e he _ => ?_, by simp⟩
    have hfault : firstFault s = completeMove (stopAudit (faultPicker s (faultRecord s))) e .motionFault := by
      simp only [firstFault, he]
    obtain ⟨pending, ws, rs, owed, hstop⟩ := stopAudit_picker (faultPicker s (faultRecord s))
    have hel : (stopAudit (faultPicker s (faultRecord s))).elements = s.elements := by
      simp [faultPicker]
    refine ⟨?_, fun q hq hc => ?_, fun p tag hr hu => pump_sends ?_, fun q l hm => ?_, fun hm => ⟨fun l c h0 => ?_, fun h0 => ?_⟩⟩
    · rw [hfault]
      exact entryGone_completeMove _ e _
    · rw [element_of_elements (pump_elements _), hfault]
      refine completeMove_claim _ (hq.imp_right fun h => ?_) ?_
      · rw [hstop]
        simpa [faultPicker] using h
      · rw [element_of_elements hel]
        exact hc
    · rw [hfault]
      refine completeMove_replied hr (by decide) ?_
      rw [stopAudit_up, faultPicker, setCondition_up]
      exact hu
    · rw [pump_picker, hrecovery, faultRecord, hm]
      rfl
    · rw [pump_picker, hrecovery, faultRecord, he]
      simp [h0, recoveryOf]
    · rw [pump_picker, hrecovery, faultRecord, he]
      split
      · next q l h => exact absurd ‹_› (hm q l)
      · next e' _ heq =>
        split
        · next l c hfull => simp [hfull, ElemState.isFull] at h0
        · rfl
      · next heq _ => cases heq

end Sys2Proof.Machine
end

section
/-! PROOFS. The two doors (R45, R46): the picker stopped and started again, and the mail slots left UNKNOWN. -/

namespace Sys2Proof.Machine

/-! ### The service door -/

theorem oweImport_picker (s : State) : ∃ owed, (oweImport s).picker = { s.picker with owedImport := owed } := by
  unfold oweImport
  split
  · exact ⟨_, rfl⟩
  · exact ⟨_, rfl⟩

theorem stopPicker_picker (s : State) : (stopPicker s).picker.state = .stopped ∧ (stopPicker s).picker.condition = .serviceDoor
    ∧ (stopPicker s).picker.timer = s.picker.timer.hold ∧ (stopPicker s).picker.motion = s.picker.motion := by
  obtain ⟨owed, h⟩ := oweImport_picker s
  simp [stopPicker, mapPhases, h]

theorem exec_serviceDoorOpen {s : State} (h : s.picker.state = .idle ∨ s.picker.state = .moving ∨ s.picker.state = .auditing) :
    exec .serviceDoorOpen s = .next (pump (stopPicker { s with serviceOpen := true })) := by
  change execServiceDoorOpen s = _
  unfold execServiceDoorOpen
  rcases h with h | h | h <;> rw [h] <;> rfl

theorem exec_serviceDoorClosed {s : State} (h : s.picker.state = .stopped) (hm : s.inHandMove = none) (hn : s.picker.needHoming = false)
    (hh : s.picker.motion ≠ some .homing) : exec .serviceDoorClosed s
      = .next (pump (startFullAudit ({ s with serviceOpen := false }.modPicker fun k => { k with motion := none, timer := .stopped })))
          := by
  have hm' : ({ s with serviceOpen := false } : State).inHandMove = none := hm
  change execServiceDoorClosed s = _
  rw [execServiceDoorClosed, if_pos h, restartPicker, if_neg (by simp [hn]), hm']
  dsimp only
  rw [if_neg hh]
  rfl

/-! ### The mail door -/

/-- A record as the mail door leaves it: UNKNOWN where it was located at one of the slots. -/
def Volume.sansMail (slots : List Nat) (v : Volume) : Volume :=
  match v.location with
  | .element q => if q ∈ slots then { v with location := .unknown } else v
  | _ => v

theorem Volume.sansMail_nil (v : Volume) : v.sansMail [] = v := by
  unfold Volume.sansMail
  split <;> simp

theorem Volume.sansMail_cons (q : Nat) (slots : List Nat) (v : Volume) :
    (if v.location = .element q then { v with location := .unknown } else v : Volume).sansMail slots = v.sansMail (q :: slots) := by
  cases h : v.location with
  | element r =>
    by_cases hr : r = q
    · simp [Volume.sansMail, h, hr]
    · simp [Volume.sansMail, h, hr]
  | picker => simp [Volume.sansMail, h]
  | unknown => simp [Volume.sansMail, h]
  | outside n => simp [Volume.sansMail, h]

theorem mailUnknown_store (s : State) (q : Nat) : (mailUnknown s q).store = { s.store with
    volumes := s.store.volumes.map fun v => if v.location = .element q then { v with location := .unknown } else v } := by
  simp [mailUnknown, displaceFrom, mapVolumes, setVolumes, setElem, modElement]

theorem mailUnknown_element (s : State) (q r : Nat) : (mailUnknown s q).element r
    = if r = q then (s.element r).map fun e => { e with state := .unknown ((s.elemState q).bind (·.anyLabel)) } else s.element r :=
  setElem_element _ q _ r

theorem foldl_mailUnknown_store (slots : List Nat) (s : State) : (slots.foldl mailUnknown s).store
    = { s.store with volumes := s.store.volumes.map (Volume.sansMail slots) } := by
  induction slots generalizing s with
  | nil => rw [funext Volume.sansMail_nil, List.map_id']; rfl
  | cons q slots ih =>
    rw [List.foldl_cons, ih, mailUnknown_store, List.map_map]
    simp only [Function.comp_def, Volume.sansMail_cons]

theorem foldl_mailUnknown_off {slots : List Nat} {q : Nat} (h : q ∉ slots) (s : State) :
    (slots.foldl mailUnknown s).element q = s.element q := by
  induction slots generalizing s with
  | nil => rfl
  | cons r slots ih =>
    obtain ⟨hr, hq⟩ := List.ne_and_not_mem_of_not_mem_cons h
    rw [List.foldl_cons, ih hq, mailUnknown_element, if_neg hr]

theorem mailUnknown_elemState {s : State} {q : Nat} {x : ElemState} (h : s.elemState q = some x) :
    (mailUnknown s q).elemState q = some (.unknown x.anyLabel) := by
  have hx : (mailUnknown s q).elemState q = (s.elemState q).map fun _ => .unknown ((s.elemState q).bind (·.anyLabel)) :=
    (setElem_elemState _ q _ q).trans (if_pos rfl)
  rw [hx, h]
  rfl

theorem mailUnknown_elemState_ne {s : State} {q r : Nat} (h : r ≠ q) : (mailUnknown s q).elemState r = s.elemState r := by
  rw [State.elemState, State.elemState, mailUnknown_element, if_neg h]

/-- A slot's entry keeps its last-known label, however often the door passes over it. -/
theorem foldl_mailUnknown_elemState {slots : List Nat} {q : Nat} {x : ElemState} (s : State) (h : s.elemState q = some x)
    (hq : q ∈ slots ∨ x = .unknown x.anyLabel) : (slots.foldl mailUnknown s).elemState q = some (.unknown x.anyLabel) := by
  induction slots generalizing s x with
  | nil =>
    rw [List.foldl_nil, h, ← hq.resolve_left (by simp)]
  | cons r slots ih =>
    rw [List.foldl_cons]
    by_cases hr : q = r
    · subst hr
      exact ih (x := .unknown x.anyLabel) _ (mailUnknown_elemState h) (.inr rfl)
    · refine ih _ ((mailUnknown_elemState_ne hr).trans h) (hq.imp_left fun hm => ?_)
      simpa [hr] using hm

theorem mailSlotsUnknown_foldl {s u : State} (he : u.elements = s.elements) (hs : u.store = s.store) (t : State)
    (ht : t.elements = ((mailSlots s.strap).foldl mailUnknown u).elements) (hts : t.store = ((mailSlots s.strap).foldl mailUnknown
        u).store) :
    mailSlotsUnknown s t := by
  refine ⟨fun q hq x hx => ?_, fun q hq => ?_, ?_⟩
  · rw [elemState_of_elements ht]
    exact foldl_mailUnknown_elemState u ((elemState_of_elements he q).trans hx) (.inl hq)
  · rw [element_of_elements ht, foldl_mailUnknown_off hq, element_of_elements he]
  · rw [hts, foldl_mailUnknown_store, hs]
    rfl

theorem exec_mailDoorClosed {s : State} (h : s.picker.held = none) : exec .mailDoorClosed s
    = .next (pump ((mailSlots s.strap).foldl mailUnknown
        { s with mailOpen := false, picker := { s.picker with mailAuditDue := true } })) := by
  obtain ⟨-, hpicker, -⟩ := mailSlotsUnknown_frame { s with mailOpen := false, picker := { s.picker with mailAuditDue := true } }
    (mailSlots s.strap)
  change execMailDoorClosed s = _
  unfold execMailDoorClosed
  dsimp only
  rw [if_neg (by rw [hpicker]; simp [h])]
  rfl

/-- The closing leaves all but the switch, the picker, the two tables and the ports. -/
theorem mailDoor_frame (s : State) (slots : List Nat) :
    { pump (slots.foldl mailUnknown { s with mailOpen := false, picker := { s.picker with mailAuditDue := true } }) with
      mailOpen := s.mailOpen, picker := s.picker, store := s.store, elements := s.elements, ports := s.ports } = s := by
  obtain ⟨hside, -, hdrives, hbuffer, hstreams, hengine, hrestores, hverifies⟩ :=
    mailSlotsUnknown_frame { s with mailOpen := false, picker := { s.picker with mailAuditDue := true } } slots
  obtain ⟨h1, h2, -, h4, h5, h6, h7, h8, h9⟩ := side_fields hside
  refine eq_of_blocks ?_ rfl rfl rfl hdrives hbuffer hstreams hengine hrestores hverifies rfl
  simp only [State.side, Prod.mk.injEq]
  exact ⟨h1, h2, trivial, h4, h5, h6, h7, h8, h9⟩

/-- Settles O34. -/
theorem doorsReported : Obligations.DoorsReported := by
  refine ⟨fun s h => ?_, fun s h hm hn hh => ?_, fun s => ?_, fun s hheld => ?_⟩
  · have hx := exec_serviceDoorOpen h
    obtain ⟨hstate, hcond, htimer, hmotion⟩ := stopPicker_picker { s with serviceOpen := true }
    refine ⟨_, hx, ?_, hstate, hcond, htimer, hmotion, ?_⟩
    · have hside : (stopPicker { s with serviceOpen := true }).side = ({ s with serviceOpen := true } : State).side := by
        simp [stopPicker, mapPhases]
      obtain ⟨-, hopen, -⟩ := side_fields hside
      rw [pump_serviceOpen, hopen]
    · simp [stopPicker, mapPhases]
  · have hx := exec_serviceDoorClosed h hm hn hh
    set u : State := { s with serviceOpen := false }.modPicker fun k => { k with motion := none, timer := .stopped }
    obtain ⟨hstate, hcond, hmotion, htimer, -⟩ := startFullAudit_picker u
    obtain ⟨hel, hst, hdr, -, -, hside⟩ := startFullAudit_rest u
    obtain ⟨-, hopen, -⟩ := side_fields hside
    refine ⟨_, hx, ?_⟩
    rw [pump_serviceOpen, pump_picker, pump_elements, pump_store, pump_drives]
    exact ⟨hopen, hstate, hcond, hmotion, htimer, hel, hst, hdr⟩
  · set u : State := { s with mailOpen := true, picker := { s.picker with mailAuditDue := false } } with hu
    have hx : exec .mailDoorOpen s = .next (pump ((mailSlots s.strap).foldl mailUnknown u)) := rfl
    obtain ⟨hside, hpicker, hdrives, hbuffer, -⟩ := mailSlotsUnknown_frame u (mailSlots s.strap)
    obtain ⟨-, -, hopen, -⟩ := side_fields hside
    have hstore := foldl_mailUnknown_store (mailSlots s.strap) u
    refine ⟨_, hx, ?_, ?_, mailSlotsUnknown_foldl (u := u) rfl rfl _ (pump_elements _) (pump_store _), ?_, ?_, ?_⟩
    · rw [pump_mailOpen, hopen]
    · rw [pump_picker, hpicker]
    · rw [pump_drives, hdrives]
    · rw [pump_buffer, hbuffer]
    · rw [State.settings, pump_store, hstore]
      rfl
  · set u : State := { s with mailOpen := false, picker := { s.picker with mailAuditDue := true } } with hu
    have hx : exec .mailDoorClosed s = .next (pump ((mailSlots s.strap).foldl mailUnknown u)) := exec_mailDoorClosed hheld
    obtain ⟨hside, hpicker, -⟩ := mailSlotsUnknown_frame u (mailSlots s.strap)
    obtain ⟨-, -, hopen, -⟩ := side_fields hside
    refine ⟨_, hx, ?_, ?_, mailSlotsUnknown_foldl (u := u) rfl rfl _ (pump_elements _) (pump_store _), ?_⟩
    · rw [pump_mailOpen, hopen]
    · rw [pump_picker, hpicker]
    · exact mailDoor_frame s (mailSlots s.strap)

end Sys2Proof.Machine
end

section
/-! PROOFS. What FETCH_COMPLETE and CARRY_COMPLETE leave (R37), with what the volume table shows after each operation on it. -/

namespace Sys2Proof.Machine

/-! ### The volume table -/

theorem volume_of_store {s t : State} (h : t.store = s.store) (l : Label) : t.volume l = s.volume l := by
  rw [State.volume, State.volume, h]

theorem volume_map {s t : State} {f : Volume → Volume} (h : t.store.volumes = s.store.volumes.map f) (hf : ∀ v, (f v).label = v.label)
    (l : Label) : t.volume l = (s.volume l).map f := by
  rw [State.volume, State.volume, h, List.find?_map]
  congr 2
  funext v
  simp [hf]

theorem displaceFrom_volume (s : State) (q : Nat) (keep : Option Label) (l : Label) : (displaceFrom s q keep).volume l
    = (s.volume l).map fun v => if v.location = .element q && some v.label ≠ keep then { v with location := .unknown } else v :=
  volume_map rfl (fun v => by split <;> rfl) l

/-- The location of the record of one label, written. -/
theorem modVolume_location {s : State} {l : Label} {v : Volume} (h : s.volume l = some v) {f : Volume → Volume} {x : Location}
    (hl : ∀ w, (f w).label = w.label) (hx : ∀ w, (f w).location = x) : ((modVolume s l f).volume l).map (·.location) = some x := by
  rw [volume_modVolume _ _ _ _ hl, h]
  simp [hx]

/-- A record of a named label is in the table. -/
theorem volume_isSome {s : State} {v : Volume} (h : v ∈ s.store.volumes) : ∃ w, s.volume v.label = some w :=
  Option.isSome_iff_exists.1 (List.find?_isSome.2 ⟨v, h, by simp⟩)

theorem mem_volumes {s : State} {l : Label} {v : Volume} (h : s.volume l = some v) : v ∈ s.store.volumes := List.mem_of_find?_eq_some h

/-! ### A source found empty (R23) -/

/-- The record of one label, UNKNOWN. -/
def unplace (s : State) (l : Label) : State := modVolume s l fun v => { v with location := .unknown }

theorem unplace_volume (s : State) (k l : Label) :
    (unplace s k).volume l = (s.volume l).map fun v => if l = k then { v with location := .unknown } else v :=
  volume_modVolume s k l (fun v => { v with location := .unknown }) fun _ => rfl

/-- The records of a list of labels, UNKNOWN. -/
def lost (s : State) (ls : List Label) : State := ls.foldl unplace s

theorem lost_other {ls : List Label} {l : Label} (h : l ∉ ls) (s : State) : (lost s ls).volume l = s.volume l := by
  induction ls generalizing s with
  | nil => rfl
  | cons k ls ih =>
    obtain ⟨hk, hl⟩ := List.ne_and_not_mem_of_not_mem_cons h
    refine (ih hl _).trans ?_
    rw [unplace_volume]
    simp [hk]

theorem lost_location {ls : List Label} {l : Label} {v : Volume} (hl : l ∈ ls) (s : State) (hv : s.volume l = some v) :
    ((lost s ls).volume l).map (·.location) = some .unknown := by
  induction ls generalizing s v with
  | nil => simp at hl
  | cons k ls ih =>
    have hnext : (unplace s k).volume l = some (if l = k then { v with location := .unknown } else v) := by
      rw [unplace_volume, hv]
      rfl
    by_cases hin : l ∈ ls
    · exact ih hin _ hnext
    · obtain rfl : l = k := by simpa [hin] using hl
      refine (congrArg (Option.map (·.location)) (lost_other hin _)).trans ?_
      rw [hnext]
      simp

theorem mem_emptiedLabels {s : State} {q : Nat} {v : Volume} (hv : v ∈ s.store.volumes)
    (h : v.location = .element q ∨ (v.location = .unknown ∧ (s.elemState q).bind (·.anyLabel) = some v.label)) :
    v.label ∈ emptiedLabels s q := by
  refine List.mem_map.2 ⟨v, List.mem_filter.2 ⟨hv, ?_⟩, rfl⟩
  rcases h with h | ⟨h, hl⟩
  · simp [h]
  · simp [h, hl]

/-- The state of an element found empty, but for its entry. -/
def emptied (s : State) (q : Nat) (byAudit : Bool) : State :=
  if byAudit && isMail q then (emptiedLabels s q).foldl exportVolume s else lost s (emptiedLabels s q)

theorem foundEmpty_eq (s : State) (q : Nat) (byAudit : Bool) : foundEmpty s q byAudit = setElem (emptied s q byAudit) q .empty := rfl

theorem emptied_elements (s : State) (q : Nat) (byAudit : Bool) : (emptied s q byAudit).elements = s.elements := by
  unfold emptied
  split
  · simp
  · simp [lost, unplace]

theorem foundEmpty_element (s : State) (q : Nat) (byAudit : Bool) (r : Nat) : (foundEmpty s q byAudit).element r
    = (setElem s q .empty).element r := by
  rw [foundEmpty_eq, setElem_element, setElem_element, element_of_elements (emptied_elements s q byAudit)]

theorem foundEmpty_elemState (s : State) (q : Nat) (byAudit : Bool) (r : Nat) : (foundEmpty s q byAudit).elemState r
    = (setElem s q .empty).elemState r := by
  rw [State.elemState, State.elemState, foundEmpty_element]

/-- A record that stood there, or was last known there, is UNKNOWN when the picker finds the element empty. -/
theorem foundEmpty_location {s : State} {q : Nat} {v : Volume} (hv : v ∈ s.store.volumes)
    (h : v.location = .element q ∨ (v.location = .unknown ∧ (s.elemState q).bind (·.anyLabel) = some v.label)) :
    ((foundEmpty s q false).volume v.label).map (·.location) = some .unknown := by
  obtain ⟨w, hw⟩ := volume_isSome hv
  exact lost_location (mem_emptiedLabels hv h) s hw

/-! ### The cartridge taken (R9, R21) -/

theorem fetchTaken_elements {s : State} {q : Nat} {l : Option Label} {c : Condition} (hq : s.elemState q = some (.full l c)) (read :
    Option Label)
    (r : Nat) : (fetchTaken s q read).element r = (setElem (setElem s q .empty) 0 (.full l c)).element r := by
  have hheld : fetchedState s q read = .full l c := by simp only [fetchedState, hq]
  unfold fetchTaken
  dsimp only
  rw [hheld]
  refine element_of_elements ?_ r
  split <;> simp [setElem, modElement]

theorem fetchTaken_location {s : State} {q : Nat} {l : Option Label} {c : Condition} {v : Volume} (hq : s.elemState q = some (.full l c))
    (read : Option Label) (hv : s.elemVolume q = some v) : ((fetchTaken s q read).volume v.label).map (·.location) = some .picker := by
  have hheld : fetchedState s q read = .full l c := by simp only [fetchedState, hq]
  have hvol : (ElemState.full l c).namedLabel.bind s.volume = some v := by
    rw [State.elemVolume, hq] at hv
    exact hv
  obtain ⟨k, -, hk⟩ := Option.bind_eq_some_iff.1 hvol
  have hself : s.volume v.label = some v := (congrArg s.volume (volume_label hk)).trans hk
  unfold fetchTaken
  dsimp only
  rw [hheld, hvol]
  exact modVolume_location hself (fun _ => rfl) fun _ => rfl

/-! ### The reports -/

theorem runningMotion_some {s : State} {m : Motion} (hs : s.picker.state ≠ .stopped) (hm : s.picker.motion = some m) :
    s.runningMotion = some m := by
  rw [State.runningMotion, if_neg hs, hm]

section
variable {s : State} {q : Nat} {e : MoveEntry} (hs : s.picker.state ≠ .stopped) (he : s.inHandMove = some e)
include hs he

theorem exec_fetchComplete (hm : s.picker.motion = some (.fetch q)) (gripped : Bool) (l : Option Label) :
    exec (.fetchComplete gripped l) s = .next (pump (fetchReported (motionReported s) e q gripped l)) := by
  change execFetchComplete gripped l s = _
  rw [execFetchComplete, runningMotion_some hs hm, he]
  rfl

theorem exec_carryComplete (hm : s.picker.motion = some .carry) :
    exec .carryComplete s = .next (pump (startPlace (motionReported s) e)) := by
  change execCarryComplete s = _
  rw [execCarryComplete, runningMotion_some hs hm, he]
  rfl

theorem exec_placeComplete (hm : s.picker.motion = some (.place q)) (obstructed : Bool) :
    exec (.placeComplete obstructed) s = .next (pump (placeReported (motionReported s) e q obstructed)) := by
  change execPlaceComplete obstructed s = _
  rw [execPlaceComplete, runningMotion_some hs hm, he]
  rfl

end

theorem freePicker_idle {s : State} (h : s.picker.doorAudit = false) : freePicker s = s.modPicker fun k => { k with state := .idle } :=
  if_neg (by simp [h])

theorem entryGone_of_queue {t u : State} {e : MoveEntry} (h : t.picker.queue = u.picker.queue) (hu : entryGone u e) : entryGone t e := by
  rw [entryGone, h]
  exact hu

/-- A FETCH that gripped nothing (R37). -/
theorem fetchReported_empty (s : State) (e : MoveEntry) (q : Nat) (l : Option Label) : fetchReported s e q false l
    = freePicker (completeMove (markPending (setElem (foundEmpty s q false) 0 .empty) q) e .sourceEmpty) := rfl

theorem fetchReported_taken {s : State} {e : MoveEntry} {q : Nat} {l : Option Label} (hb : isBay q = false) (hl : e.expected = l) :
    fetchReported s e q true l = startCarry (fetchTaken s q l) e := by
  subst hl
  rw [fetchReported, hb]
  simp

theorem fetchReported_changed {s : State} {e : MoveEntry} {q : Nat} {l : Option Label} (hb : isBay q = false) (hl : e.expected ≠ l) :
    fetchReported s e q true l = issueOrHold s (.putBack q l) := by
  rw [fetchReported, hb]
  simp [Ne.symm hl]

/-- A cartridge on its way: the CARRY issued under the motion limit in force. -/
theorem startCarry_timer {s u : State} (h : u.settings = s.settings) (e : MoveEntry) :
    (startCarry u e).picker.timer = .running (1000 * s.settings.motionLimit) := by
  rw [← h]
  rfl

theorem fetchTaken_settings (s : State) (q : Nat) (l : Option Label) : (fetchTaken (motionReported s) q l).settings = s.settings :=
  (ranges_fetchTaken (ranges_motionReported (Ranges.refl s))).settings

section
variable {s : State} {q : Nat} {e : MoveEntry} {l : Option Label}

theorem fetch_taken {c : Condition} (hs : s.picker.state ≠ .stopped) (hm : s.picker.motion = some (.fetch q)) (he : s.inHandMove = some e)
    (hb : isBay q = false) (hq0 : q ≠ 0) (hq : s.elemState q = some (.full l c)) (h0 : s.installed 0 = true) (hl : e.expected = l) :
    ∃ t, exec (.fetchComplete true l) s = .next t ∧ t.elemState q = some .empty ∧ t.elemState 0 = some (.full l c)
      ∧ t.picker.motion = some .carry ∧ t.picker.timer = .running (1000 * s.settings.motionLimit)
      ∧ (∀ r, r ≠ 0 → r ≠ q → t.element r = s.element r)
      ∧ (∀ v, s.elemVolume q = some v → (t.volume v.label).map (·.location) = some .picker)
      ∧ t.drives = s.drives ∧ t.buffer = s.buffer ∧ t.streams = s.streams := by
  have hx := exec_fetchComplete hs he hm true l
  rw [fetchReported_taken hb hl] at hx
  have hq' : (motionReported s).elemState q = some (.full l c) := hq
  have hinst : s.installed q = true := by rw [← elemState_isSome, hq]; rfl
  have hel : ∀ r, (startCarry (fetchTaken (motionReported s) q l) e).element r
      = (setElem (setElem s q .empty) 0 (.full l c)).element r := fun r =>
    (element_of_elements (by simp) r).trans (fetchTaken_elements hq' l r)
  have hel' : ∀ r, (startCarry (fetchTaken (motionReported s) q l) e).elemState r
      = (setElem (setElem s q .empty) 0 (.full l c)).elemState r := fun r => by
    rw [State.elemState, State.elemState, hel]
  have hstore : (startCarry (fetchTaken (motionReported s) q l) e).store = (fetchTaken (motionReported s) q l).store := by simp
  refine ⟨_, hx, ?_, ?_, rfl, ?_, fun r hr0 hrq => ?_, fun v hv => ?_, ?_, ?_, ?_⟩
  · rw [elemState_of_elements (pump_elements _), hel', setElem_elemState, if_neg hq0, setElem_elemState_same _ hinst]
  · rw [elemState_of_elements (pump_elements _), hel', setElem_elemState_same _ (by rw [setElem_installed]; exact h0)]
  · rw [pump_picker, startCarry_timer (fetchTaken_settings s q l)]
  · rw [element_of_elements (pump_elements _), hel, setElem_element, if_neg hr0, setElem_element, if_neg hrq]
  · rw [volume_of_store (pump_store _), volume_of_store hstore]
    exact fetchTaken_location hq' l hv
  · rw [pump_drives]; simp
  · rw [pump_buffer]; simp
  · rw [pump_streams]; simp

/-- The element found empty, with nothing in the picker and the audit marked. -/
def sourceGone (s : State) (q : Nat) : State := markPending (setElem (foundEmpty (motionReported s) q false) 0 .empty) q

theorem sourceGone_picker (s : State) (q : Nat) : (sourceGone s q).picker = { s.picker with
    motion := none, timer := .stopped, auditPending := true,
    audit := s.picker.audit.map fun a => { a with markedFor := a.markedFor ++ [q] } } := by
  have h : (setElem (foundEmpty (motionReported s) q false) 0 .empty).picker = (motionReported s).picker := by simp
  rw [sourceGone, markPending, State.modPicker_picker, h]
  rfl

theorem foundEmpty_ports (s : State) (q : Nat) : (foundEmpty s q false).ports = s.ports := by
  have h : ∀ (ls : List Label) (t : State), (lost t ls).ports = t.ports := by
    intro ls
    induction ls with
    | nil => exact fun _ => rfl
    | cons l ls ih => exact fun t => ih (unplace t l)
  exact h (emptiedLabels s q) s

theorem sourceGone_elemState (s : State) (q r : Nat) : (sourceGone s q).elemState r = (setElem (setElem s q .empty) 0 .empty).elemState r
    := by
  have h : (sourceGone s q).elemState r = (setElem (foundEmpty (motionReported s) q false) 0 .empty).elemState r := rfl
  rw [h, setElem_elemState, setElem_elemState, foundEmpty_elemState]
  rfl

theorem fetch_empty (hs : s.picker.state ≠ .stopped) (hm : s.picker.motion = some (.fetch q)) (he : s.inHandMove = some e) (hq0 : q ≠ 0)
    (hq : s.installed q = true) (hdoor : s.picker.doorAudit = false) :
    ∃ t, exec (.fetchComplete false l) s = .next t ∧ t.elemState q = some .empty ∧ t.picker.auditPending = true
      ∧ t.picker.state = .idle ∧ t.picker.motion = none ∧ t.picker.timer = .stopped ∧ entryGone t e
      ∧ (∀ v ∈ s.store.volumes, v.location = .element q
            ∨ (v.location = .unknown ∧ (s.elemState q).bind (·.anyLabel) = some v.label) →
          (t.volume v.label).map (·.location) = some .unknown)
      ∧ (∀ p tag, e.requester = .port p (some tag) → (s.port p).up = true → t.sends p (moveFailure e tag .sourceEmpty))
      ∧ (s.installed 0 = true → t.elemState 0 = some .empty) ∧ t.buffer = s.buffer ∧ t.streams = s.streams := by
  have hx : exec (.fetchComplete false l) s = .next (pump (freePicker (completeMove (sourceGone s q) e .sourceEmpty))) :=
    exec_fetchComplete hs he hm false l
  have honly := queueOnly_completeMove (sourceGone s q) e .sourceEmpty
  obtain ⟨qu, n, o, hp⟩ := honly.picker
  rw [sourceGone_picker] at hp
  have hdoor' : (completeMove (sourceGone s q) e .sourceEmpty).picker.doorAudit = false := by rw [hp]; exact hdoor
  rw [freePicker_idle hdoor'] at hx
  have hleaves := exec_leaves _ s _ hx
  have hbuffer := congrArg State.buffer hleaves
  have hstreams := congrArg State.streams hleaves
  have hel : ∀ r, (completeMove (sourceGone s q) e .sourceEmpty).elemState r = (setElem (setElem s q .empty) 0 .empty).elemState r :=
    fun r => (honly.elemState r).trans (sourceGone_elemState s q r)
  have hvol : ∀ k, (completeMove (sourceGone s q) e .sourceEmpty).volume k = (foundEmpty (motionReported s) q false).volume k :=
    honly.volume
  refine ⟨_, hx, ?_, ?_, ?_, ?_, ?_, ?_, fun v hv h => ?_, fun p tag hr hu => pump_sends ?_, fun h0 => ?_, hbuffer, hstreams⟩
  · rw [elemState_of_elements (pump_elements _), elemState_of_elements (State.modPicker_elements _ _), hel, setElem_elemState,
      if_neg hq0, setElem_elemState_same _ hq]
  · rw [pump_picker, State.modPicker_picker, hp]
  · rw [pump_picker, State.modPicker_picker]
  · rw [pump_picker, State.modPicker_picker, hp]
  · rw [pump_picker, State.modPicker_picker, hp]
  · refine entryGone_of_queue ?_ (entryGone_completeMove (sourceGone s q) e .sourceEmpty)
    rw [pump_picker, State.modPicker_picker]
  · rw [volume_of_store (pump_store _), volume_of_store (State.modPicker_store _ _), hvol]
    exact foundEmpty_location (s := motionReported s) hv h
  · rw [State.modPicker_read_port]
    refine completeMove_replied (s := sourceGone s q) hr (by decide) ?_
    have hports : (sourceGone s q).ports = s.ports := foundEmpty_ports (motionReported s) q
    rw [State.port, hports]
    exact hu
  · rw [elemState_of_elements (pump_elements _), elemState_of_elements (State.modPicker_elements _ _), hel, setElem_elemState_same]
    rw [setElem_installed]
    exact h0

end

/-- Settles O30. -/
theorem fetchAndCarryReported : Obligations.FetchAndCarryReported := by
  refine ⟨fun s q e l c hs hm he hb hq0 hq h0 hl => fetch_taken hs hm he hb hq0 hq h0 hl, fun s q e l hs hopen hm he hb hl => ?_,
    fun s q e l hs hm he hq0 hq hdoor => fetch_empty hs hm he hq0 hq hdoor, fun s e hs hm he => ?_⟩
  · rw [exec_fetchComplete hs he hm true l, fetchReported_changed hb hl, issueOrHold, if_neg (by simp [motionReported, hopen])]
    rfl
  · rw [exec_carryComplete hs he hm, startPlace, issueOrHold]
    have hcond : ((setPhase (motionReported s) e.number (.run .place)).mailOpen && (Motion.target (.place e.placeAt)).any isMail)
        = (s.mailOpen && isMail e.placeAt) := rfl
    rw [hcond]
    cases s.mailOpen && isMail e.placeAt <;> rfl

end Sys2Proof.Machine
end

section
/-! PROOFS. What PLACE_COMPLETE leaves (R38, R43). -/

namespace Sys2Proof.Machine

section
variable (s : State)

@[simp] theorem pump_element (q : Nat) : (pump s).element q = s.element q := rfl
@[simp] theorem pump_elemState (q : Nat) : (pump s).elemState q = s.elemState q := rfl
@[simp] theorem pump_volume (l : Label) : (pump s).volume l = s.volume l := rfl
@[simp] theorem pump_settings : (pump s).settings = s.settings := rfl
@[simp] theorem modPicker_element (f : Picker → Picker) (q : Nat) : (s.modPicker f).element q = s.element q := rfl
@[simp] theorem modPicker_elemState (f : Picker → Picker) (q : Nat) : (s.modPicker f).elemState q = s.elemState q := rfl
@[simp] theorem modPicker_volume (f : Picker → Picker) (l : Label) : (s.modPicker f).volume l = s.volume l := rfl
@[simp] theorem modDrive_elemState (b : Bay) (f : Drive → Drive) (q : Nat) : (s.modDrive b f).elemState q = s.elemState q := rfl
@[simp] theorem modDrive_volume (b : Bay) (f : Drive → Drive) (l : Label) : (s.modDrive b f).volume l = s.volume l := rfl
@[simp] theorem setElem_volume (q : Nat) (st : ElemState) (l : Label) : (setElem s q st).volume l = s.volume l := rfl
@[simp] theorem setElem_picker (q : Nat) (st : ElemState) : (setElem s q st).picker = s.picker := rfl
@[simp] theorem setElem_store (q : Nat) (st : ElemState) : (setElem s q st).store = s.store := rfl

end

/-! ### The cartridge placed (R8, R9, R21) -/

/-- The state with the record of what the picker holds placed at q. -/
def recordPlaced (s : State) (q : Nat) : State :=
  match s.elemVolume 0 with
  | some v => modVolume (displaceFrom s q none) v.label fun w => { w with location := .element q }
  | none => displaceFrom s q none

theorem placeTaken_eq (s : State) (q : Nat) : placeTaken s q
    = setElem (setElem (recordPlaced s q) q (placedState s q ((s.elemState 0).getD .empty))) 0 .empty := rfl

theorem recordPlaced_elements (s : State) (q : Nat) : (recordPlaced s q).elements = s.elements := by
  unfold recordPlaced
  split <;> simp

theorem placeTaken_elemState (s : State) (q r : Nat) : (placeTaken s q).elemState r
    = (setElem (setElem s q (placedState s q ((s.elemState 0).getD .empty))) 0 .empty).elemState r := by
  rw [placeTaken_eq, setElem_elemState, setElem_elemState, setElem_elemState, setElem_elemState,
    elemState_of_elements (recordPlaced_elements s q)]

/-- What was in the picker stands at the element. -/
theorem placeTaken_location {s : State} {q : Nat} {v : Volume} (hv : s.elemVolume 0 = some v) :
    ((placeTaken s q).volume v.label).map (·.location) = some (.element q) := by
  obtain ⟨k, -, hk⟩ := Option.bind_eq_some_iff.1 hv
  have hself : s.volume v.label = some v := (congrArg s.volume (volume_label hk)).trans hk
  obtain ⟨w, hw⟩ : ∃ w, (displaceFrom s q none).volume v.label = some w := by
    rw [displaceFrom_volume, hself]
    exact ⟨_, rfl⟩
  unfold placeTaken
  dsimp only
  rw [hv]
  exact modVolume_location hw (fun _ => rfl) fun _ => rfl

/-- The two entries after a clear place. -/
theorem placeTaken_states {s : State} {q : Nat} (hq0 : q ≠ 0) (hq : s.installed q = true) {held : ElemState}
    (h0 : s.elemState 0 = some held) :
    (placeTaken s q).elemState q = some (placedState s q held) ∧ (placeTaken s q).elemState 0 = some .empty := by
  have hinst : s.installed 0 = true := by rw [← elemState_isSome, h0]; rfl
  rw [placeTaken_elemState, placeTaken_elemState, h0]
  refine ⟨?_, ?_⟩
  · rw [setElem_elemState, if_neg hq0, setElem_elemState_same _ hq]
    rfl
  · exact setElem_elemState_same _ (by rw [setElem_installed]; exact hinst)

theorem placeTaken_picker (s : State) (q : Nat) : (placeTaken (motionReported s) q).picker = { s.picker with
    motion := none, timer := .stopped } := by
  have h : (placeTaken (motionReported s) q).picker = (motionReported s).picker := by simp
  rw [h]
  rfl

/-! ### A place on the way out -/

theorem queueOnly_setPhase (s : State) (n : Nat) (ph : Phase) : QueueOnly s (setPhase s n ph) :=
  .of_elements rfl ⟨_, _, _, rfl⟩ rfl

theorem queueOnly_startThread (s : State) (e : MoveEntry) (b : Bay) : QueueOnly s (startThread s e b) :=
  .of_elements rfl ⟨_, _, _, rfl⟩ rfl

/-- What a clear place on the way out comes to, before the picker is free: a LOAD's THREAD, or the move's end. -/
def placeEnds (s : State) (e : MoveEntry) (q : Nat) : State :=
  match e.kind.isLoad, peaBay q with
  | true, some b => startThread (placeTaken s q) e b
  | _, _ => completeMove (placeTaken s q) e .done

theorem placeEnds_load {s : State} {e : MoveEntry} {q : Nat} {b : Bay} (hk : e.kind.isLoad = true) (hb : peaBay q = some b) :
    placeEnds s e q = startThread (placeTaken s q) e b := by
  rw [placeEnds, hk, hb]

theorem placeEnds_done {s : State} {e : MoveEntry} {q : Nat} (h : e.kind.isLoad = false ∨ peaBay q = none) :
    placeEnds s e q = completeMove (placeTaken s q) e .done := by
  unfold placeEnds
  split
  · next hk hb => simp [hk, hb] at h
  · rfl

theorem queueOnly_placeEnds (s : State) (e : MoveEntry) (q : Nat) : QueueOnly (placeTaken s q) (placeEnds s e q) := by
  unfold placeEnds
  split
  · exact queueOnly_startThread _ e _
  · exact queueOnly_completeMove _ e _

theorem placeReported_clear {s : State} {e : MoveEntry} {q : Nat} (hk : e.kind ≠ .recover) (hl : e.leg = .outward) :
    placeReported s e q false = freePicker (placeEnds s e q) := by
  unfold placeReported placeEnds
  rw [if_neg hk, hl]
  cases e.kind.isLoad <;> cases peaBay q <;> rfl

section
variable {s : State} {q : Nat} {e : MoveEntry} (hs : s.picker.state ≠ .stopped) (hm : s.picker.motion = some (.place q))
  (he : s.inHandMove = some e)
include hs hm he

theorem exec_place_clear (hl : e.leg = .outward) (hk : e.kind ≠ .recover) (hdoor : s.picker.doorAudit = false) :
    exec (.placeComplete false) s
      = .next (pump ((placeEnds (motionReported s) e q).modPicker fun k => { k with state := .idle })) := by
  obtain ⟨n, m, o, hp⟩ := (queueOnly_placeEnds (motionReported s) e q).picker
  rw [exec_placeComplete hs he hm, placeReported_clear hk hl, freePicker_idle (by rw [hp, placeTaken_picker]; exact hdoor)]

end

/-- The end of a move that is no LOAD and no UNLOAD leaves the drives alone. -/
theorem completeMove_drives {s : State} {e : MoveEntry} {code : ReplyCode} (hl : e.kind.isLoad = false) (hu : e.kind ≠ .unload) :
    (completeMove s e code).drives = s.drives := by
  have hsettle : settleClaims (removeEntry s e.number) e code = removeEntry s e.number := by
    rw [settleClaims, if_neg (by simp [hl]), if_neg hu]
  rcases completeMove_cases s e code with h | h <;> rw [h]
  · rw [moveEnded, hsettle]; simp
  · rw [(marksOnly_queueOwedUnloads _).1.drives, moveEnded, hsettle]; simp

theorem startThread_drive (s : State) (e : MoveEntry) (b : Bay) : (startThread s e b).drive b
    = Drive.issue { s.drive b with volume := (s.elemState (bayPea b)).bind (·.namedLabel) } .thread .threading := by
  have h := modDrive_at s b b fun d =>
    ({ d with volume := (s.elemState (bayPea b)).bind (·.namedLabel) }).issue .thread .threading
  rw [if_pos rfl] at h
  exact h

theorem inHandMove_mem {s : State} {e : MoveEntry} (h : s.inHandMove = some e) : e ∈ s.picker.queue := List.mem_of_find?_eq_some h

theorem startThread_queue (s : State) (e : MoveEntry) (b : Bay) (h : e ∈ s.picker.queue) :
    ∃ x ∈ (startThread s e b).picker.queue, x.number = e.number ∧ x.phase = .threadWait :=
  ⟨{ e with phase := .threadWait }, List.mem_map.2 ⟨e, h, if_pos rfl⟩, rfl, rfl⟩

/-- A command other than a reset and a settings write's completion keeps the settings. -/
theorem exec_settings {c : Instr} {s t : State} (hx : exec c s = .next t)
    (hr : ∀ a b d e, c ≠ .powerOn a b d e ∧ c ≠ .boardReset a b d e) (hw : c ≠ .settingsStoreWriteComplete) : t.settings = s.settings :=
  (eachCommandKeepsToItsBlocks c s t hx).2 hr hw

theorem place_taken {s : State} {q : Nat} {e : MoveEntry} {l : Option Label} (hs : s.picker.state ≠ .stopped)
    (hm : s.picker.motion = some (.place q)) (he : s.inHandMove = some e) (hleg : e.leg = .outward) (hk : e.kind ≠ .recover) (hq0 : q ≠ 0)
    (hq : s.installed q = true) (h0 : s.elemState 0 = some (.full l .normal)) (hdoor : s.picker.doorAudit = false) :
    ∃ t, exec (.placeComplete false) s = .next t ∧ t.elemState q = some (.full l .normal) ∧ t.elemState 0 = some .empty
      ∧ t.picker.state = .idle ∧ t.picker.motion = none ∧ t.picker.timer = .stopped
      ∧ (∀ v, s.elemVolume 0 = some v → (t.volume v.label).map (·.location) = some (.element q))
      ∧ (e.kind.isLoad = false → t.drives = s.drives ∨ e.kind = .unload)
      ∧ (∀ b, e.kind.isLoad = true → q = bayPea b →
          (t.drive b).order = some .thread ∧ (t.drive b).state = .threading ∧ (t.drive b).volume = l
          ∧ ∃ x ∈ t.picker.queue, x.number = e.number ∧ x.phase = .threadWait)
      ∧ (peaBay q = none → ∀ x ∈ t.picker.queue, x.number = e.number → x.requester = .internal)
      ∧ t.buffer = s.buffer ∧ t.streams = s.streams ∧ t.settings = s.settings := by
  have hx := exec_place_clear hs hm he hleg hk hdoor
  have hleaves := exec_leaves _ s _ hx
  have hbuffer := congrArg State.buffer hleaves
  have hstreams := congrArg State.streams hleaves
  have hset := exec_settings hx (by simp) (by simp)
  have honly := queueOnly_placeEnds (motionReported s) e q
  obtain ⟨n, m, o, hp⟩ := honly.picker
  rw [placeTaken_picker] at hp
  obtain ⟨hat, hpick⟩ := placeTaken_states (s := motionReported s) hq0 hq h0
  have hheld : placedState (motionReported s) q (.full l .normal) = .full l .normal := rfl
  rw [hheld] at hat
  refine ⟨_, hx, ?_, ?_, ?_, ?_, ?_, fun v hv => ?_, fun hload => ?_, fun b hload hb => ?_, fun hb => ?_, hbuffer, hstreams, hset⟩
  · rw [pump_elemState, modPicker_elemState, honly.elemState, hat]
  · rw [pump_elemState, modPicker_elemState, honly.elemState, hpick]
  · rw [pump_picker, State.modPicker_picker]
  · rw [pump_picker, State.modPicker_picker, hp]
  · rw [pump_picker, State.modPicker_picker, hp]
  · rw [pump_volume, modPicker_volume, honly.volume]
    exact placeTaken_location (s := motionReported s) hv
  · rw [pump_drives, State.modPicker_drives, placeEnds_done (.inl hload)]
    by_cases hu : e.kind = .unload
    · exact .inr hu
    · left
      rw [completeMove_drives hload hu]
      simp
  · subst hb
    have hin : e ∈ (placeTaken (motionReported s) (bayPea b)).picker.queue := by
      rw [placeTaken_picker]
      exact inHandMove_mem he
    have hpb : peaBay (bayPea b) = some b := by cases b <;> rfl
    rw [pump_drive, pump_picker, State.modPicker_picker, State.modPicker_read_drive, placeEnds_load hload hpb, startThread_drive, hat]
    exact ⟨rfl, rfl, rfl, startThread_queue _ e b hin⟩
  · rw [pump_picker, State.modPicker_picker, placeEnds_done (.inr hb)]
    exact entryGone_completeMove _ e _

/-- A MISPLACED cartridge placed: NORMAL where its owner sees the slot. -/
theorem place_misplaced {s : State} {q : Nat} {e : MoveEntry} {l : Label} {v : Volume} (hs : s.picker.state ≠ .stopped)
    (hm : s.picker.motion = some (.place q)) (he : s.inHandMove = some e) (hleg : e.leg = .outward) (hk : e.kind ≠ .recover) (hq0 : q ≠ 0)
    (hq : s.installed q = true) (h0 : s.elemState 0 = some (.full (some l) .misplaced)) (hv : s.volume l = some v)
    (hdoor : s.picker.doorAudit = false) :
    ∃ t, exec (.placeComplete false) s = .next t
      ∧ t.elemState q = some (.full (some l) (if s.visibleToOwner v.owner q then .normal else .misplaced))
      ∧ t.elemState 0 = some .empty ∧ (t.volume l).map (·.location) = some (.element q) := by
  have honly := queueOnly_placeEnds (motionReported s) e q
  obtain ⟨hat, hpick⟩ := placeTaken_states (s := motionReported s) hq0 hq h0
  have hheld : placedState (motionReported s) q (.full (some l) .misplaced)
      = .full (some l) (if s.visibleToOwner v.owner q then .normal else .misplaced) := by
    have hv' : (motionReported s).volume l = some v := hv
    have hvis : (motionReported s).visibleToOwner v.owner q = s.visibleToOwner v.owner q := rfl
    simp only [placedState, Option.bind_some, hv', hvis]
    split <;> rfl
  have hvol : s.elemVolume 0 = some v := by
    rw [State.elemVolume, h0]
    exact hv
  rw [hheld] at hat
  refine ⟨_, exec_place_clear hs hm he hleg hk hdoor, ?_, ?_, ?_⟩
  · rw [pump_elemState, modPicker_elemState, honly.elemState, hat]
  · rw [pump_elemState, modPicker_elemState, honly.elemState, hpick]
  · rw [pump_volume, modPicker_volume, honly.volume, ← volume_label hv]
    exact placeTaken_location (s := motionReported s) hvol

/-! ### An obstructed place (R38) -/

theorem placeObstructed_elemState (s : State) (q r : Nat) :
    (placeObstructed s q).elemState r = (setElem s q (.full none .noLabel)).elemState r := by
  rw [placeObstructed, setElem_elemState, setElem_elemState, elemState_of_elements (t := displaceFrom s q none) (s := s) rfl]

theorem placeObstructed_picker (s : State) (q : Nat) : (placeObstructed s q).picker = s.picker := rfl

/-- The picker after an obstructed place: the CARRY back issued, with the audit marked. -/
theorem placeBlocked_picker (s : State) (e : MoveEntry) (q : Nat) : (placeBlocked s e q).picker = { s.picker with
    auditPending := true, audit := s.picker.audit.map fun a => { a with markedFor := a.markedFor ++ [q] }, motion := some .carry,
    state := .moving, timer := .running (1000 * s.settings.motionLimit),
    queue := (s.picker.queue.map fun x => if x.number = e.number then { x with leg := .obstructed } else x).map
      fun x => if x.number = e.number then { x with phase := .run .carry } else x } := rfl

theorem placeBlocked_tables (s : State) (e : MoveEntry) (q : Nat) : (placeBlocked s e q).elements = (placeObstructed s q).elements
    ∧ (placeBlocked s e q).store = (placeObstructed s q).store := ⟨rfl, rfl⟩

theorem place_obstructed {s : State} {q : Nat} {e : MoveEntry} (hs : s.picker.state ≠ .stopped) (hm : s.picker.motion = some (.place q))
    (he : s.inHandMove = some e) (hleg : e.leg = .outward) (hk : e.kind ≠ .recover) (hq0 : q ≠ 0) (hq : s.installed q = true) :
    ∃ t, exec (.placeComplete true) s = .next t ∧ t.elemState q = some (.full none .noLabel) ∧ t.elemState 0 = s.elemState 0
      ∧ t.picker.auditPending = true ∧ t.picker.motion = some .carry
      ∧ t.picker.timer = .running (1000 * s.settings.motionLimit)
      ∧ (∃ x ∈ t.picker.queue, x.number = e.number ∧ x.leg = .obstructed ∧ x.phase = .run .carry)
      ∧ (∀ v ∈ t.store.volumes, v.location ≠ .element q) ∧ t.drives = s.drives ∧ t.buffer = s.buffer := by
  have hblocked : placeReported (motionReported s) e q true = placeBlocked (motionReported s) e q := by
    unfold placeReported
    rw [if_neg hk, hleg]
  have hx := exec_placeComplete hs he hm true
  rw [hblocked] at hx
  obtain ⟨helements, hstore⟩ := placeBlocked_tables (motionReported s) e q
  have hel : ∀ r, (placeBlocked (motionReported s) e q).elemState r = (setElem s q (.full none .noLabel)).elemState r := fun r =>
    (elemState_of_elements helements r).trans (placeObstructed_elemState (motionReported s) q r)
  refine ⟨_, hx, ?_, ?_, ?_, ?_, ?_, ?_, fun v hv hloc => ?_, ?_, ?_⟩
  · rw [pump_elemState, hel, setElem_elemState_same _ hq]
  · rw [pump_elemState, hel, setElem_elemState, if_neg (Ne.symm hq0)]
  · rw [pump_picker, placeBlocked_picker]
  · rw [pump_picker, placeBlocked_picker]
  · rw [pump_picker, placeBlocked_picker]
    rfl
  · rw [pump_picker, placeBlocked_picker]
    refine ⟨{ e with leg := .obstructed, phase := .run .carry }, List.mem_map.2 ⟨{ e with leg := .obstructed }, ?_, if_pos rfl⟩,
      rfl, rfl, rfl⟩
    exact List.mem_map.2 ⟨e, inHandMove_mem he, if_pos rfl⟩
  · rw [pump_store, hstore] at hv
    exact absurd (displaceFrom_oneRecordAt (motionReported s) q none v hv hloc) (by simp)
  · rw [pump_drives]; simp
  · rw [pump_buffer]; simp

/-! ### Recovery (R43) -/

theorem queueOnly_foldl {f : State → MoveEntry → State} (hf : ∀ t e, QueueOnly t (f t e)) (es : List MoveEntry) (s : State) :
    QueueOnly s (es.foldl f s) := by
  induction es generalizing s with
  | nil => exact QueueOnly.refl s
  | cons e es ih => exact (hf s e).trans (ih _)

theorem disablePicker_elemState (s : State) (q : Nat) : (disablePicker s).elemState q = s.elemState q := by
  unfold disablePicker
  dsimp only
  rw [(queueOnly_foldl (fun t e => queueOnly_removeEntry t e.number) _ _).elemState,
    (queueOnly_foldl (fun t e => queueOnly_completeMove t e .motionFault) _ _).elemState]
  exact elemState_of_elements (by simp) q

section
variable {s : State} {q : Nat} {e : MoveEntry} (hs : s.picker.state ≠ .stopped) (hm : s.picker.motion = some (.place q))
  (he : s.inHandMove = some e) (hk : e.kind = .recover) (hq0 : q ≠ 0) (hq : s.installed q = true)
include hs hm he hk hq0 hq

theorem recovery_placed {l : Option Label} {c : Condition} (h0 : s.elemState 0 = some (.full l c)) :
    ∃ t, exec (.placeComplete false) s = .next t
      ∧ ((t.elemState q).any fun x => x.isFull && decide (x.label = l)) = true ∧ t.elemState 0 = some .empty
      ∧ t.picker.recovery = none ∧ t.picker.state = .idle ∧ t.picker.auditPending = true
      ∧ (∀ x ∈ t.picker.queue, x.number ≠ e.number)
      ∧ (∀ v, s.elemVolume 0 = some v → (t.volume v.label).map (·.location) = some (.element q))
      ∧ t.drives = s.drives ∧ t.buffer = s.buffer := by
  have hdone : placeReported (motionReported s) e q false = recoveryDone (placeTaken (motionReported s) q) e := by
    unfold placeReported
    rw [if_pos hk]
    rfl
  have hx := exec_placeComplete hs he hm false
  rw [hdone, recoveryDone] at hx
  have honly := queueOnly_removeEntry (placeTaken (motionReported s) q) e.number
  obtain ⟨hat, hpick⟩ := placeTaken_states (s := motionReported s) hq0 hq h0
  have hheld : ∃ c', placedState (motionReported s) q (.full l c) = .full l c' := by
    unfold placedState
    split
    · next h =>
      obtain ⟨rfl, -⟩ := ElemState.full.inj h
      split
      · split <;> exact ⟨_, rfl⟩
      · exact ⟨_, rfl⟩
    · next h => exact ⟨c, by rw [h]⟩
    · next h => exact absurd rfl (h l c)
  obtain ⟨c', hheld⟩ := hheld
  rw [hheld] at hat
  refine ⟨_, hx, ?_, ?_, rfl, rfl, rfl, fun x hmem => ?_, fun v hv => ?_, ?_, ?_⟩
  · rw [pump_elemState, modPicker_elemState, honly.elemState, hat]
    simp [ElemState.isFull, ElemState.label]
  · rw [pump_elemState, modPicker_elemState, honly.elemState, hpick]
  · have hmem' : x ∈ (placeTaken (motionReported s) q).picker.queue.filter fun x => x.number ≠ e.number := hmem
    simpa using (List.mem_filter.1 hmem').2
  · rw [pump_volume, modPicker_volume, honly.volume]
    exact placeTaken_location (s := motionReported s) hv
  · rw [pump_drives]; simp
  · rw [pump_buffer]; simp

omit hq0 in
theorem recovery_obstructed : ∃ t, exec (.placeComplete true) s = .next t ∧ t.elemState q = some (.full none .noLabel)
      ∧ (∀ d, recoveryDest (placeObstructed (clearClaims s e.number) q) = some d → t.picker.motion = some .carry
          ∧ ∃ x ∈ t.picker.queue, x.number = e.number ∧ x.dest = some d ∧ x.phase = .run .carry)
      ∧ (recoveryDest (placeObstructed (clearClaims s e.number) q) = none →
          t.picker.state = .disabled ∧ t.picker.condition = .pickerDisabled ∧ t.picker.queue = []) := by
  have hobs : placeReported (motionReported s) e q true = recoveryObstructed (motionReported s) e q := by
    unfold placeReported
    rw [if_pos hk]
    rfl
  have hx := exec_placeComplete hs he hm true
  rw [hobs] at hx
  have hdest : recoveryDest (placeObstructed (clearClaims (motionReported s) e.number) q)
      = recoveryDest (placeObstructed (clearClaims s e.number) q) := rfl
  have hat : (placeObstructed (clearClaims (motionReported s) e.number) q).elemState q = some (.full none .noLabel) := by
    rw [placeObstructed_elemState]
    refine setElem_elemState_same _ ?_
    rw [← elemState_isSome, clearClaims_elemState, elemState_isSome]
    exact hq
  cases hd : recoveryDest (placeObstructed (clearClaims s e.number) q) with
  | some d =>
    have hnext : recoveryObstructed (motionReported s) e q = startCarry (setClaim (setClaim (modEntry
        (placeObstructed (clearClaims (motionReported s) e.number) q) e.number fun e => { e with dest := some d }) 0 e.number)
          d e.number) e := by
      rw [recoveryObstructed, hdest, hd]
    rw [hnext] at hx
    refine ⟨_, hx, ?_, fun d' hd' => ?_, by simp⟩
    · rw [pump_elemState]
      refine Eq.trans (setClaim_elemState _ d e.number q) ((setClaim_elemState _ 0 e.number q).trans hat)
    · cases hd'
      refine ⟨rfl, { e with dest := some d, phase := .run .carry }, ?_, rfl, rfl, rfl⟩
      exact List.mem_map.2 ⟨{ e with dest := some d }, List.mem_map.2 ⟨e, inHandMove_mem he, if_pos rfl⟩, if_pos rfl⟩
  | none =>
    have hnext : recoveryObstructed (motionReported s) e q
        = disablePicker (placeObstructed (clearClaims (motionReported s) e.number) q) := by
      rw [recoveryObstructed, hdest, hd]
    rw [hnext] at hx
    obtain ⟨hstate, hcond, -, -, -, hqueue, -⟩ := disablePicker_picker (placeObstructed (clearClaims (motionReported s) e.number) q)
    refine ⟨_, hx, ?_, by simp, fun _ => ?_⟩
    · rw [pump_elemState, disablePicker_elemState]
      exact hat
    · rw [pump_picker]
      exact ⟨hstate, hcond, hqueue⟩

end

/-- Settles O31. -/
theorem placeReported_holds : Obligations.PlaceReported :=
  ⟨fun _ _ _ _ hs hm he hleg hk hq0 hq h0 hdoor => place_taken hs hm he hleg hk hq0 hq h0 hdoor,
    fun _ _ _ _ _ hs hm he hleg hk hq0 hq h0 hv hdoor => place_misplaced hs hm he hleg hk hq0 hq h0 hv hdoor,
    fun _ _ _ hs hm he hleg hk hq0 hq => place_obstructed hs hm he hleg hk hq0 hq,
    fun _ _ _ hs hm he hk hq0 hq => ⟨fun _ _ _ h0 => recovery_placed hs hm he hk hq0 hq h0, recovery_obstructed hs hm he hk hq⟩⟩

end Sys2Proof.Machine
end

section
/-! PROOFS. What an audit's reading leaves (R22, R23, R47, R49). -/

namespace Sys2Proof.Machine

/-! ### The picker's fields that a reading leaves -/

/-- From s to t the picker keeps its motion, and the audit the order of its readings and questions. -/
structure ReadingOnly (s t : State) : Prop where
  picker : ∃ q n u pending owed audit, t.picker = { s.picker with
    queue := q, nextMove := n, unloadOwed := u, auditPending := pending, owedImport := owed, audit := audit }
  audit : ∀ a, s.picker.audit = some a → ∃ m n d, t.picker.audit = some { a with markedFor := m, noted := n, readDone := d }
  silent : s.picker.audit = none → t.picker.audit = none
  mailOpen : t.mailOpen = s.mailOpen
  drives : t.drives = s.drives

theorem ReadingOnly.trans {s t u : State} (h : ReadingOnly s t) (g : ReadingOnly t u) : ReadingOnly s u := by
  obtain ⟨q, n, o, p, w, x, hp⟩ := h.picker
  obtain ⟨q', n', o', p', w', x', hp'⟩ := g.picker
  refine ⟨⟨q', n', o', p', w', x', by rw [hp', hp]⟩, fun a ha => ?_, g.silent ∘ h.silent, g.mailOpen.trans h.mailOpen, g.drives.trans h.drives⟩
  obtain ⟨m, n, d, ha'⟩ := h.audit a ha
  obtain ⟨m', n', d', ha''⟩ := g.audit _ ha'
  exact ⟨m', n', d', ha''⟩

theorem ReadingOnly.of_picker {s t : State} (hp : t.picker = s.picker) (hm : t.mailOpen = s.mailOpen) (hd : t.drives = s.drives) :
    ReadingOnly s t :=
  ⟨⟨_, _, _, _, _, _, hp.trans rfl⟩, fun _ ha => ⟨_, _, _, (congrArg Picker.audit hp).trans ha⟩,
    fun ha => (congrArg Picker.audit hp).trans ha, hm, hd⟩

theorem QueueOnly.reading {s t : State} (h : QueueOnly s t) (hm : t.mailOpen = s.mailOpen) (hd : t.drives = s.drives) : ReadingOnly s t
    := by
  obtain ⟨q, n, u, hp⟩ := h.picker
  exact ⟨⟨q, n, u, _, _, _, hp⟩, fun _ ha => ⟨_, _, _, by rw [hp]; exact ha⟩, fun ha => by rw [hp]; exact ha, hm, hd⟩

theorem readingOnly_setElem (s : State) (q : Nat) (st : ElemState) : ReadingOnly s (setElem s q st) := .of_picker rfl rfl rfl

theorem readingOnly_setVolumes (s : State) (vs : List Volume) : ReadingOnly s (setVolumes s vs) := .of_picker rfl rfl rfl

theorem readingOnly_displaceFrom (s : State) (q : Nat) (keep : Option Label) : ReadingOnly s (displaceFrom s q keep) :=
  readingOnly_setVolumes s _

theorem readingOnly_markPending (s : State) (q : Nat) : ReadingOnly s (markPending s q) :=
  ⟨⟨_, _, _, _, _, _, rfl⟩, fun a ha => ⟨a.markedFor ++ [q], a.noted, a.readDone, by simp [markPending, ha]⟩,
    fun ha => by simp [markPending, ha], rfl, rfl⟩

theorem readingOnly_vacate (s : State) (old : Location) (q : Nat) : ReadingOnly s (vacate s old q) := by
  unfold vacate
  split
  · split
    · exact .of_picker rfl rfl rfl
    · exact (readingOnly_setElem s _ _).trans (readingOnly_markPending _ _)
  · exact readingOnly_setElem s _ _
  · exact .of_picker rfl rfl rfl

theorem queueOnly_queueReturn (s : State) (q : Nat) (l : Label) (owner : Option Port) : QueueOnly s (queueReturn s q l owner) := by
  unfold queueReturn
  dsimp only
  split
  · split
    · exact (queueOnly_queueOwedUnloads s).trans (queueOnly_acceptEntry _ _ _ _ _ _ _)
    · exact queueOnly_queueOwedUnloads s
  · exact queueOnly_queueOwedUnloads s

theorem readingOnly_queueReturn (s : State) (q : Nat) (l : Label) (owner : Option Port) : ReadingOnly s (queueReturn s q l owner) := by
  have hside : (queueReturn s q l owner).side = s.side := by simp
  obtain ⟨-, -, hopen, -⟩ := side_fields hside
  exact (queueOnly_queueReturn s q l owner).reading hopen (by simp)

theorem readingOnly_reconcile (s : State) (q : Nat) (read : Option Label) (done : List Nat) : ReadingOnly s (reconcile s q read done) :=
    by
  have hdisp := readingOnly_displaceFrom s q read
  unfold reconcile
  extract_lets s1
  split
  · exact hdisp.trans (readingOnly_setElem _ _ _)
  · split
    · split
      · exact hdisp.trans ((readingOnly_setVolumes s1 _).trans (readingOnly_setElem _ _ _))
      · exact hdisp.trans (readingOnly_setElem _ _ _)
    · split
      · exact hdisp.trans (readingOnly_setElem _ _ _)
      · next l _ v _ _ =>
        have hloc : ReadingOnly s (setLocation (vacate s1 v.location q) l q) :=
          (hdisp.trans (readingOnly_vacate _ _ _)).trans (.of_picker rfl rfl rfl)
        dsimp only
        split
        · exact hloc.trans (readingOnly_setElem _ _ _)
        · exact (hloc.trans (readingOnly_setElem _ _ _)).trans (readingOnly_queueReturn _ _ _ _)

theorem emptied_rest (s : State) (q : Nat) (byAudit : Bool) : (emptied s q byAudit).picker = s.picker
    ∧ (emptied s q byAudit).mailOpen = s.mailOpen ∧ (emptied s q byAudit).drives = s.drives := by
  have hframe : (emptied s q byAudit).side = s.side ∧ (emptied s q byAudit).picker = s.picker ∧ (emptied s q byAudit).drives = s.drives
      := by
    unfold emptied
    split
    · simp
    · simp [lost, unplace]
  obtain ⟨hside, hp, hd⟩ := hframe
  obtain ⟨-, -, hopen, -⟩ := side_fields hside
  exact ⟨hp, hopen, hd⟩

theorem readingOnly_foundEmpty (s : State) (q : Nat) (byAudit : Bool) : ReadingOnly s (foundEmpty s q byAudit) := by
  obtain ⟨hp, hm, hd⟩ := emptied_rest s q byAudit
  rw [foundEmpty_eq]
  exact (ReadingOnly.of_picker hp hm hd).trans (readingOnly_setElem _ _ _)

/-- The state in which a reading is taken: the slot read, and any mark set for it cleared. -/
def slotRead (s : State) (a : AuditRun) (q : Nat) : State := (motionReported s).modPicker fun k => { k with
  audit := some { a with readDone := a.readDone ++ [q], markedFor := a.markedFor.filter fun x => x ≠ q } }

/-- A slot noted for the IMPORT, or not. -/
def notedAs (b : Bool) (q : Nat) (read : Option Label) (s : State) : State :=
  if b then s.modPicker fun k => { k with
    audit := k.audit.map fun x => { x with noted := x.noted ++ [q] }, owedImport := k.owedImport.filter fun l => some l ≠ read }
  else s

theorem readingOnly_notedAs (b : Bool) (q : Nat) (read : Option Label) (s : State) : ReadingOnly s (notedAs b q read s) := by
  unfold notedAs
  split
  · exact ⟨⟨_, _, _, _, _, _, rfl⟩, fun a ha => ⟨a.markedFor, a.noted ++ [q], a.readDone, by simp [ha]⟩,
      fun ha => by simp [ha], rfl, rfl⟩
  · exact .of_picker rfl rfl rfl

theorem notedAs_same (b : Bool) (q : Nat) (read : Option Label) (s : State) : (notedAs b q read s).elements = s.elements
    ∧ (notedAs b q read s).store = s.store := by
  unfold notedAs
  split <;> exact ⟨rfl, rfl⟩

section
variable (s : State) (a : AuditRun) (q : Nat)

theorem takeReading_empty : takeReading (motionReported s) a q .empty = foundEmpty (slotRead s a q) q true := rfl

theorem takeReading_noLabel : takeReading (motionReported s) a q .noLabel
    = setElem (displaceFrom (slotRead s a q) q none) q (.full none .noLabel) := rfl

theorem takeReading_label (l : Label) : takeReading (motionReported s) a q (.label l)
    = notedAs (notable (motionReported s) q (some l)) q (some l) (reconcile (slotRead s a q) q (some l) a.readDone) := rfl

/-- The audit as a reading leaves it, with its order of readings and its questions. -/
theorem takeReading_kept (reading : Reading) : ReadingOnly (slotRead s a q) (takeReading (motionReported s) a q reading) := by
  cases reading with
  | empty => exact readingOnly_foundEmpty _ _ _
  | noLabel => exact (readingOnly_displaceFrom (slotRead s a q) q none).trans (readingOnly_setElem _ _ _)
  | label l =>
    rw [takeReading_label]
    exact (readingOnly_reconcile _ _ _ _).trans (readingOnly_notedAs _ _ _ _)

end

end Sys2Proof.Machine
end

section
/-! PROOFS. The audits' steps (R47): the beginning after the homing, a reading with slots left, and the reading of the last slot. -/

namespace Sys2Proof.Machine

/-! ### The next reading -/

section
variable {s : State} {q : Nat} {a : AuditRun} (hs : s.picker.state ≠ .stopped) (hm : s.picker.motion = some (.reading q))
  (ha : s.picker.audit = some a)
include hs hm ha

theorem exec_auditSlotReading (reading : Reading) : exec (.auditSlotReading reading) s
    = .next (pump (afterAudit (auditNext (takeReading (motionReported s) a q reading)))) := by
  change execAuditSlotReading reading s = _
  rw [execAuditSlotReading, runningMotion_some hs hm, ha]
  rfl

end

/-- The audit after a reading: the slots and the bays it has still to ask as they were. -/
theorem takeReading_audit (s : State) (a : AuditRun) (q : Nat) (reading : Reading) :
    ∃ m n d, (takeReading (motionReported s) a q reading).picker.audit = some { a with
      markedFor := m, noted := n, readDone := d } :=
  (takeReading_kept s a q reading).audit
    { a with readDone := a.readDone ++ [q], markedFor := a.markedFor.filter fun x => x ≠ q } rfl

theorem slotsLeft_takeReading (s : State) (a : AuditRun) (q : Nat) (reading : Reading) {x : AuditRun} (hx : x.slots = a.slots) :
    slotsLeft (takeReading (motionReported s) a q reading) x = slotsLeft s a := by
  have hopen : (takeReading (motionReported s) a q reading).mailOpen = s.mailOpen := (takeReading_kept s a q reading).mailOpen
  rw [slotsLeft, slotsLeft, hx, hopen]

theorem takeReading_settings (s : State) (a : AuditRun) (q : Nat) (reading : Reading) :
    (takeReading (motionReported s) a q reading).settings = s.settings :=
  (ranges_takeReading (ranges_motionReported (Ranges.refl s))).settings

theorem auditNext_reading {u : State} {x : AuditRun} {r : Nat} {rest : List Nat} (hx : u.picker.audit = some x)
    (hl : slotsLeft u x = r :: rest) : afterAudit (auditNext u)
      = issueMotion (u.modPicker fun k => { k with audit := some { x with slots := rest } }) (.reading r) .auditing := by
  have hnext : auditNext u = issueMotion (u.modPicker fun k => { k with audit := some { x with slots := rest } }) (.reading r) .auditing
      := by
    rw [auditNext, hx]
    dsimp only
    rw [hl]
  rw [hnext]
  rfl

/-- With a slot left the next one is read, and all but the picker stands as the reading left it. -/
theorem exec_reading_next {s : State} {q r : Nat} {a : AuditRun} {rest : List Nat} (hs : s.picker.state ≠ .stopped)
    (hm : s.picker.motion = some (.reading q)) (ha : s.picker.audit = some a) (hl : slotsLeft s a = r :: rest) (reading : Reading) :
    ∃ x, exec (.auditSlotReading reading) s = .next (pump (issueMotion
      ((takeReading (motionReported s) a q reading).modPicker fun k => { k with audit := x }) (.reading r) .auditing)) := by
  obtain ⟨m, n, d, haudit⟩ := takeReading_audit s a q reading
  rw [exec_auditSlotReading hs hm ha reading, auditNext_reading haudit ((slotsLeft_takeReading s a q reading rfl).trans hl)]
  exact ⟨_, rfl⟩

theorem readingIssued (u : State) (x : Option AuditRun) (r : Nat) :
    (pump (issueMotion (u.modPicker fun k => { k with audit := x }) (.reading r) .auditing)).picker.motion = some (.reading r)
    ∧ (pump (issueMotion (u.modPicker fun k => { k with audit := x }) (.reading r) .auditing)).picker.timer
        = .running (1000 * u.settings.motionLimit)
    ∧ (pump (issueMotion (u.modPicker fun k => { k with audit := x }) (.reading r) .auditing)).elements = u.elements
    ∧ (pump (issueMotion (u.modPicker fun k => { k with audit := x }) (.reading r) .auditing)).store = u.store
    ∧ (pump (issueMotion (u.modPicker fun k => { k with audit := x }) (.reading r) .auditing)).drives = u.drives := by
  simp [issueMotion, State.settings]

/-- What every reading with a slot left leaves: the next reading issued, the drives and the buffer as they were. -/
theorem reading_next {s : State} {q r : Nat} {a : AuditRun} {rest : List Nat} (hs : s.picker.state ≠ .stopped)
    (hm : s.picker.motion = some (.reading q)) (ha : s.picker.audit = some a) (hl : slotsLeft s a = r :: rest) (reading : Reading) :
    ∃ t, exec (.auditSlotReading reading) s = .next t ∧ t.picker.motion = some (.reading r)
      ∧ t.picker.timer = .running (1000 * s.settings.motionLimit) ∧ t.elements = (takeReading (motionReported s) a q reading).elements
      ∧ t.store = (takeReading (motionReported s) a q reading).store ∧ t.drives = s.drives ∧ t.buffer = s.buffer
      ∧ t.settings = s.settings := by
  obtain ⟨x, hx⟩ := exec_reading_next hs hm ha hl reading
  have hleaves := exec_leaves _ s _ hx
  have hbuffer := congrArg State.buffer hleaves
  have hset := exec_settings hx (by simp) (by simp)
  have hdrives : (takeReading (motionReported s) a q reading).drives = s.drives := (takeReading_kept s a q reading).drives
  obtain ⟨hmotion, htimer, hel, hst, hdr⟩ := readingIssued (takeReading (motionReported s) a q reading) x r
  exact ⟨_, hx, hmotion, htimer.trans (by rw [takeReading_settings]), hel, hst, hdr.trans hdrives, hbuffer, hset⟩

/-! ### An empty slot (R23) -/

/-- The records of a list of labels leave their places, for a location that meets P; no other record comes to an element. -/
structure Displaces (P : Location → Prop) (ls : List Label) (g : Volume → Volume) : Prop where
  label : ∀ v, (g v).label = v.label
  moved : ∀ v, v.label ∈ ls → P (g v).location
  kept : ∀ v, P v.location → P (g v).location
  stays : ∀ v q, (g v).location = .element q → v.location = .element q ∧ v.label ∉ ls

theorem Displaces.nil (P : Location → Prop) : Displaces P [] id :=
  ⟨fun _ => rfl, fun v h => by simp at h, fun _ h => h, fun _ _ h => ⟨h, by simp⟩⟩

theorem Displaces.cons {P : Location → Prop} {l : Label} {ls : List Label} {f g : Volume → Volume} (hf : Displaces P [l] f)
    (hg : Displaces P ls g) : Displaces P (l :: ls) (g ∘ f) := by
  refine ⟨fun v => (hg.label _).trans (hf.label v), fun v hv => ?_, fun v h => hg.kept _ (hf.kept v h), fun v q h => ?_⟩
  · rcases List.mem_cons.1 hv with hl | hin
    · exact hg.kept _ (hf.moved v (by simp [hl]))
    · exact hg.moved (f v) (by rw [hf.label]; exact hin)
  · obtain ⟨h1, hn1⟩ := hg.stays _ q h
    obtain ⟨h2, hn2⟩ := hf.stays v q h1
    rw [hf.label] at hn1
    refine ⟨h2, fun hmem => ?_⟩
    rcases List.mem_cons.1 hmem with hl | hin
    · exact hn2 (by simp [hl])
    · exact hn1 hin

theorem displaces_foldl {P : Location → Prop} {f : State → Label → State}
    (h : ∀ s l, ∃ g, Displaces P [l] g ∧ (f s l).store.volumes = s.store.volumes.map g) (ls : List Label) (s : State) :
    ∃ g, Displaces P ls g ∧ (ls.foldl f s).store.volumes = s.store.volumes.map g := by
  induction ls generalizing s with
  | nil => exact ⟨id, Displaces.nil P, (List.map_id _).symm⟩
  | cons l ls ih =>
    obtain ⟨g, hg, hv⟩ := h s l
    obtain ⟨g', hg', hv'⟩ := ih (f s l)
    refine ⟨g' ∘ g, hg.cons hg', ?_⟩
    rw [List.foldl_cons, hv', hv, List.map_map]

def Location.isOutside (x : Location) : Prop := ∃ n, x = .outside n

theorem displaces_unplace (s : State) (l : Label) :
    ∃ g, Displaces (· = .unknown) [l] g ∧ (unplace s l).store.volumes = s.store.volumes.map g := by
  refine ⟨fun v => if v.label = l then { v with location := .unknown } else v, ⟨fun v => ?_, fun v hv => ?_, fun v h => ?_,
    fun v q h => ?_⟩, rfl⟩
  · split <;> rfl
  · simp [List.mem_singleton.1 hv]
  · split
    · rfl
    · exact h
  · split at h
    · cases h
    · next hl => exact ⟨h, by simpa using hl⟩

/-- The renumbering of the exports keeps each record inside or outside. -/
theorem renumberExports_volumes (s : State) : ∃ g : Volume → Volume, (renumberExports s).store.volumes = s.store.volumes.map g
    ∧ ∀ v, (g v).label = v.label ∧ (v.location.isOutside → (g v).location.isOutside)
      ∧ (∀ q, (g v).location = .element q → v.location = .element q) := by
  unfold renumberExports
  split
  · exact ⟨id, (List.map_id _).symm, fun v => ⟨rfl, id, fun _ => id⟩⟩
  · refine ⟨_, rfl, fun v => ?_⟩
    split
    · exact ⟨rfl, fun _ => ⟨_, rfl⟩, fun q h => by cases h⟩
    · exact ⟨rfl, id, fun _ => id⟩

theorem displaces_exportVolume (s : State) (l : Label) :
    ∃ g, Displaces Location.isOutside [l] g ∧ (exportVolume s l).store.volumes = s.store.volumes.map g := by
  obtain ⟨g, hv, hg⟩ := renumberExports_volumes s
  refine ⟨(fun v => if v.label = l then { v with location := .outside (renumberExports s).store.exportCounter } else v) ∘ g,
    ⟨fun v => ?_, fun v hl => ?_, fun v h => ?_, fun v q h => ?_⟩, ?_⟩
  · dsimp only [Function.comp_apply]
    split <;> exact (hg v).1
  · have hl' : (g v).label = l := by rw [(hg v).1]; exact List.mem_singleton.1 hl
    simp only [Function.comp_apply, hl', if_true]
    exact ⟨_, rfl⟩
  · dsimp only [Function.comp_apply]
    split
    · exact ⟨_, rfl⟩
    · exact (hg v).2.1 h
  · dsimp only [Function.comp_apply] at h
    split at h
    · cases h
    · next hl => exact ⟨(hg v).2.2 q h, by rw [(hg v).1] at hl; simpa using hl⟩
  · rw [← List.map_map, ← hv]
    rfl

/-- Where the records of an element found empty go. -/
def emptiedTo (q : Nat) (byAudit : Bool) (x : Location) : Prop := if byAudit && isMail q then x.isOutside else x = .unknown

theorem emptied_displaces (s : State) (q : Nat) (byAudit : Bool) : ∃ g, Displaces (emptiedTo q byAudit) (emptiedLabels s q) g
    ∧ (emptied s q byAudit).store.volumes = s.store.volumes.map g := by
  unfold emptied
  cases h : byAudit && isMail q with
  | true =>
    have hP : emptiedTo q byAudit = Location.isOutside := funext fun x => by rw [emptiedTo, h, if_pos rfl]
    rw [hP, if_pos rfl]
    exact displaces_foldl displaces_exportVolume _ s
  | false =>
    have hP : emptiedTo q byAudit = (· = .unknown) := funext fun x => by rw [emptiedTo, h]; simp
    rw [hP, if_neg Bool.false_ne_true]
    exact displaces_foldl displaces_unplace _ s

theorem foundEmpty_moved {s : State} {q : Nat} {v : Volume} (byAudit : Bool) (hv : v ∈ s.store.volumes)
    (h : v.location = .element q ∨ (v.location = .unknown ∧ (s.elemState q).bind (·.anyLabel) = some v.label)) :
    ∃ w, (foundEmpty s q byAudit).volume v.label = some w ∧ emptiedTo q byAudit w.location := by
  obtain ⟨g, hg, hvol⟩ := emptied_displaces s q byAudit
  obtain ⟨w, hw⟩ := volume_isSome hv
  refine ⟨g w, ?_, hg.moved w ?_⟩
  · rw [foundEmpty_eq, setElem_volume, volume_map hvol hg.label, hw]
    rfl
  · rw [volume_label hw]
    exact mem_emptiedLabels hv h

/-- No record is located at an element found empty. -/
theorem foundEmpty_noRecord (s : State) (q : Nat) (byAudit : Bool) : ∀ v ∈ (foundEmpty s q byAudit).store.volumes,
    v.location ≠ .element q := by
  obtain ⟨g, hg, hvol⟩ := emptied_displaces s q byAudit
  intro v hv hloc
  rw [foundEmpty_eq, setElem_store, hvol] at hv
  obtain ⟨w, hw, rfl⟩ := List.mem_map.1 hv
  obtain ⟨hat, hnot⟩ := hg.stays w q hloc
  exact hnot (mem_emptiedLabels hw (.inl hat))

/-! ### A label (R22) -/

theorem find_insertVolume {v : Volume} {vs : List Volume} (h : vs.find? (fun w => w.label = v.label) = none) :
    (insertVolume v vs).find? (fun w => w.label = v.label) = some v := by
  induction vs with
  | nil => simp [insertVolume]
  | cons w rest ih =>
    unfold insertVolume
    split
    · simp
    · have hw : w.label ≠ v.label := by simpa using List.find?_eq_none.1 h w (by simp)
      rw [List.find?_cons_of_neg (by simpa using hw)]
      refine ih ?_
      rw [List.find?_cons_of_neg (by simpa using hw)] at h
      exact h

/-- A label without a record gets one (R13). -/
theorem reconcile_new {s : State} {q : Nat} {l : Label} (done : List Nat) (h : s.volume l = none) (hlen : s.store.volumes.length < 64) :
    ∃ u : State, reconcile s q (some l) done = setElem u q (.full (some l) .normal) ∧ u.elements = s.elements
      ∧ u.volume l = some (newVolume l q) := by
  have hnone : (displaceFrom s q (some l)).volume l = none := by rw [displaceFrom_volume, h]; rfl
  have hcreate : createVolume (displaceFrom s q (some l)).store.volumes l q
      = some (insertVolume (newVolume l q) (displaceFrom s q (some l)).store.volumes) := by
    refine if_pos ?_
    have hl : (displaceFrom s q (some l)).store.volumes.length = s.store.volumes.length := List.length_map _
    rw [hl]
    exact hlen
  refine ⟨setVolumes (displaceFrom s q (some l)) (insertVolume (newVolume l q) (displaceFrom s q (some l)).store.volumes), ?_, rfl, ?_⟩
  · unfold reconcile
    dsimp only
    rw [hnone]
    dsimp only
    rw [hcreate]
  · exact find_insertVolume (v := newVolume l q) hnone

theorem setLocation_location {s : State} {l : Label} {v : Volume} (q : Nat) (h : s.volume l = some v) :
    ((setLocation s l q).volume l).map (·.location) = some (.element q) :=
  modVolume_location h (fun _ => rfl) fun _ => rfl

theorem visibleToOwner_congr {s t : State} (he : t.elements = s.elements) (hs : t.settings = s.settings) (o : Option Port) (q : Nat) :
    t.visibleToOwner o q = s.visibleToOwner o q := by
  have hi : t.installed q = s.installed q := by rw [State.installed, State.installed, element_of_elements he]
  cases o <;> simp [State.visibleToOwner, State.visible, hi, hs]

/-- A label whose record has no other place: it stands here, NORMAL where its owner sees the slot, else MISPLACED. -/
theorem reconcile_known {s : State} {q : Nat} {l : Label} {v : Volume} (done : List Nat) (hv : s.volume l = some v)
    (hloc : v.location = .unknown ∨ v.location = .element q) (hq : s.installed q = true) :
    (reconcile s q (some l) done).elemState q
      = some (.full (some l) (if v.owner.isNone || s.visibleToOwner v.owner q then .normal else .misplaced))
    ∧ ((reconcile s q (some l) done).volume l).map (·.location) = some (.element q) := by
  have hl : v.label = l := volume_label hv
  have hkept : (displaceFrom s q (some l)).volume l = some v := by
    rw [displaceFrom_volume, hv]
    simp [hl]
  have helse : standsElsewhere (displaceFrom s q (some l)) v q done = false := by
    unfold standsElsewhere
    rcases hloc with h | h <;> simp [h]
  have hvac : vacate (displaceFrom s q (some l)) v.location q = displaceFrom s q (some l) := by
    rcases hloc with h | h <;> simp [h, vacate]
  have hset : (setLocation (displaceFrom s q (some l)) l q).settings = s.settings := rfl
  have hvis := visibleToOwner_congr (t := setLocation (displaceFrom s q (some l)) l q) (s := s) rfl hset v.owner q
  have hat := setLocation_location q hkept
  have hq' : (setLocation (displaceFrom s q (some l)) l q).installed q = true := hq
  unfold reconcile
  dsimp only
  rw [hkept]
  dsimp only
  rw [if_neg (by simp [helse]), hvac, hvis, Bool.or_comm]
  cases hc : v.owner.isNone || s.visibleToOwner v.owner q with
  | true =>
    rw [if_pos rfl, if_pos rfl, setElem_elemState_same _ hq']
    exact ⟨rfl, hat⟩
  | false =>
    rw [if_neg Bool.false_ne_true, if_neg Bool.false_ne_true, (queueOnly_queueReturn _ _ _ _).elemState,
      (queueOnly_queueReturn _ _ _ _).volume, setElem_elemState_same _ hq']
    exact ⟨rfl, hat⟩

/-! ### The four readings -/

section
variable (s : State) (a : AuditRun) (q : Nat)

theorem reading_empty_element (r : Nat) :
    (takeReading (motionReported s) a q .empty).element r = (setElem s q .empty).element r := by
  rw [takeReading_empty, foundEmpty_element]
  rfl

theorem reading_noLabel_element (r : Nat) :
    (takeReading (motionReported s) a q .noLabel).element r = (setElem s q (.full none .noLabel)).element r := by
  rw [takeReading_noLabel]
  rfl

theorem reading_label_tables (l : Label) :
    (takeReading (motionReported s) a q (.label l)).elements = (reconcile (slotRead s a q) q (some l) a.readDone).elements
    ∧ (takeReading (motionReported s) a q (.label l)).store = (reconcile (slotRead s a q) q (some l) a.readDone).store := by
  rw [takeReading_label]
  exact notedAs_same _ _ _ _

theorem reading_new {l : Label} (h : s.volume l = none) (hlen : s.store.volumes.length < 64) :
    (∀ r, (takeReading (motionReported s) a q (.label l)).element r = (setElem s q (.full (some l) .normal)).element r)
    ∧ (takeReading (motionReported s) a q (.label l)).volume l = some (newVolume l q) := by
  obtain ⟨hel, hst⟩ := reading_label_tables s a q l
  obtain ⟨u, hu, hue, huv⟩ := reconcile_new (s := slotRead s a q) (q := q) a.readDone h hlen
  rw [hu] at hel hst
  refine ⟨fun r => ?_, ?_⟩
  · rw [element_of_elements hel, setElem_element, setElem_element, element_of_elements hue]
    rfl
  · rw [volume_of_store hst, setElem_volume, huv]

theorem reading_known {l : Label} {v : Volume} (hv : s.volume l = some v) (hloc : v.location = .unknown ∨ v.location = .element q)
    (hq : s.installed q = true) : (takeReading (motionReported s) a q (.label l)).elemState q
      = some (.full (some l) (if v.owner.isNone || s.visibleToOwner v.owner q then .normal else .misplaced))
    ∧ ((takeReading (motionReported s) a q (.label l)).volume l).map (·.location) = some (.element q) := by
  obtain ⟨hel, hst⟩ := reading_label_tables s a q l
  obtain ⟨h1, h2⟩ := reconcile_known (s := slotRead s a q) a.readDone hv hloc hq
  rw [elemState_of_elements hel, volume_of_store hst]
  exact ⟨h1, h2⟩

end

section
variable {s : State} {q r : Nat} {a : AuditRun} {rest : List Nat} (hs : s.picker.state ≠ .stopped)
  (hm : s.picker.motion = some (.reading q)) (ha : s.picker.audit = some a) (hl : slotsLeft s a = r :: rest) (hq : s.installed q = true)
include hs hm ha hl hq

theorem audit_reads_empty : ∃ t, exec (.auditSlotReading .empty) s = .next t ∧ t.elemState q = some .empty
      ∧ t.picker.motion = some (.reading r)
      ∧ t.picker.timer = .running (1000 * s.settings.motionLimit) ∧ (∀ x, x ≠ q → t.element x = s.element x)
      ∧ (∀ v ∈ t.store.volumes, v.location ≠ .element q)
      ∧ (∀ v ∈ s.store.volumes, v.location = .element q
            ∨ (v.location = .unknown ∧ (s.elemState q).bind (·.anyLabel) = some v.label) →
          (isMail q = false → (t.volume v.label).map (·.location) = some .unknown)
          ∧ (isMail q = true → ∃ n, (t.volume v.label).map (·.location) = some (.outside n)))
      ∧ t.drives = s.drives ∧ t.buffer = s.buffer ∧ t.settings = s.settings := by
  obtain ⟨t, hx, hmotion, htimer, hel, hst, hdr, hbuf, hset⟩ := reading_next hs hm ha hl .empty
  have helement : ∀ x, t.element x = (setElem s q .empty).element x := fun x =>
    (element_of_elements hel x).trans (reading_empty_element s a q x)
  refine ⟨t, hx, ?_, hmotion, htimer, fun x hne => ?_, ?_, fun v hv h => ?_, hdr, hbuf, hset⟩
  · rw [State.elemState, helement]
    exact setElem_elemState_same _ hq
  · rw [helement, setElem_element, if_neg hne]
  · rw [hst, takeReading_empty]
    exact foundEmpty_noRecord _ q true
  · obtain ⟨w, hw, hto⟩ := foundEmpty_moved (s := slotRead s a q) (q := q) true hv h
    have hvol : t.volume v.label = some w := (volume_of_store hst v.label).trans hw
    rw [hvol]
    refine ⟨fun hmail => ?_, fun hmail => ?_⟩
    · rw [emptiedTo, hmail] at hto
      exact congrArg some hto
    · rw [emptiedTo, hmail] at hto
      obtain ⟨n, hn⟩ := hto
      exact ⟨n, congrArg some hn⟩

theorem audit_reads_noLabel : ∃ t, exec (.auditSlotReading .noLabel) s = .next t ∧ t.elemState q = some (.full none .noLabel)
      ∧ t.picker.motion = some (.reading r) ∧ (∀ x, x ≠ q → t.element x = s.element x)
      ∧ (∀ v ∈ t.store.volumes, v.location ≠ .element q) ∧ t.drives = s.drives ∧ t.buffer = s.buffer := by
  obtain ⟨t, hx, hmotion, -, hel, hst, hdr, hbuf, -⟩ := reading_next hs hm ha hl .noLabel
  have helement : ∀ x, t.element x = (setElem s q (.full none .noLabel)).element x := fun x =>
    (element_of_elements hel x).trans (reading_noLabel_element s a q x)
  refine ⟨t, hx, ?_, hmotion, fun x hne => ?_, fun v hv hloc => ?_, hdr, hbuf⟩
  · rw [State.elemState, helement]
    exact setElem_elemState_same _ hq
  · rw [helement, setElem_element, if_neg hne]
  · rw [hst, takeReading_noLabel, setElem_store] at hv
    exact absurd (displaceFrom_oneRecordAt (slotRead s a q) q none v hv hloc) (by simp)

theorem audit_reads_new (l : Label) (hv : s.volume l = none) (hlen : s.store.volumes.length < 64) :
    ∃ t, exec (.auditSlotReading (.label l)) s = .next t ∧ t.elemState q = some (.full (some l) .normal)
        ∧ t.picker.motion = some (.reading r) ∧ (∀ x, x ≠ q → t.element x = s.element x)
        ∧ t.volume l = some (newVolume l q) ∧ t.drives = s.drives ∧ t.buffer = s.buffer := by
  obtain ⟨t, hx, hmotion, -, hel, hst, hdr, hbuf, -⟩ := reading_next hs hm ha hl (.label l)
  obtain ⟨hnew, hvol⟩ := reading_new s a q hv hlen
  have helement : ∀ x, t.element x = (setElem s q (.full (some l) .normal)).element x := fun x =>
    (element_of_elements hel x).trans (hnew x)
  refine ⟨t, hx, ?_, hmotion, fun x hne => ?_, (volume_of_store hst l).trans hvol, hdr, hbuf⟩
  · rw [State.elemState, helement]
    exact setElem_elemState_same _ hq
  · rw [helement, setElem_element, if_neg hne]

theorem audit_reads_known (l : Label) (v : Volume) (hv : s.volume l = some v)
    (hloc : v.location = .unknown ∨ v.location = .element q) : ∃ t, exec (.auditSlotReading (.label l)) s = .next t
        ∧ t.elemState q
          = some (.full (some l) (if v.owner.isNone || s.visibleToOwner v.owner q then .normal else .misplaced))
        ∧ (t.volume l).map (·.location) = some (.element q) ∧ t.picker.motion = some (.reading r)
        ∧ t.drives = s.drives ∧ t.buffer = s.buffer := by
  obtain ⟨t, hx, hmotion, -, hel, hst, hdr, hbuf, -⟩ := reading_next hs hm ha hl (.label l)
  obtain ⟨hat, hvol⟩ := reading_known s a q hv hloc hq
  exact ⟨t, hx, (elemState_of_elements hel q).trans hat, by rw [volume_of_store hst, hvol], hmotion, hdr, hbuf⟩

end

/-! ### The last slot -/

/-- A bay that no move waits for, that owes nothing and holds nothing, is asked. -/
theorem bayAnswer_query {u : State} {b : Bay} (startup : Bool) (hwait : bayWaits u b = false) (howes : (u.drive b).owes = false)
    (hempty : (u.drive b).state = .empty) : bayAnswer u b startup = .query := by
  simp [bayAnswer, hwait, howes, hempty]

theorem askBays_query {x : AuditRun} {w : State} {b : Bay} {rest : List Bay} (hb : x.bays = b :: rest)
    (hq : bayAnswer w b x.startup = .query) : askBays x x.bays w = issueQuery (w.modPicker fun k => { k with
      audit := k.audit.map fun a => { a with bays := rest, asking := some b } }) b := by
  rw [hb, askBays, hq]

theorem auditNext_asks {u : State} {x : AuditRun} (hx : u.picker.audit = some x) (hl : slotsLeft u x = []) (hfull : x.full = true)
    (hbays : x.bays = [.d0, .d1]) (hwait : bayWaits u .d0 = false) (howes : (u.drive .d0).owes = false)
    (hempty : (u.drive .d0).state = .empty) : ∃ y, afterAudit (auditNext u)
      = issueQuery (u.modPicker fun k => { k with audit := some y, state := .auditing }) .d0 := by
  have hquery : bayAnswer (u.modPicker fun k => { k with audit := some { x with slots := [] }, state := .auditing }) .d0 x.startup =
      .query :=
    bayAnswer_query x.startup hwait howes hempty
  have hnext : auditNext u = issueQuery (u.modPicker fun k => { k with
      audit := some { x with slots := [], bays := [.d1], asking := some .d0 }, state := .auditing }) .d0 := by
    rw [auditNext, hx]
    dsimp only
    rw [hl]
    dsimp only
    rw [if_pos hfull, askBays_query hbays hquery]
    rfl
  rw [hnext]
  exact ⟨_, rfl⟩

theorem importNotice_picker (s : State) (a : AuditRun) : (importNotice s a).picker = s.picker := by simp

theorem completeMail_picker (u : State) (x : AuditRun) : ∃ q n o w, (completeMail u x).picker = { u.picker with
    audit := none, state := .idle, motion := none, timer := .stopped, owedImport := w, queue := q, nextMove := n, unloadOwed := o } := by
  obtain ⟨q, n, o, hp⟩ := (queueOnly_queueOwedUnloads (importNotice (u.modPicker fun k =>
    { k with audit := none, state := .idle, motion := none, timer := .stopped, owedImport := importOwed k.owedImport x }) x)).picker
  rw [importNotice_picker] at hp
  exact ⟨q, n, o, importOwed u.picker.owedImport x, hp⟩

theorem completeMail_elemState (u : State) (x : AuditRun) (q : Nat) : (completeMail u x).elemState q = u.elemState q := by
  have h : ∀ v : State, (importNotice v x).elements = v.elements := fun v => by simp
  unfold completeMail
  dsimp only
  rw [(queueOnly_queueOwedUnloads _).elemState, elemState_of_elements (h _)]
  rfl

theorem auditNext_mailDone {u : State} {x : AuditRun} (hx : u.picker.audit = some x) (hl : slotsLeft u x = []) (hfull : x.full = false)
    (hheld : u.picker.held = none) : afterAudit (auditNext u) = completeMail u x := by
  have hnext : auditNext u = completeMail u x := by
    rw [auditNext, hx]
    dsimp only
    rw [hl]
    dsimp only
    rw [if_neg (by simp [hfull])]
  obtain ⟨q, n, o, w, hp⟩ := completeMail_picker u x
  rw [hnext, afterAudit, if_neg]
  rw [hp]
  simp [hheld]

theorem bayWaits_setElem (s : State) (q : Nat) (st : ElemState) (b : Bay) : bayWaits (setElem s q st) b = bayWaits s b := by
  have h : ∀ n, ((setElem s q st).element (bayPea b)).any (fun x => decide (x.claim = some n))
      = (s.element (bayPea b)).any fun x => decide (x.claim = some n) := by
    intro n
    rw [setElem_element]
    split <;> cases s.element (bayPea b) <;> rfl
  simp only [bayWaits, h, setElem_picker]

/-- What a reading of NO LABEL leaves. -/
theorem reading_noLabel (s : State) (a : AuditRun) (q : Nat) :
    (takeReading (motionReported s) a q .noLabel).picker = { s.picker with
      motion := none, timer := .stopped,
      audit := some { a with readDone := a.readDone ++ [q], markedFor := a.markedFor.filter fun x => x ≠ q } }
    ∧ (takeReading (motionReported s) a q .noLabel).drives = s.drives ∧ (takeReading (motionReported s) a q .noLabel).buffer = s.buffer
    ∧ (∀ b, bayWaits (takeReading (motionReported s) a q .noLabel) b = bayWaits s b)
    ∧ (s.installed q = true → (takeReading (motionReported s) a q .noLabel).elemState q = some (.full none .noLabel)) := by
  refine ⟨rfl, rfl, rfl, fun b => bayWaits_setElem _ q _ b, fun hq => ?_⟩
  rw [State.elemState, reading_noLabel_element]
  exact setElem_elemState_same _ hq

section
variable {s : State} {q : Nat} {a : AuditRun} (hs : s.picker.state ≠ .stopped) (hm : s.picker.motion = some (.reading q))
  (ha : s.picker.audit = some a) (hl : slotsLeft s a = []) (hq : s.installed q = true)
include hs hm ha hl hq

/-- A full audit that has read its last slot asks D0. -/
theorem audit_asks (hfull : a.full = true) (hbays : a.bays = [.d0, .d1]) (hwait : bayWaits s .d0 = false)
    (howes : (s.drive .d0).owes = false) (hempty : (s.drive .d0).state = .empty) :
    ∃ t, exec (.auditSlotReading .noLabel) s = .next t ∧ t.elemState q = some (.full none .noLabel)
        ∧ t.picker.state = .auditing ∧ t.picker.motion = none ∧ t.picker.timer = .stopped
        ∧ (t.drive .d0).order = some .query ∧ (t.drive .d0).timer = .running 600000 ∧ (t.drive .d0).state = .empty
        ∧ t.drive .d1 = s.drive .d1 ∧ t.buffer = s.buffer := by
  have hx := exec_auditSlotReading hs hm ha .noLabel
  obtain ⟨hpicker, hdrives, hbuf, hwaits, hat⟩ := reading_noLabel s a q
  set u := takeReading (motionReported s) a q .noLabel
  have hd0 : u.drive .d0 = s.drive .d0 := congrArg (PerBay.get · .d0) hdrives
  have hd1 : u.drive .d1 = s.drive .d1 := congrArg (PerBay.get · .d1) hdrives
  obtain ⟨y, hask⟩ := auditNext_asks (u := u)
    (x := { a with readDone := a.readDone ++ [q], markedFor := a.markedFor.filter fun x => x ≠ q }) (by rw [hpicker])
        ((slotsLeft_takeReading s a q .noLabel rfl).trans hl) hfull hbays
    ((hwaits .d0).trans hwait) (by rw [hd0]; exact howes) (by rw [hd0]; exact hempty)
  rw [hask] at hx
  have hnew : ((s.drive .d0).issue .query (s.drive .d0).state).timer = .running 600000 := by
    simp [Drive.issue, Drive.timerAtIssue, howes, Config.replyLimitMs]
  have hnone : (s.drive .d0).order ≠ some .query := by
    intro h
    simp [Drive.owes, h] at howes
  refine ⟨_, hx, ?_, ?_, ?_, ?_, ?_, ?_, ?_, ?_, ?_⟩
  · rw [pump_elemState, issueQuery, modDrive_elemState, modPicker_elemState]
    exact hat hq
  · rw [pump_picker, issueQuery, State.modDrive_picker, State.modPicker_picker]
  · rw [pump_picker, issueQuery, State.modDrive_picker, State.modPicker_picker, hpicker]
  · rw [pump_picker, issueQuery, State.modDrive_picker, State.modPicker_picker, hpicker]
  · rw [pump_drive, issueQuery, modDrive_at, if_pos rfl, State.modPicker_read_drive, hd0, if_neg hnone]
    rfl
  · rw [pump_drive, issueQuery, modDrive_at, if_pos rfl, State.modPicker_read_drive, hd0, if_neg hnone]
    exact hnew
  · rw [pump_drive, issueQuery, modDrive_at, if_pos rfl, State.modPicker_read_drive, hd0, if_neg hnone]
    exact hempty
  · rw [pump_drive, issueQuery, modDrive_at, if_neg (by decide), State.modPicker_read_drive, hd1]
  · rw [pump_buffer, issueQuery, State.modDrive_buffer, State.modPicker_buffer, hbuf]

/-- A mail audit that has read its last slot is complete. -/
theorem audit_mail_done (hfull : a.full = false) (hheld : s.picker.held = none) :
    ∃ t, exec (.auditSlotReading .noLabel) s = .next t ∧ t.elemState q = some (.full none .noLabel)
        ∧ t.picker.state = .idle ∧ t.picker.audit = none ∧ t.picker.motion = none ∧ t.picker.timer = .stopped
        ∧ t.picker.condition = s.picker.condition ∧ t.drives = s.drives ∧ t.buffer = s.buffer := by
  have hx := exec_auditSlotReading hs hm ha .noLabel
  obtain ⟨hpicker, hdrives, hbuf, -, hat⟩ := reading_noLabel s a q
  set u := takeReading (motionReported s) a q .noLabel
  rw [auditNext_mailDone (u := u) (x := { a with readDone := a.readDone ++ [q], markedFor := a.markedFor.filter fun x => x ≠ q })
    (by rw [hpicker]) ((slotsLeft_takeReading s a q .noLabel rfl).trans hl) hfull (by rw [hpicker]; exact hheld)] at hx
  obtain ⟨n, m, o, w, hp⟩ := completeMail_picker u { a with readDone := a.readDone ++ [q], markedFor := a.markedFor.filter fun x => x ≠ q
      }
  rw [hpicker] at hp
  refine ⟨_, hx, ?_, ?_, ?_, ?_, ?_, ?_, ?_, ?_⟩
  · rw [pump_elemState, completeMail_elemState]
    exact hat hq
  · rw [pump_picker, hp]
  · rw [pump_picker, hp]
  · rw [pump_picker, hp]
  · rw [pump_picker, hp]
  · rw [pump_picker, hp]
  · rw [pump_drives]
    exact Eq.trans (by simp) hdrives
  · rw [pump_buffer]
    exact Eq.trans (by simp) hbuf

end

/-- Settles O32. -/
theorem auditsRead : Obligations.AuditsRead := by
  refine ⟨fun s hs hm hnone => ?_, fun s q r a rest hs hm ha hl hq => ⟨audit_reads_empty hs hm ha hl hq,
      audit_reads_noLabel hs hm ha hl hq, fun l hv hlen => audit_reads_new hs hm ha hl hq l hv hlen,
      fun l v hv hloc => audit_reads_known hs hm ha hl hq l v hv hloc⟩,
    fun s q a hs hm ha hl hq => ⟨audit_asks hs hm ha hl hq, audit_mail_done hs hm ha hl hq⟩⟩
  have hnone' : (motionReported s).inHandMove = none := hnone
  have hx : exec .homingComplete s = .next (pump (startFullAudit (motionReported s))) := by
    change execHomingComplete s = _
    rw [execHomingComplete, runningMotion_some hs hm]
    dsimp only
    rw [homed, hnone']
    rfl
  obtain ⟨hstate, hcond, hmotion, htimer, hpend⟩ := startFullAudit_picker (motionReported s)
  obtain ⟨hel, hst, hdr, hbuf, -⟩ := startFullAudit_rest (motionReported s)
  refine ⟨_, hx, ?_⟩
  rw [pump_picker, pump_elements, pump_store, pump_drives, pump_buffer]
  exact ⟨hstate, hcond, hmotion, htimer, hpend, hel, hst, hdr, hbuf⟩

end Sys2Proof.Machine
end

section
/-! PROOFS. The stream requests: writes refused (R104, R105), RESUME_STREAM and SYNC (R106, R113). -/

namespace Sys2Proof.Machine

/-! ### Writes refused -/

section
variable {s : State} {p : Port} {stream kind : Byte} {raw : List Byte} {b : Bay}

theorem namedBy_of {c : Stream} (hp : c.port = some p) (hc : c.state ≠ .closed) (ho : c.state ≠ .opening) : c.namedBy p = true := by
  simp [Stream.namedBy, hp, hc, ho]

theorem writeStream_named (hb : bayOf stream = some b) (h : (s.stream b).namedBy p = true) : writeStream s p stream = some b := by
  simp [writeStream, hb, h]

/-- A write on a stream of the sender's that is not OPEN (R105). -/
theorem exec_write_notOpen (hu : (s.port p).up = true) (hb : bayOf stream = some b) (hk : (flagOf kind).isSome = true)
    (hn : (s.stream b).namedBy p = true) (ho : (s.stream b).state ≠ .open) :
    exec (.writeRecord p stream kind raw) s = .next (pump (notOpenWrite s p b .writeRecord stream))
    ∧ exec (.writeMark p stream) s = .next (pump (notOpenWrite s p b .writeMark stream)) := by
  have hflag : (flagOf kind).isNone = false := by simpa using hk
  constructor
  · change execWriteRecord p stream kind raw s = _
    simp [execWriteRecord, hu, hb, hflag, writeStream_named hb hn, ho, finish]
  · change execWriteMark p stream s = _
    simp [execWriteMark, hu, hb, writeStream_named hb hn, ho, finish]

/-- A record that an OPEN stream refuses halts it (R104). -/
theorem exec_writeRecord_halts {code : ReplyCode} (hu : (s.port p).up = true) (hb : bayOf stream = some b)
    (hk : (flagOf kind).isSome = true) (hp : (s.stream b).port = some p) (ho : (s.stream b).state = .open)
    (hcode : (code = .badLength ∧ (raw = [] ∨ 32768 < raw.length ∨ (kind = 1 ∧ raw.length % 4 ≠ 0)))
      ∨ (code = .creditOverrun ∧ 1 ≤ raw.length ∧ raw.length ≤ 32768 ∧ (kind = 1 → raw.length % 4 = 0)
          ∧ windowsHold s.buffer p (unitsFor raw.length) = false)) :
    exec (.writeRecord p stream kind raw) s = .next (pump (haltWrite s p b .writeRecord stream code)) := by
  have hflag : (flagOf kind).isNone = false := by simpa using hk
  change execWriteRecord p stream kind raw s = _
  unfold execWriteRecord
  rw [if_neg (by simp [hu]), if_neg (by simp [hb, hflag]), writeStream_of hb hp ho]
  dsimp only
  rw [if_neg (by simp [ho])]
  rcases hcode with ⟨rfl, hbad⟩ | ⟨rfl, h1, h2, h4, hw⟩
  · have hbad' : raw = [] ∨ Config.maxRecord < raw.length ∨ (kind = 1 ∧ raw.length % 4 ≠ 0) := hbad
    rw [if_pos (by simpa [or_assoc] using hbad')]
    rfl
  · have hne : raw ≠ [] := List.ne_nil_of_length_pos h1
    have h2' : raw.length ≤ Config.maxRecord := h2
    rw [if_neg (by simpa [hne] using ⟨h2', h4⟩), if_pos (by simp [hw])]
    rfl

theorem exec_writeMark_halts (hu : (s.port p).up = true) (hb : bayOf stream = some b) (hp : (s.stream b).port = some p)
    (ho : (s.stream b).state = .open) (hm : 63 ≤ markCount s b) :
    exec (.writeMark p stream) s = .next (pump (haltWrite s p b .writeMark stream .setLimit)) := by
  have hm' : Config.maxMarks ≤ markCount s b := hm
  change execWriteMark p stream s = _
  simp [execWriteMark, hu, hb, writeStream_of hb hp ho, ho, hm', finish]

end

/-- Settles O43. -/
theorem writesRefused : Obligations.WritesRefused := by
  intro s p stream kind raw b hu hb hk hp
  have past : (s.stream b).state ≠ .open → (s.stream b).state ≠ .closed → (s.stream b).state ≠ .opening →
      exec (.writeRecord p stream kind raw) s = .next (pump (notOpenWrite s p b .writeRecord stream))
      ∧ exec (.writeMark p stream) s = .next (pump (notOpenWrite s p b .writeMark stream)) := fun ho hc hop =>
    exec_write_notOpen hu hb hk (namedBy_of hp hc hop) ho
  refine ⟨fun ho hbad => exec_writeRecord_halts hu hb hk hp ho (.inl ⟨rfl, hbad⟩),
    fun ho h1 h2 h4 hw => exec_writeRecord_halts hu hb hk hp ho (.inr ⟨rfl, h1, h2, h4, hw⟩),
    fun ho hm => exec_writeMark_halts hu hb hp ho hm, fun h => ?_, fun h => ?_, fun h => ?_, fun h code hcode => ?_⟩
  all_goals
    obtain ⟨hr, hm⟩ := past (by simp [h]) (by simp [h]) (by simp [h])
    rw [hr, hm]
    simp [notOpenWrite, h]
  simp [hcode]

/-! ### RESUME_STREAM -/

section
variable {s : State} {p : Port} {tag stream : Byte} {b : Bay}

theorem onStream_named {kind : ReqKind} {f : State → Bay → State} (hb : bayOf stream = some b) (hn : (s.stream b).namedBy p = true) :
    onStream s p tag kind stream false f = f s b := by
  rw [onStream, hb]
  dsimp only
  rw [if_neg Bool.false_ne_true, if_pos hn]

theorem offerEngine_ports (s : State) (b : Bay) : (offerEngine s b).ports = s.ports := by
  unfold offerEngine
  dsimp only
  split
  · split <;> rfl
  · rfl

/-- The state in which a RESUME_STREAM has been answered. -/
def resumed (s : State) (p : Port) (tag : Byte) (b : Bay) : State :=
  (answer s p tag .resumeStream (resumeCode (s.stream b)) (.resume (s.stream b).refused (s.stream b).nextRecord)).modStream b
    fun c => { c with refused := 0, state := if c.state = .writeHalted then .open else c.state }

theorem exec_resumeStream (ht : s.takes p tag) (hb : bayOf stream = some b) (hn : (s.stream b).namedBy p = true) :
    exec (.resumeStream p tag stream) s = .next (pump (if (s.stream b).state = .writeHalted
      then offerEngine (resumed (openTag s p tag .resumeStream) p tag b) b else resumed (openTag s p tag .resumeStream) p tag b)) := by
  have hn' : ((openTag s p tag .resumeStream).stream b).namedBy p = true := hn
  change execResumeStream p tag stream s = _
  rw [execResumeStream, request_taken _ _ ht, onStream_named hb hn']
  rfl

theorem exec_sync_answered {code : ReplyCode} (ht : s.takes p tag) (hb : bayOf stream = some b) (hn : (s.stream b).namedBy p = true)
    (ho : (s.stream b).syncOutcome (s.stream b).nextRecord = some code) :
    exec (.sync p tag stream) s = .next (pump (answerSync (openTag s p tag .sync) b tag code)) := by
  have hn' : ((openTag s p tag .sync).stream b).namedBy p = true := hn
  have ho' : ((openTag s p tag .sync).stream b).syncOutcome ((openTag s p tag .sync).stream b).nextRecord = some code := ho
  change execSync p tag stream s = _
  rw [execSync, request_taken _ _ ht, onStream_named hb hn']
  dsimp only
  rw [ho']

theorem exec_sync_waits (ht : s.takes p tag) (hb : bayOf stream = some b) (hn : (s.stream b).namedBy p = true)
    (ho : (s.stream b).syncOutcome (s.stream b).nextRecord = none) : exec (.sync p tag stream) s
      = .next (pump ((openTag s p tag .sync).modStream b fun c => { c with syncs := c.syncs ++ [⟨tag, c.nextRecord⟩] })) := by
  have hn' : ((openTag s p tag .sync).stream b).namedBy p = true := hn
  have ho' : ((openTag s p tag .sync).stream b).syncOutcome ((openTag s p tag .sync).stream b).nextRecord = none := ho
  change execSync p tag stream s = _
  rw [execSync, request_taken _ _ ht, onStream_named hb hn']
  dsimp only
  rw [ho']

theorem answerSync_of {p : Port} (hp : (s.stream b).port = some p) (tag : Byte) (code : ReplyCode) : answerSync s b tag code
    = (answer s p tag .sync code (.sync b (s.stream b).highestCommitted ((s.stream b).start + (s.stream b).committedCount))).modStream b
        Stream.reported := by
  rw [answerSync, hp]
  rfl

/-- The one SYNC that waits, answered DONE. -/
theorem testSyncs_done {y : PendingSync} (h : (s.stream b).syncs = [y]) (hy : y.upTo ≤ (s.stream b).committedCount) :
    testSyncs s b = answerSync (s.modStream b fun c => { c with syncs := [] }) b y.tag .done := by
  have hout : (s.stream b).syncOutcome y.upTo = some .done := if_pos hy
  unfold testSyncs
  dsimp only
  rw [h]
  simp [hout]

end

theorem resumed_stream (s : State) (p : Port) (tag : Byte) (b : Bay) : (resumed s p tag b).stream b = { s.stream b with
    refused := 0, state := if (s.stream b).state = .writeHalted then .open else (s.stream b).state } :=
  (modStream_at _ b b _).trans (if_pos rfl)

theorem offerEngine_fields (s : State) (b : Bay) : ((offerEngine s b).stream b).state = (s.stream b).state
    ∧ ((offerEngine s b).stream b).refused = (s.stream b).refused
    ∧ ((offerEngine s b).stream b).nextRecord = (s.stream b).nextRecord := by
  rcases offerEngine_stream s b with h | ⟨num, h⟩ <;> rw [h] <;> exact ⟨rfl, rfl, rfl⟩

/-- Settles O44. -/
theorem resumeAndSync : Obligations.ResumeAndSync := by
  intro s p tag stream b ht hb hp
  refine ⟨fun ho => ?_, fun hh => ?_, fun hc hop => ⟨fun code hcode => ?_, fun hnone => ?_⟩, fun y hy hup => ?_⟩
  · have hstream : (openTag s p tag .resumeStream).stream b = s.stream b := rfl
    have hcode : resumeCode (s.stream b) = .done := by simp [resumeCode, ho]
    rw [exec_resumeStream ht hb (namedBy_of hp (by simp [ho]) (by simp [ho])), if_neg (by simp [ho]), resumed, hstream, hcode]
    refine congrArg (fun t => Host.Outcome.next (pump t)) (modStream_congr _ b _ _ ?_)
    have hat : ∀ body : ReplyBody, (answer (openTag s p tag .resumeStream) p tag .resumeStream .done body).stream b = s.stream b :=
      fun _ => rfl
    rw [hat, ho]
    simp
  · have hx := exec_resumeStream ht hb (namedBy_of hp (by simp [hh]) (by simp [hh]))
    rw [if_pos hh] at hx
    have hstream : (resumed (openTag s p tag .resumeStream) p tag b).stream b = { s.stream b with refused := 0, state := .open } := by
      rw [resumed_stream, show (openTag s p tag .resumeStream).stream b = s.stream b from rfl, if_pos hh]
    obtain ⟨hstate, hrefused, hnext⟩ := offerEngine_fields (resumed (openTag s p tag .resumeStream) p tag b) b
    have hcode : resumeCode ((openTag s p tag .resumeStream).stream b) = .done := by
      rw [show (openTag s p tag .resumeStream).stream b = s.stream b from rfl, resumeCode, hh]
    have hports : (pump (offerEngine (resumed (openTag s p tag .resumeStream) p tag b) b)).ports
        = (s.replied p tag .resumeStream .done (.resume (s.stream b).refused (s.stream b).nextRecord)).ports := by
      rw [pump_eq, offerEngine_ports, resumed, hcode]
      rfl
    have hleaves := exec_leaves _ s _ hx
    have hstore := congrArg State.store hleaves
    have helements := congrArg State.elements hleaves
    have hpicker := congrArg State.picker hleaves
    have hdrives := congrArg State.drives hleaves
    have hbuffer := congrArg State.buffer hleaves
    refine ⟨_, hx, ?_, ?_, ?_, hports, hstore, helements, hpicker, hdrives, hbuffer⟩
    · rw [pump_stream, hstate, hstream]
    · rw [pump_stream, hrefused, hstream]
    · rw [pump_stream, hnext, hstream]
  · rw [exec_sync_answered ht hb (namedBy_of hp hc hop) hcode, answerSync_of (s := openTag s p tag .sync) hp]
    rfl
  · exact exec_sync_waits ht hb (namedBy_of hp hc hop) hnone
  · have hx : exec (.syncAnswered b) s = .next (pump (testSyncs s b)) := rfl
    have hat : (s.modStream b fun c => { c with syncs := [] }).stream b = { s.stream b with syncs := [] } :=
      (modStream_at s b b _).trans (if_pos rfl)
    have hp' : ((s.modStream b fun c => { c with syncs := [] }).stream b).port = some p := by
      rw [hat]
      exact hp
    have hcommute : ∀ body : ReplyBody, answer (s.modStream b fun c => { c with syncs := [] }) p y.tag .sync .done body
        = (answer s p y.tag .sync .done body).modStream b fun c => { c with syncs := [] } := fun _ => rfl
    rw [hx, testSyncs_done hy hup, answerSync_of hp', hcommute, modStream_modStream, hat]
    rfl

end Sys2Proof.Machine
end

section
/-! PROOFS. CLOSE_STREAM and STREAM_CLOSE (R119 to R121). -/

namespace Sys2Proof.Machine

/-! ### Fields of a stream that its records' leaving does not touch -/

section
variable {α : Type} {g : Stream → α}

theorem modStream_field (s : State) (a b : Bay) {f : Stream → Stream} (hf : ∀ c, g (f c) = g c) :
    g ((s.modStream a f).stream b) = g (s.stream b) := by
  rw [modStream_at]
  split
  · next h => rw [hf, h]
  · rfl

theorem stream_of_streams {s t : State} (h : t.streams = s.streams) (b : Bay) : t.stream b = s.stream b := congrArg (PerBay.get · b) h

theorem answerSync_field (hg : ∀ c, g c.reported = g c) (s : State) (a b : Bay) (tag : Byte) (code : ReplyCode) :
    g ((answerSync s a tag code).stream b) = g (s.stream b) := by
  unfold answerSync
  dsimp only
  split
  · rw [modStream_field _ _ _ hg, stream_of_streams (s := s) (by simp)]
  · rfl

theorem testSyncs_field (hg : ∀ c, g c.reported = g c) (hs : ∀ c l, g { c with syncs := l } = g c) (s : State) (a b : Bay) :
    g ((testSyncs s a).stream b) = g (s.stream b) :=
  (foldl_same (fun t => g (t.stream b)) _ (fun t _ => answerSync_field hg t a b _ _) _ _).trans
    (modStream_field s a b fun c => hs c _)

theorem giveUpRecords_field (hd : ∀ c num k, g { c.dropRec num with discarded := k } = g c) (s : State) (a b : Bay) (f : Rec → Bool) :
    g ((giveUpRecords s a f).stream b) = g (s.stream b) := by
  refine foldl_same (fun t => g (t.stream b)) _ (fun t r => ?_) _ _
  unfold giveUpRecord
  split
  · rfl
  · rw [modStream_field _ _ _ fun c => hd c _ _, stream_of_streams (s := t) (by simp)]

end

/-- The closing of a stream as a request joins it. -/
theorem discardStream_stream (s : State) (b : Bay) (q : Closing) : ((discardStream s b q).stream b).state = .draining
    ∧ ((discardStream s b q).stream b).discard = true ∧ ((discardStream s b q).stream b).closing = (s.stream b).closing ++ [q] := by
  have h : (fun c : Stream => (c.state, c.discard, c.closing)) ((discardStream s b q).stream b)
      = (.draining, true, (s.stream b).closing ++ [q]) := by
    unfold discardStream
    dsimp only
    rw [testSyncs_field (g := fun c : Stream => (c.state, c.discard, c.closing)) (fun _ => rfl) fun _ _ => rfl,
      giveUpRecords_field (g := fun c : Stream => (c.state, c.discard, c.closing)) fun _ _ _ => rfl, modStream_at, if_pos rfl]
  simpa using h

/-! ### What a port has to send only grows -/

/-- From s to t no port comes up or goes down, and what waits at a port still waits. -/
structure Grows (s t : State) : Prop where
  up : ∀ p, (t.port p).up = (s.port p).up
  waits : ∀ p, ∀ x ∈ (s.port p).control, x ∈ (t.port p).control

theorem Grows.refl (s : State) : Grows s s := ⟨fun _ => rfl, fun _ _ h => h⟩

theorem Grows.trans {s t u : State} (h : Grows s t) (g : Grows t u) : Grows s u :=
  ⟨fun p => (g.up p).trans (h.up p), fun p x hx => g.waits p x (h.waits p x hx)⟩

theorem Grows.of_ports {s t : State} (h : t.ports = s.ports) : Grows s t := by
  have hp : ∀ p, t.port p = s.port p := fun p => congrArg (PerPort.get · p) h
  exact ⟨fun p => by rw [hp], fun p x hx => by rw [hp]; exact hx⟩

theorem grows_answer (s : State) (q : Port) (tag : Byte) (k : ReqKind) (code : ReplyCode) (body : ReplyBody) (clamped : Bool) :
    Grows s (answer s q tag k code body clamped) := by
  refine ⟨answer_up s q tag k code body clamped, fun p x hx => ?_⟩
  by_cases hpq : p = q
  · subst hpq
    cases hu : (s.port p).up with
    | true =>
      rw [answer_port _ _ _ _ _ hu]
      exact List.mem_append_left _ hx
    | false =>
      simp only [answer, queueReply, modPort_at, if_true, hu]
      exact hx
  · rw [answer_port_ne _ _ _ _ _ hpq]
    exact hx

theorem grows_answerHeld (s : State) (q : Port) (tag : Option Byte) (k : ReqKind) (code : ReplyCode) (body : ReplyBody) (clamped : Bool) :
    Grows s (answerHeld s q tag k code body clamped) := by
  unfold answerHeld
  split
  · exact grows_answer s q _ k code body clamped
  · exact Grows.refl s

theorem grows_foldl {α : Type} {f : State → α → State} (hf : ∀ t a, Grows t (f t a)) (l : List α) (s : State) :
    Grows s (l.foldl f s) := by
  induction l generalizing s with
  | nil => exact Grows.refl s
  | cons a l ih => exact (hf s a).trans (ih _)

theorem grows_answerSync (s : State) (b : Bay) (tag : Byte) (code : ReplyCode) : Grows s (answerSync s b tag code) := by
  unfold answerSync
  dsimp only
  split
  · exact (grows_answer s _ tag _ code _ _).trans (Grows.of_ports rfl)
  · exact Grows.refl s

theorem grows_answerClosing (b : Bay) (s : State) (q : Closing) : Grows s (answerClosing b s q) := by
  unfold answerClosing
  dsimp only
  split
  · exact grows_answerHeld s _ _ _ _ _ _
  · split
    · exact (grows_answerHeld s _ _ _ _ _ _).trans (Grows.of_ports rfl)
    · exact Grows.refl s

/-! ### The close (R121) -/

/-- The reply to an ABORT that waited. -/
def abortReply (tag : Byte) : Reply := ⟨ReqKind.abort.code, tag, .done, false, .none, true⟩

theorem answerClosing_abort {b : Bay} {s : State} {q : Closing} {tag : Byte} (ha : q.isAbort = true) (ht : q.tag = some tag)
    (hu : (s.port q.port).up = true) : .reply (abortReply tag) ∈ ((answerClosing b s q).port q.port).control := by
  have h : answerClosing b s q = answer s q.port tag .abort .done := by
    rw [answerClosing, if_pos ha, ht]
    rfl
  rw [h, answer_port _ _ _ _ _ hu]
  exact List.mem_append_right _ (List.mem_singleton.2 rfl)

theorem aborts_answered {b : Bay} {l : List Closing} {q : Closing} {tag : Byte} (hq : q ∈ l) (ha : q.isAbort = true)
    (ht : q.tag = some tag) (s : State) (hu : (s.port q.port).up = true) :
    .reply (abortReply tag) ∈ ((l.foldl (answerClosing b) s).port q.port).control := by
  induction l generalizing s with
  | nil => simp at hq
  | cons x l ih =>
    rcases List.mem_cons.1 hq with rfl | hq
    · exact (grows_foldl (grows_answerClosing b) l _).waits _ _ (answerClosing_abort ha ht hu)
    · exact ih hq _ (((grows_answerClosing b s x).up _).trans hu)

/-- The state in which every request that waits for the close is answered. -/
def closeAnswered (s : State) (b : Bay) : State :=
  let c := s.stream b
  let o := c.closeOutcome
  let s2 := (c.closing.filter fun q => q.isAbort).foldl (answerClosing b)
    ((c.closing.filter fun q => !q.isAbort).foldl (answerClosing b) s)
  if o = .done then s2 else c.syncs.foldl (fun t y => answerSync t b y.tag o) s2

/-- The stream's context after its close. -/
def Stream.closed (c : Stream) : Stream :=
  { c with state := .closed, timer := .stopped, fault := none, closing := [], discard := false, syncs := [] }

theorem closeStream_eq (s : State) (b : Bay) : closeStream s b = clearStreamActivity ((closeAnswered s b).modStream b Stream.closed) b :=
  rfl

theorem closeStream_stream (s : State) (b : Bay) : (closeStream s b).stream b = ((closeAnswered s b).stream b).closed := by
  rw [closeStream_eq, clearStreamActivity, State.modDrive_read_stream, modStream_at, if_pos rfl]

theorem closeAnswered_drives (s : State) (b : Bay) : (closeAnswered s b).drives = s.drives := by
  unfold closeAnswered
  dsimp only
  split <;> simp

/-- The bay free of the stream. -/
def Drive.sansStream (d : Drive) : Drive :=
  match d.activity with
  | .stream _ => { d with activity := .none }
  | _ => d

theorem closeStream_drive (s : State) (b : Bay) : (closeStream s b).drive b = (s.drive b).sansStream := by
  have h : (closeAnswered s b).drive b = s.drive b := congrArg (PerBay.get · b) (closeAnswered_drives s b)
  rw [closeStream_eq, clearStreamActivity, modDrive_at, if_pos rfl, State.modStream_read_drive, h]
  rfl

theorem Drive.sansStream_activity (d : Drive) : { d.sansStream with activity := d.activity } = d
    ∧ ∀ p, d.activity = .stream p → d.sansStream.activity = .none := by
  unfold Drive.sansStream
  split
  · next p h =>
    refine ⟨?_, fun _ _ => rfl⟩
    rw [h]
    cases d
    subst h
    rfl
  · next h => exact ⟨rfl, fun p hp => absurd hp (h p)⟩

theorem closeAnswered_abort {s : State} {b : Bay} {q : Closing} {tag : Byte} (hq : q ∈ (s.stream b).closing) (ha : q.isAbort = true)
    (ht : q.tag = some tag) (hu : (s.port q.port).up = true) :
    .reply (abortReply tag) ∈ ((closeAnswered s b).port q.port).control := by
  have hin : .reply (abortReply tag) ∈ ((((s.stream b).closing.filter fun q => q.isAbort).foldl (answerClosing b)
      (((s.stream b).closing.filter fun q => !q.isAbort).foldl (answerClosing b) s)).port q.port).control :=
    aborts_answered (List.mem_filter.2 ⟨hq, ha⟩) ha ht _ (((grows_foldl (grows_answerClosing b) _ s).up _).trans hu)
  unfold closeAnswered
  dsimp only
  split
  · exact hin
  · exact (grows_foldl (fun t y => grows_answerSync t b _ _) _ _).waits _ _ hin

/-! ### CLOSE_STREAM -/

/-- The request as it joins the stream's closing. -/
def closingOf (p : Port) (tag mode : Byte) : Closing := ⟨p, false, if mode = 1 then .discard else .drain, some tag⟩

def closeAsked (s : State) (p : Port) (b : Bay) (tag mode : Byte) : State :=
  if (s.stream b).state = .faulted then
    closeStream (s.modStream b fun c => { c with closing := c.closing ++ [closingOf p tag mode] }) b
  else if mode = 1 then discardStream s b (closingOf p tag mode)
  else drainStream s b (closingOf p tag mode)

section
variable {s : State} {p : Port} {tag stream mode : Byte} {b : Bay} (ht : s.takes p tag) (hb : bayOf stream = some b)
  (hn : (s.stream b).namedBy p = true)
include ht hb hn

/-- What a CLOSE_STREAM comes to, before the buffer settles. -/
theorem exec_closeStream (hm : (flagOf mode).isSome = true) : exec (.closeStream p tag stream mode) s
    = .next (pump (onBuffer (closeAsked (openTag s p tag .closeStream) p b tag mode) settle)) := by
  have hn' : ((openTag s p tag .closeStream).stream b).namedBy p = true := hn
  have hm' : (flagOf mode).isNone = false := by simpa using hm
  change execCloseStream p tag stream mode s = _
  rw [execCloseStream, admission_taken _ ht]
  dsimp only
  rw [hm', onStream_named hb hn']
  rfl

end

theorem closeStream_frame {s t : State} {p : Port} {tag stream mode : Byte} (hx : exec (.closeStream p tag stream mode) s = .next t) :
    t.store = s.store ∧ t.elements = s.elements ∧ t.picker = s.picker := by
  have hleaves := exec_leaves _ s t hx
  have hstore := congrArg State.store hleaves
  have helements := congrArg State.elements hleaves
  have hpicker := congrArg State.picker hleaves
  exact ⟨hstore, helements, hpicker⟩

/-- Settles O45. -/
theorem streamsClose : Obligations.StreamsClose := by
  refine ⟨fun s p tag stream b ht hb hp => ⟨fun hstate => ?_, fun hfault mode hm => ?_⟩, fun s b hd => ?_⟩
  · have hn : (s.stream b).namedBy p = true := by
      rcases hstate with h | h | h | h <;> exact namedBy_of hp (by simp [h]) (by simp [h])
    have hne : ((openTag s p tag .closeStream).stream b).state ≠ .faulted := by
      have h : (openTag s p tag .closeStream).stream b = s.stream b := rfl
      rw [h]
      rcases hstate with h | h | h | h <;> simp [h]
    refine ⟨?_, ?_⟩
    · have hdrain : closeAsked (openTag s p tag .closeStream) p b tag 0
          = drainStream (openTag s p tag .closeStream) b ⟨p, false, .drain, some tag⟩ := by
        rw [closeAsked, if_neg hne]
        rfl
      rw [exec_closeStream ht hb hn rfl, hdrain, drainStream]
    · have hdiscard : closeAsked (openTag s p tag .closeStream) p b tag 1
          = discardStream (openTag s p tag .closeStream) b ⟨p, false, .discard, some tag⟩ := by
        rw [closeAsked, if_neg hne]
        rfl
      have hx := exec_closeStream (mode := 1) ht hb hn rfl
      rw [hdiscard] at hx
      obtain ⟨h1, h2, h3⟩ := discardStream_stream (openTag s p tag .closeStream) b ⟨p, false, .discard, some tag⟩
      obtain ⟨hstore, helements, hpicker⟩ := closeStream_frame hx
      refine ⟨_, hx, ?_, ?_, ?_, hstore, ?_, helements, hpicker⟩
      · rw [pump_stream, onBuffer_stream, h1]
      · rw [pump_stream, onBuffer_stream, h2]
      · rw [pump_stream, onBuffer_stream, h3]
        rfl
      · rw [pump_drives]; simp
  · have hx := exec_closeStream ht hb (namedBy_of hp (by simp [hfault]) (by simp [hfault])) hm
    have hclosed : closeAsked (openTag s p tag .closeStream) p b tag mode = closeStream ((openTag s p tag .closeStream).modStream b
        fun c => { c with closing := c.closing ++ [closingOf p tag mode] }) b := if_pos hfault
    rw [hclosed] at hx
    obtain ⟨hstore, helements, hpicker⟩ := closeStream_frame hx
    refine ⟨_, hx, ?_, ?_, ?_, hstore, helements, hpicker⟩ <;>
      rw [pump_stream, onBuffer_stream, closeStream_stream] <;> rfl
  · have hx : exec (.streamClose b) s = .next (pump (closeStream s b)) := if_pos hd
    have hleaves := exec_leaves _ s _ hx
    have hstore := congrArg State.store hleaves
    have helements := congrArg State.elements hleaves
    have hpicker := congrArg State.picker hleaves
    have hbuffer := congrArg State.buffer hleaves
    obtain ⟨hd1, hd2⟩ := (s.drive b).sansStream_activity
    refine ⟨_, hx, ?_, ?_, ?_, ?_, ?_, fun q hq tag ha htag hu => pump_sends ?_, fun p hp => ?_, ?_, hstore, helements, hpicker, hbuffer⟩
    · rw [pump_stream, closeStream_stream]; rfl
    · rw [pump_stream, closeStream_stream]; rfl
    · rw [pump_stream, closeStream_stream]; rfl
    · rw [pump_stream, closeStream_stream]; rfl
    · rw [pump_stream, closeStream_stream]; rfl
    · exact closeAnswered_abort hq ha htag hu
    · rw [pump_drive, closeStream_drive]
      exact hd2 p hp
    · rw [pump_drive, closeStream_drive]
      exact hd1

end Sys2Proof.Machine
end

section
/-! PROOFS. The drives' threading and unthreading (R57, R58), their positioning (R61), and the bays that go down (R69, R70). -/

namespace Sys2Proof.Machine

/-! ### The drive and its volume -/

/-- The record of the cartridge in a drive after a store write of that record. -/
theorem modDriveVolume_driveVolume {s t : State} {b : Bay} {v : Volume} {f : Volume → Volume} (hf : ∀ v, (f v).label = v.label)
    (hv : s.driveVolume b = some v) (hd : (t.drive b).volume = (s.drive b).volume) (hs : t.store = (modDriveVolume s b f).store) :
    t.driveVolume b = some (f v) := by
  obtain ⟨hl, hvol⟩ := (driveVolume_eq_some_iff s b v).1 hv
  have hmod : modDriveVolume s b f = modVolume s v.label f := by rw [modDriveVolume, hl]
  rw [driveVolume_eq_some_iff, hd, hf]
  refine ⟨hl, ?_⟩
  rw [volume_of_store hs, hmod, volume_modVolume _ _ _ _ hf, hvol]
  simp

@[simp] theorem pump_driveVolume (s : State) (b : Bay) : (pump s).driveVolume b = s.driveVolume b := rfl

/-- A drive's context but for its claim. -/
def Drive.sansClaim (d : Drive) : Drive := { d with claim := none }

theorem dropClaim_sansClaim (s : State) (a b : Bay) : ((dropClaim s a).drive b).sansClaim = (s.drive b).sansClaim := by
  rw [dropClaim, modDrive_at]
  split
  · next h => rw [h]; rfl
  · rfl

theorem settleClaims_sansClaim (s : State) (e : MoveEntry) (code : ReplyCode) (b : Bay) :
    ((settleClaims s e code).drive b).sansClaim = (s.drive b).sansClaim := by
  rcases settleClaims_cases s e code with h | ⟨a, h⟩ | ⟨a, h⟩ | ⟨a, h⟩ <;> rw [h]
  · exact dropClaim_sansClaim s a b
  · exact dropClaim_sansClaim s a b
  · rfl

/-- The end of a move leaves each drive's context but for its claim. -/
theorem completeMove_sansClaim (s : State) (e : MoveEntry) (code : ReplyCode) (b : Bay) :
    ((completeMove s e code).drive b).sansClaim = (s.drive b).sansClaim := by
  have hreply : ∀ t : State, (moveReply t e code).drives = t.drives := fun t => by simp
  have hended : ((moveEnded s e code).drive b).sansClaim = (s.drive b).sansClaim := by
    rw [moveEnded, State.drive, hreply]
    exact settleClaims_sansClaim (removeEntry s e.number) e code b
  rcases completeMove_cases s e code with h | h <;> rw [h]
  · exact hended
  · rw [State.drive, (marksOnly_queueOwedUnloads _).1.drives]
    exact hended

theorem Drive.eq_of_sansClaim {d e : Drive} (h : d.sansClaim = e.sansClaim) : d.state = e.state ∧ d.volume = e.volume
    ∧ d.activity = e.activity ∧ d.position = e.position ∧ d.continuation = e.continuation ∧ d.inFlight = e.inFlight ∧ d.gap = e.gap
    ∧ d.order = e.order ∧ d.timer = e.timer := by
  simpa [Drive.sansClaim] using h

/-! ### Threading -/

/-- A supported class noted, and the tape at its beginning. -/
def threadNoted (s : State) (b : Bay) (cls : Nat) (wp : Bool) : State :=
  (modDriveVolume s b fun v => v.threaded cls wp).modDrive b fun d =>
    { d.answered .idle with position := some ⟨some 0, some 0⟩, continuation := none }

theorem modDriveVolume_picker (s : State) (b : Bay) (f : Volume → Volume) : (modDriveVolume s b f).picker = s.picker := by simp
theorem modDriveVolume_drives (s : State) (b : Bay) (f : Volume → Volume) : (modDriveVolume s b f).drives = s.drives := by simp

theorem modDriveVolume_drive (s : State) (b a : Bay) (f : Volume → Volume) : (modDriveVolume s b f).drive a = s.drive a := by
  rw [State.drive, modDriveVolume_drives]
  rfl

theorem threadNoted_drive (s : State) (b : Bay) (cls : Nat) (wp : Bool) : (threadNoted s b cls wp).drive b
    = { (s.drive b).answered .idle with position := some ⟨some 0, some 0⟩, continuation := none } := by
  rw [threadNoted, modDrive_at, if_pos rfl, modDriveVolume_drive]

theorem threadWaiter_of_picker {s t : State} (h : t.picker = s.picker) (b : Bay) : threadWaiter t b = threadWaiter s b := by
  rw [threadWaiter, threadWaiter, h]

theorem unthreadWaiter_of_picker {s t : State} (h : t.picker = s.picker) (b : Bay) : unthreadWaiter t b = unthreadWaiter s b := by
  rw [unthreadWaiter, unthreadWaiter, h]

theorem threadNoted_picker (s : State) (b : Bay) (cls : Nat) (wp : Bool) : (threadNoted s b cls wp).picker = s.picker := by
  rw [threadNoted, State.modDrive_picker, modDriveVolume_picker]

theorem threadedGood_cases (s : State) (b : Bay) (cls : Nat) (wp : Bool) :
    (threadWaiter s b = none ∧ threadedGood s b cls wp = threadNoted s b cls wp)
    ∨ ∃ e, threadWaiter s b = some e ∧ threadedGood s b cls wp = completeMove (threadNoted s b cls wp) e .done := by
  have h : threadWaiter (threadNoted s b cls wp) b = threadWaiter s b := threadWaiter_of_picker (threadNoted_picker s b cls wp) b
  unfold threadedGood
  dsimp only
  rw [show (modDriveVolume s b fun v => v.threaded cls wp).modDrive b (fun d =>
    { d.answered .idle with position := some ⟨some 0, some 0⟩, continuation := none }) = threadNoted s b cls wp from rfl, h]
  cases threadWaiter s b with
  | none => exact .inl ⟨rfl, rfl⟩
  | some e => exact .inr ⟨e, rfl, rfl⟩

theorem threadedGood_sansClaim (s : State) (b : Bay) (cls : Nat) (wp : Bool) :
    ((threadedGood s b cls wp).drive b).sansClaim = ((threadNoted s b cls wp).drive b).sansClaim
    ∧ (threadedGood s b cls wp).store = (threadNoted s b cls wp).store := by
  rcases threadedGood_cases s b cls wp with ⟨-, h⟩ | ⟨e, -, h⟩ <;> rw [h]
  · exact ⟨rfl, rfl⟩
  · exact ⟨completeMove_sansClaim _ e _ b, (queueOnly_completeMove _ e _).store⟩

theorem exec_threaded {s : State} {b : Bay} (cls : Nat) (wp : Bool) (ho : (s.drive b).order = some .thread) :
    exec (.threaded b cls wp) s
      = .next (pump (if supportedClass cls then threadedGood s b cls wp else threadedBad s b)) := if_pos ho

theorem threaded_frame {s t : State} {b : Bay} {cls : Nat} {wp : Bool} (hx : exec (.threaded b cls wp) s = .next t) :
    t.buffer = s.buffer ∧ t.streams = s.streams ∧ t.settings = s.settings := by
  have hleaves := exec_leaves _ s t hx
  have hbuffer := congrArg State.buffer hleaves
  have hstreams := congrArg State.streams hleaves
  exact ⟨hbuffer, hstreams, exec_settings hx (by simp) (by simp)⟩

/-- The load's entry taken back to the picker. -/
theorem threadFailed_queue {s : State} {b : Bay} {e : MoveEntry} (h : threadWaiter s b = some e) :
    ∃ x ∈ (threadFailed s b).picker.queue, x.number = e.number ∧ x.replied = true ∧ x.leg = .threadReturn := by
  rw [threadFailed, h]
  exact ⟨{ e with replied := true, leg := .threadReturn },
    List.mem_map.2 ⟨e, List.mem_of_find?_eq_some h, if_pos rfl⟩, rfl, rfl, rfl⟩

theorem threadFailed_rest (s : State) (b : Bay) : (threadFailed s b).drives = s.drives ∧ (threadFailed s b).store = s.store
    ∧ (threadFailed s b).elements = s.elements := by
  unfold threadFailed
  split <;> exact ⟨rfl, rfl, rfl⟩

theorem setReplied_queue {s : State} {e : MoveEntry} (h : e ∈ s.picker.queue) :
    ∃ x ∈ (setReplied s e).picker.queue, x.number = e.number ∧ x.replied = true :=
  ⟨{ e with replied := true }, List.mem_map.2 ⟨e, h, if_pos rfl⟩, rfl, rfl⟩

/-- The answered order leaves none outstanding. -/
theorem answered_order (d : Drive) (st : DriveState) : (d.answered st).order = none ∧ (d.answered st).state = st
    ∧ (d.answered st).volume = d.volume ∧ (d.answered st).claim = d.claim ∧ (d.answered st).position = d.position
    ∧ (d.answered st).activity = d.activity := ⟨rfl, rfl, rfl, rfl, rfl, rfl⟩

/-- Settles O49. -/
theorem threadingReported : Obligations.ThreadingReported := by
  refine ⟨fun s b cls wp ho h1 h3 => ?_, fun s b cls wp ho hbad => ?_, fun s b ho => ?_, fun s b e ho hw hdest => ?_⟩
  · have hsup : supportedClass cls = true := by simp [supportedClass, h1, h3]
    have hx := exec_threaded cls wp ho
    rw [hsup, if_pos rfl] at hx
    obtain ⟨hbuffer, hstreams, hset⟩ := threaded_frame hx
    obtain ⟨hd, hstore⟩ := threadedGood_sansClaim s b cls wp
    obtain ⟨hstate, hvolume, -, hpos, -, -, -, horder, -⟩ := Drive.eq_of_sansClaim hd
    rw [threadNoted_drive] at hstate hvolume hpos horder
    refine ⟨_, hx, ?_, ?_, ?_, ?_, fun v hv => ?_, fun e he => ?_, hbuffer, hstreams, hset⟩
    · rw [pump_drive]; exact hstate
    · rw [pump_drive]; exact hpos
    · rw [pump_drive]; exact hvolume
    · rw [pump_drive]; exact horder
    · rw [pump_driveVolume]
      exact modDriveVolume_driveVolume (t := threadedGood s b cls wp) (f := fun v => v.threaded cls wp) (fun _ => rfl) hv hvolume hstore
    · rcases threadedGood_cases s b cls wp with ⟨hn, -⟩ | ⟨e', he', h⟩
      · rw [hn] at he
        cases he
      · cases he'.symm.trans he
        rw [pump_picker, h]
        exact entryGone_completeMove _ e _
  · have hsup : supportedClass cls = false := by
      rcases hbad with rfl | h
      · rfl
      · simp [supportedClass, h]
    have hx := exec_threaded cls wp ho
    rw [hsup, if_neg Bool.false_ne_true] at hx
    have hdrive : (threadedBad s b).drive b = { ((s.drive b).answered .empty).issue (.unthread true) .unthreading with
        position := some ⟨some 0, some 0⟩, continuation := none } := (modDrive_at s b b _).trans (if_pos rfl)
    refine ⟨_, hx, ?_, ?_, ?_, rfl, rfl, rfl⟩
    all_goals rw [pump_drive, hdrive]
    all_goals rfl
  · have hx : exec (.threadFault b) s = .next (pump (loadFailed s b Drive.emptied)) := if_pos ho
    obtain ⟨hdrives, hstore, hel⟩ := threadFailed_rest ((modDriveVolume s b Volume.hardError).modDrive b Drive.emptied) b
    have hdrive : (loadFailed s b Drive.emptied).drive b = (s.drive b).emptied := by
      rw [loadFailed, State.drive, hdrives]
      refine (modDrive_at _ b b Drive.emptied).trans ?_
      rw [if_pos rfl, modDriveVolume_drive]
    refine ⟨_, hx, ?_, ?_, ?_, ?_, ?_, fun l v hl hv => ?_, fun e he => ?_, ?_, ?_⟩
    · rw [pump_drive, hdrive]; rfl
    · rw [pump_drive, hdrive]; rfl
    · rw [pump_drive, hdrive]; rfl
    · rw [pump_drive, hdrive]; rfl
    · rw [pump_drive, hdrive]; rfl
    · have hmod : modDriveVolume s b Volume.hardError = modVolume s l Volume.hardError := by rw [modDriveVolume, hl]
      rw [pump_volume, loadFailed, volume_of_store hstore, modDrive_volume, hmod, volume_modVolume _ _ _ Volume.hardError fun _ => rfl,
          hv]
      simp only [Option.map_some, if_true]
      rfl
    · rw [pump_picker, loadFailed]
      refine threadFailed_queue ?_
      rw [threadWaiter_of_picker (s := s) (by rw [State.modDrive_picker, modDriveVolume_picker])]
      exact he
    · rw [pump_elements, loadFailed, hel]
      simp
    · rw [pump_buffer]
      simp
  · have hx : exec (.ejected b) s = .next (pump (unloadDone s b)) := by
      change execEjected b s = _
      rw [execEjected, ho]
      rfl
    obtain ⟨d, hd⟩ := Option.isSome_iff_exists.1 hdest
    have hw' : unthreadWaiter (s.modDrive b Drive.ejected) b = some e := hw
    have hdone : unloadDone s b = setReplied (s.modDrive b Drive.ejected) e := by
      unfold unloadDone
      dsimp only
      rw [hw']
      dsimp only
      rw [unloadEjected, hd]
    have hdrive : (unloadDone s b).drive b = (s.drive b).ejected := by
      rw [hdone]
      exact (modDrive_at s b b Drive.ejected).trans (if_pos rfl)
    refine ⟨_, hx, ?_, ?_, ?_, ?_, ?_, ?_, ?_, ?_⟩
    · rw [pump_drive, hdrive]; rfl
    · rw [pump_drive, hdrive]; rfl
    · rw [pump_drive, hdrive]; rfl
    · rw [pump_drive, hdrive]; rfl
    · rw [pump_picker, hdone]
      exact setReplied_queue (List.mem_of_find?_eq_some hw')
    · rw [pump_store, hdone]; rfl
    · rw [pump_elements, hdone]; rfl
    · rw [pump_buffer, hdone]; rfl

/-! ### A bay goes down (R69, R70) -/

theorem streamFault_drive {s : State} {b : Bay} (code : FaultCode) (h : (s.drive b).activity = .none) :
    (streamFault s b code).drive b = s.drive b := by
  have still : ∀ d : Drive, d.activity = .none → d.sansStream = d := by
    intro d hd
    rw [Drive.sansStream, hd]
  have closed : ∀ t : State, t.drive b = s.drive b → (closeStream t b).drive b = s.drive b := by
    intro t ht
    rw [closeStream_drive, ht, still _ h]
  have cleared : ∀ t : State, t.drive b = s.drive b → (clearStreamActivity t b).drive b = s.drive b := by
    intro t ht
    rw [clearStreamActivity, modDrive_at, if_pos rfl, ht]
    exact still _ h
  unfold streamFault
  dsimp only
  split
  · exact closed _ (congrArg (PerBay.get · b) (by simp))
  · exact cleared _ (congrArg (PerBay.get · b) (by simp))

theorem activityDown_drive {s : State} {b : Bay} (a : Activity) (h : (s.drive b).activity = .none) :
    (activityDown s b a).drive b = s.drive b := by
  have same : ∀ {t : State}, t.drives = s.drives → t.drive b = s.drive b := fun ht => congrArg (PerBay.get · b) ht
  unfold activityDown
  split
  · exact streamFault_drive _ h
  · exact same (by simp)
  · exact same (by simp)
  · split
    · exact same (by simp)
    · rfl

theorem activityDown_picker (s : State) (b : Bay) (a : Activity) : (activityDown s b a).picker = s.picker := by
  simp

theorem moveDriveFault_sansClaim (s : State) (b a : Bay) : ((moveDriveFault s b).drive a).sansClaim = (s.drive a).sansClaim := by
  unfold moveDriveFault
  dsimp only
  split <;> split <;> simp only [completeMove_sansClaim]

theorem queueOnly_moveDriveFault (s : State) (b : Bay) : QueueOnly s (moveDriveFault s b) := by
  unfold moveDriveFault
  dsimp only
  split
  · next e _ =>
    split
    · next e' _ =>
      exact (queueOnly_completeMove s e' .driveFault).trans (queueOnly_completeMove (completeMove s e' .driveFault) e .driveFault)
    · exact queueOnly_completeMove s e .driveFault
  · split
    · next e _ => exact queueOnly_completeMove s e .driveFault
    · exact QueueOnly.refl s

theorem auditSilent_none {s : State} {b : Bay} (h : s.picker.audit = none) : auditSilent s b = s := by
  rw [auditSilent, h]
  rfl

theorem onBuffer_drive (s : State) (f : CreditEnv → Buffer → Buffer) (b : Bay) : (onBuffer s f).drive b = s.drive b :=
  congrArg (PerBay.get · b) (by simp)

theorem bayDown_eq (s : State) (b : Bay) (st : DriveState) : bayDown s b st
    = auditSilent (moveDriveFault (activityDown (s.modDrive b fun d => d.down st) b (s.drive b).activity) b) b := rfl

/-- A bay that goes down outside an audit: all of its context but the claim is that of R69. -/
theorem bayDown_drive {s : State} {b : Bay} {st : DriveState} (h : s.picker.audit = none) :
    ((bayDown s b st).drive b).sansClaim = ((s.drive b).down st).sansClaim := by
  have hdown : (s.modDrive b fun d => d.down st).drive b = (s.drive b).down st := (modDrive_at s b b _).trans (if_pos rfl)
  obtain ⟨q, n, u, hp⟩ :=
    (queueOnly_moveDriveFault (activityDown (s.modDrive b fun d => d.down st) b (s.drive b).activity) b).picker
  have haudit : (moveDriveFault (activityDown (s.modDrive b fun d => d.down st) b (s.drive b).activity) b).picker.audit = none := by
    rw [hp, activityDown_picker]
    exact h
  have hidle : ((s.modDrive b fun d => d.down st).drive b).activity = .none := by rw [hdown]; rfl
  rw [bayDown_eq, auditSilent_none haudit, moveDriveFault_sansClaim, activityDown_drive _ hidle, hdown]

/-- Settles O55. -/
theorem baysGoDown : Obligations.BaysGoDown := by
  intro s b haudit
  have down : ∀ (c : Instr) (st : DriveState), exec c s = .next (pump (onBuffer (bayDown s b st) settle)) →
      (∀ a b d e, c ≠ .powerOn a b d e ∧ c ≠ .boardReset a b d e) → c ≠ .settingsStoreWriteComplete →
      ∃ t, exec c s = .next t ∧ (t.drive b).state = st
      ∧ (t.drive b).activity = .none ∧ (t.drive b).position = some ⟨none, none⟩ ∧ (t.drive b).continuation = none
      ∧ (t.drive b).owes = false ∧ (t.drive b).timer = .stopped ∧ (t.drive b).volume = (s.drive b).volume
      ∧ t.settings = s.settings := by
    intro c st hx hr hw
    have hset := exec_settings hx hr hw
    obtain ⟨hstate, hvolume, hact, hpos, hcont, hfl, hgap, hord, htimer⟩ := Drive.eq_of_sansClaim (bayDown_drive (st := st) haudit)
    have hdrive : (pump (onBuffer (bayDown s b st) settle)).drive b = (bayDown s b st).drive b := by
      rw [pump_drive, onBuffer_drive]
    refine ⟨_, hx, ?_⟩
    rw [hdrive]
    refine ⟨hstate, hact, hpos, hcont, ?_, htimer, hvolume, hset⟩
    rw [Drive.owes, hfl, hgap, hord]
    rfl
  refine ⟨fun howes hoff => ?_, fun hrun => ?_⟩
  · refine down _ .faulted ?_ (by simp) (by simp)
    change execFault b s = _
    rw [execFault, if_pos (by simp [howes, hoff])]
    rfl
  · refine down _ .offline ?_ (by simp) (by simp)
    change execReplyTimerExpiry b s = _
    rw [execReplyTimerExpiry, if_pos hrun]
    rfl

/-! ### Positioning (R61) -/

theorem onBuffer_verifyRun (s : State) (f : CreditEnv → Buffer → Buffer) (b : Bay) : (onBuffer s f).verifyRun b = s.verifyRun b :=
  congrArg (fun x => (PerBay.get x b).current) (show (onBuffer s f).verifies = s.verifies by simp)

theorem openingDone_at {s : State} {b : Bay} {p : Port} (f : Nat) (hp : (s.stream b).port = some p) :
    (openingDone s b f).stream b = { s.stream b with state := .open, openTag := none }
    ∧ (openingDone s b f).drive b = { s.drive b with activity := .stream p } := by
  have hst : (openVolume s b p f).stream b = s.stream b := congrArg (PerBay.get · b) (by simp)
  have hdr : (openVolume s b p f).drive b = s.drive b := congrArg (PerBay.get · b) (by simp)
  have held : ∀ (t : State) (tag : Option Byte) (body : ReplyBody), (answerHeld t p tag .openStream .done body).stream b = t.stream b
      ∧ (answerHeld t p tag .openStream .done body).drive b = t.drive b := fun t tag body =>
    ⟨congrArg (PerBay.get · b) (by simp), congrArg (PerBay.get · b) (by simp)⟩
  unfold openingDone
  rw [hp]
  dsimp only
  rw [(held _ _ _).1, (held _ _ _).2, State.modDrive_read_stream, modStream_at, if_pos rfl, modDrive_at, if_pos rfl,
    State.modStream_read_drive, hst, hdr]
  exact ⟨rfl, rfl⟩

theorem verifyEnds_at {s : State} {b : Bay} {r : VerifyRun} (code : ReplyCode) (block : Option Nat) (hr : s.verifyRun b = some r)
    (he : r.ending = none) : (verifyEnds s b code block).verifyRun b = some { r with phase := .ending, ending := some ⟨code, block⟩ } :=
        by
  rw [verifyEnds, modVerify_at, if_pos rfl, hr]
  simp [he]

/-- Settles O51. -/
theorem positioningReported : Obligations.PositioningReported := by
  refine ⟨fun s b a frame p ho hst hab hp => ?_, fun s b a r ho hst hres hver hend => ?_⟩
  · set u := s.modDrive b fun d => { d.answered .idle with position := some ⟨some a, some frame⟩ } with hu
    have hdrive : u.drive b = { (s.drive b).answered .idle with position := some ⟨some a, some frame⟩ } :=
      (modDrive_at s b b _).trans (if_pos rfl)
    have hx : exec (.located b a frame) s = .next (pump (onBuffer (openingDone u b frame) settle)) := by
      change execLocated b a frame s = _
      simp [execLocated, ho, positionReported, hst, hab, u, finishCredit, finish]
    obtain ⟨hstream, hdr⟩ := openingDone_at (s := u) frame hp
    have hopened := openingReported_of_located ho hst hab hp rfl hx
    refine ⟨_, hx, ?_, ?_, ?_, ?_, ?_, fun v hv => ?_, ?_, ?_⟩
    · rw [pump_drive, onBuffer_drive, hdr, hdrive]
    · rw [pump_drive, onBuffer_drive, hdr, hdrive]; rfl
    · rw [pump_drive, onBuffer_drive, hdr, hdrive]; rfl
    · rw [pump_drive, onBuffer_drive, hdr]
    · rw [pump_stream, onBuffer_stream, hstream]
    · rw [hopened.driveVolume hv]
      rfl
    · rw [pump_elements]; simp [hu]
    · rw [pump_picker]; simp [hu]
  · set u := s.modDrive b fun d => d.answered .idle with hu
    have hdrive : u.drive b = (s.drive b).answered .idle := (modDrive_at s b b _).trans (if_pos rfl)
    have hlocate : locateBlank u b a = verifyEnds u b .readFault (some a) := by
      have hst' : (u.stream b).state ≠ .opening := hst
      have hres' : u.restore b = none := hres
      rw [locateBlank, if_neg hst', hres', if_neg (by simp)]
    have hx : exec (.blank b) s = .next (pump (onBuffer (verifyEnds u b .readFault (some a)) settle)) := by
      rw [← hlocate]
      change execBlank b s = _
      simp [execBlank, ho, finishCredit, finish, u]
    have hends := verifyEnds_at (s := u) .readFault (some a) hver hend
    have hd : (verifyEnds u b .readFault (some a)).drive b = u.drive b := congrArg (PerBay.get · b) (by simp)
    refine ⟨_, { r with phase := .ending, ending := some ⟨.readFault, some a⟩ }, hx, ?_, rfl, rfl, ?_, ?_, ?_, ?_, ?_, ?_⟩
    · rw [pump_verifyRun, onBuffer_verifyRun, hends]
    · rw [pump_drive, onBuffer_drive, hd, hdrive]; rfl
    · rw [pump_drive, onBuffer_drive, hd, hdrive]; rfl
    · rw [pump_drive, onBuffer_drive, hd, hdrive]; rfl
    · rw [pump_store]; simp [hu]
    · rw [pump_elements]; simp [hu]
    · rw [pump_picker]; simp [hu]

end Sys2Proof.Machine
end

section
/-! PROOFS. What STATUS leaves (R59): the bay rebuilt, and the audit that asked for it. -/

namespace Sys2Proof.Machine

/-! ### No entry waits for a drive -/

/-- No entry of the queue waits for a THREAD or an UNTHREAD. -/
def State.noneWaits (s : State) : Prop := ∀ e ∈ s.picker.queue, e.phase ≠ .threadWait ∧ e.phase ≠ .unthreadWait

theorem noneWaits_of_queue {s t : State} (h : t.picker.queue = s.picker.queue) (hs : s.noneWaits) : t.noneWaits := by
  rw [State.noneWaits, h]
  exact hs

theorem noneWaits_acceptEntry {s : State} (h : s.noneWaits) (q : Requester) (kind : MoveKind) (src : Nat) (dst : Option Nat)
    (l : Option Label) : (acceptEntry s q kind src dst l .queued).noneWaits := by
  intro e he
  have hq : ∃ n, (acceptEntry s q kind src dst l .queued).picker.queue
      = s.picker.queue ++ [⟨n, q, kind, src, dst, l, .queued, .outward, false⟩] := by
    unfold acceptEntry
    cases dst <;> exact ⟨_, rfl⟩
  obtain ⟨n, hq⟩ := hq
  rw [hq] at he
  rcases List.mem_append.1 he with he | he
  · exact h e he
  · obtain rfl := List.mem_singleton.1 he
    exact ⟨by simp, by simp⟩

theorem noneWaits_queueOwedUnload {s : State} (h : s.noneWaits) (b : Bay) : (queueOwedUnload s b).noneWaits := by
  unfold queueOwedUnload
  split
  · exact noneWaits_acceptEntry h _ _ _ _ _
  · exact h

theorem noneWaits_queueOwedUnloads {s : State} (h : s.noneWaits) : (queueOwedUnloads s).noneWaits :=
  noneWaits_queueOwedUnload (noneWaits_queueOwedUnload h .d0) .d1

theorem noneWaits_queueReturn {s : State} (h : s.noneWaits) (q : Nat) (l : Label) (owner : Option Port) :
    (queueReturn s q l owner).noneWaits := by
  unfold queueReturn
  dsimp only
  split
  · split
    · exact noneWaits_acceptEntry (noneWaits_queueOwedUnloads h) _ _ _ _ _
    · exact noneWaits_queueOwedUnloads h
  · exact noneWaits_queueOwedUnloads h

theorem vacate_queue (s : State) (old : Location) (q : Nat) : (vacate s old q).picker.queue = s.picker.queue := by
  unfold vacate
  split
  · split <;> rfl
  · rfl
  · rfl

theorem noneWaits_reconcile {s : State} (h : s.noneWaits) (q : Nat) (read : Option Label) (done : List Nat) :
    (reconcile s q read done).noneWaits := by
  unfold reconcile
  extract_lets s1
  split
  · exact h
  · split
    · split <;> exact h
    · split
      · exact h
      · next l _ v _ _ =>
        have hloc : (setLocation (vacate s1 v.location q) l q).noneWaits := noneWaits_of_queue (vacate_queue s1 v.location q) h
        dsimp only
        split
        · exact hloc
        · exact noneWaits_queueReturn (s := setElem (setLocation (vacate s1 v.location q) l q) q (.full (some l) .misplaced)) hloc q l
            v.owner

theorem noneWaits_markOwed {s : State} (h : s.noneWaits) (b : Bay) : (markOwed s b).noneWaits := by
  unfold markOwed
  split
  · exact h
  · exact noneWaits_queueOwedUnloads h

theorem noneWaits_bayWaits {s : State} (h : s.noneWaits) (b : Bay) : bayWaits s b = false := by
  rw [bayWaits, List.any_eq_false]
  intro e he
  simp [h e he]

/-! ### A cartridge found (R22) -/

theorem vacate_installed (s : State) (old : Location) (q r : Nat) : (vacate s old q).installed r = s.installed r := by
  unfold vacate
  split
  · split
    · rfl
    · exact setElem_installed s _ _ r
  · exact setElem_installed s _ _ r
  · rfl

/-- Whatever label is read, the element is FULL with it. -/
theorem reconcile_full {s : State} {q : Nat} (h : s.installed q = true) (l : Option Label) (done : List Nat) :
    ∃ c, (reconcile s q l done).elemState q = some (.full l c) := by
  unfold reconcile
  extract_lets s1
  have hs1 : s1.installed q = true := h
  split
  · exact ⟨_, setElem_elemState_same _ hs1⟩
  · next l =>
    split
    · split
      · exact ⟨_, setElem_elemState_same (s := setVolumes s1 _) _ hs1⟩
      · exact ⟨_, setElem_elemState_same _ hs1⟩
    · next v _ =>
      split
      · exact ⟨_, setElem_elemState_same _ hs1⟩
      · have hloc : (setLocation (vacate s1 v.location q) l q).installed q = true := (vacate_installed s1 v.location q q).trans hs1
        dsimp only
        split
        · exact ⟨_, setElem_elemState_same _ hloc⟩
        · exact ⟨_, ((queueOnly_queueReturn _ q l v.owner).elemState q).trans (setElem_elemState_same _ hloc)⟩

/-! ### What STATUS leaves before the audit goes on -/

/-- From s to t: the picker but for its queue and its audit's notes, the other bay's drive, and the context that STATUS sets. -/
structure StatusLeft (s t : State) (b : Bay) (d : Drive) : Prop where
  held : t.picker.held = s.picker.held
  audit : ∀ a, s.picker.audit = some a → ∃ m n r, t.picker.audit = some { a with markedFor := m, noted := n, readDone := r }
  silent : s.picker.audit = none → t.picker.audit = none
  waits : s.noneWaits → t.noneWaits
  drive : t.drive b = d
  other : t.drive b.other = s.drive b.other

theorem queueOnly_markOwed (s : State) (b : Bay) : QueueOnly s (markOwed s b) := by
  unfold markOwed
  split
  · exact QueueOnly.refl s
  · have noted : QueueOnly s (s.modPicker fun k => { k with unloadOwed := k.unloadOwed.set b true }) :=
      .of_elements rfl ⟨_, _, _, rfl⟩ rfl
    exact noted.trans (queueOnly_queueOwedUnloads _)

theorem queueOnly_owedAtStart (s : State) (b : Bay) : QueueOnly s (owedAtStart s b) := by
  unfold owedAtStart
  split
  · exact queueOnly_markOwed s b
  · exact QueueOnly.refl s

theorem noneWaits_owedAtStart {s : State} (h : s.noneWaits) (b : Bay) : (owedAtStart s b).noneWaits := by
  unfold owedAtStart
  split
  · exact noneWaits_markOwed h b
  · exact h

/-- The state of a cartridge present, before its class is noted. -/
def statusSet (s : State) (b : Bay) (l : Option Label) (threaded : Bool) (cls : Nat) : State :=
  owedAtStart ((reconcile s (bayPea b) l []).modDrive b fun d =>
    d.fromStatus threaded cls ((l.bind (reconcile s (bayPea b) l []).volume).map (·.label))) b

theorem statusPresent_eq (s : State) (b : Bay) (l : Option Label) (threaded : Bool) (cls : Nat) (wp : Bool) :
    statusPresent s b l threaded cls wp = statusSet s b l threaded cls
    ∨ statusPresent s b l threaded cls wp = modDriveVolume (statusSet s b l threaded cls) b fun v => v.threaded cls wp := by
  unfold statusPresent statusSet
  dsimp only
  split
  · exact .inr rfl
  · exact .inl rfl

theorem bay_other_ne (b : Bay) : b.other ≠ b := by cases b <;> decide

theorem statusSet_left (s : State) (b : Bay) (l : Option Label) (threaded : Bool) (cls : Nat) : StatusLeft s (statusSet s b l threaded
    cls)
    b ((s.drive b).fromStatus threaded cls ((l.bind (reconcile s (bayPea b) l []).volume).map (·.label))) := by
  have hread := readingOnly_reconcile s (bayPea b) l []
  set u := reconcile s (bayPea b) l [] with hu
  set w := u.modDrive b fun d => d.fromStatus threaded cls ((l.bind u.volume).map (·.label)) with hw
  have hdrives : (owedAtStart w b).drives = w.drives := by simp [owedAtStart]
  obtain ⟨q, n, o, hp⟩ := (queueOnly_owedAtStart w b).picker
  obtain ⟨q', n', o', pend, owed, aud, hp'⟩ := hread.picker
  have hset : statusSet s b l threaded cls = owedAtStart w b := rfl
  rw [hset]
  refine ⟨?_, fun a ha => ?_, fun ha => ?_, fun h => ?_, ?_, ?_⟩
  · rw [hp, hw, State.modDrive_picker, hp']
  · obtain ⟨m, n, r, h⟩ := hread.audit a ha
    exact ⟨m, n, r, by rw [hp]; exact h⟩
  · rw [hp]
    exact hread.silent ha
  · exact noneWaits_owedAtStart (s := w) (noneWaits_reconcile h _ _ _) b
  · rw [State.drive, hdrives]
    refine (modDrive_at u b b _).trans ?_
    rw [if_pos rfl, State.drive, hread.drives]
    rfl
  · rw [State.drive, hdrives]
    refine (modDrive_at u b b.other _).trans ?_
    rw [if_neg (bay_other_ne b), State.drive, hread.drives]
    rfl

theorem StatusLeft.of_same {s t u : State} {b : Bay} {d : Drive} (h : StatusLeft s t b d) (hp : u.picker = t.picker)
    (hd : u.drives = t.drives) : StatusLeft s u b d := by
  have hdrive : ∀ a, u.drive a = t.drive a := fun a => congrArg (PerBay.get · a) hd
  exact ⟨by rw [hp]; exact h.held, fun a ha => by rw [hp]; exact h.audit a ha, fun ha => by rw [hp]; exact h.silent ha,
    fun hw => noneWaits_of_queue (by rw [hp]) (h.waits hw), by rw [hdrive, h.drive], by rw [hdrive, h.other]⟩

theorem statusPresent_left (s : State) (b : Bay) (l : Option Label) (threaded : Bool) (cls : Nat) (wp : Bool) :
    StatusLeft s (statusPresent s b l threaded cls wp) b
      ((s.drive b).fromStatus threaded cls ((l.bind (reconcile s (bayPea b) l []).volume).map (·.label))) := by
  have h := statusSet_left s b l threaded cls
  rcases statusPresent_eq s b l threaded cls wp with he | he <;> rw [he]
  · exact h
  · exact h.of_same (modDriveVolume_picker _ _ _) (modDriveVolume_drives _ _ _)

theorem statusAbsent_left (s : State) (b : Bay) : StatusLeft s (statusAbsent s b) b ((s.drive b).fromStatus false 0 none) := by
  have hread := readingOnly_foundEmpty s (bayPea b) true
  obtain ⟨hp, -, hd⟩ := emptied_rest s (bayPea b) true
  have hpicker : (foundEmpty s (bayPea b) true).picker = s.picker := by rw [foundEmpty_eq, setElem_picker, hp]
  refine ⟨by rw [statusAbsent, State.modDrive_picker, hpicker], fun a ha => hread.audit a ha, fun ha => hread.silent ha,
    noneWaits_of_queue (by rw [statusAbsent, State.modDrive_picker, hpicker]), ?_, ?_⟩
  · rw [statusAbsent, modDrive_at, if_pos rfl, State.drive, hread.drives]
    rfl
  · rw [statusAbsent, modDrive_at, if_neg (bay_other_ne b), State.drive, hread.drives]
    rfl

/-! ### The audit after the answer -/

theorem completeFull_picker (u : State) (x : AuditRun) : (completeFull u x).picker.audit = none
    ∧ (completeFull u x).picker.condition = .ready ∧ (completeFull u x).picker.state = .idle
    ∧ (completeFull u x).picker.startupDue = false ∧ (completeFull u x).picker.held = u.picker.held := by
  unfold completeFull
  extract_lets ws rs s1
  obtain ⟨q, n, o, hp⟩ := (queueOnly_queueOwedUnloads
    (importNotice (answerAll (answerAll (setCondition s1 .ready) .audit .done ws) .recover .done rs) x)).picker
  rw [hp, importNotice_picker]
  have hanswers : (answerAll (answerAll (setCondition s1 .ready) .audit .done ws) .recover .done rs).picker
      = (setCondition s1 .ready).picker := by simp
  rw [hanswers, setCondition_picker]
  exact ⟨rfl, rfl, rfl, rfl, rfl⟩

theorem completeFull_elemState (u : State) (x : AuditRun) (q : Nat) : (completeFull u x).elemState q = u.elemState q := by
  unfold completeFull
  extract_lets ws rs s1
  rw [(queueOnly_queueOwedUnloads _).elemState]
  exact elemState_of_elements (by simp [s1]) q

/-- What the audit's going on leaves: the elements, the volumes and the drive of the bay that answered. -/
structure AuditLeaves (s t : State) (b : Bay) : Prop where
  elemState : ∀ q, t.elemState q = s.elemState q
  store : t.store = s.store
  drive : t.drive b = s.drive b

theorem AuditLeaves.refl (s : State) (b : Bay) : AuditLeaves s s b := ⟨fun _ => rfl, rfl, rfl⟩

theorem auditLeaves_completeFull (u : State) (x : AuditRun) (b : Bay) : AuditLeaves u (completeFull u x) b := by
  have hd : (completeFull u x).drives = u.drives := by simp
  exact ⟨completeFull_elemState u x, by simp, congrArg (PerBay.get · b) hd⟩

theorem auditLeaves_issueQuery (u : State) (f : Picker → Picker) (b : Bay) : AuditLeaves u (issueQuery (u.modPicker f) b.other) b := by
  refine ⟨fun q => rfl, rfl, ?_⟩
  rw [issueQuery, modDrive_at, if_neg (bay_other_ne b).symm]
  rfl

/-- A full audit that waits for this bay, the last one, or has the other bay still to ask at start-up. -/
def auditAsks (s : State) (b : Bay) : Prop :=
  ∀ a, s.picker.audit = some a → a.full = true ∧ a.asking = some b ∧ (a.bays = [] ∨ (a.bays = [b.other] ∧ a.startup = true
    ∧ (s.drive b.other).owes = false ∧ (s.picker.queue.all fun e => e.phase ≠ .threadWait && e.phase ≠ .unthreadWait) = true))

theorem noneWaits_of_all {s : State} (h : (s.picker.queue.all fun e => e.phase ≠ .threadWait && e.phase ≠ .unthreadWait) = true) :
    s.noneWaits := by
  intro e he
  simpa using List.all_eq_true.1 h e he

theorem bayAnswer_startup {u : State} {b : Bay} (hwait : bayWaits u b = false) (howes : (u.drive b).owes = false) :
    bayAnswer u b true = .query := by
  simp [bayAnswer, hwait, howes]

theorem afterAudit_free {s : State} (h : s.picker.held = none) : afterAudit s = s := by
  simp [afterAudit, h]

/-- The bay's answer taken: what it leaves alone, and what the audit does next. -/
structure AuditGoesOn (s u t : State) (b : Bay) : Prop extends AuditLeaves u t b where
  held : t.picker.held = none
  complete : ∀ a, s.picker.audit = some a → a.bays = [] →
    t.picker.audit = none ∧ t.picker.condition = .ready ∧ t.picker.state = .idle ∧ t.picker.startupDue = false
  asks : ∀ a, s.picker.audit = some a → a.bays = [b.other] → (t.drive b.other).order = some .query
    ∧ ∃ x, t.picker.audit = some x ∧ x.asking = some b.other ∧ x.bays = []

theorem bayAnswered_asking {u : State} {b : Bay} {x : AuditRun} (h : u.picker.audit = some x) (hasking : x.asking = some b) :
    bayAnswered u b = askBays x x.bays (u.modPicker fun k => { k with audit := some { x with asking := none } }) := by
  rw [bayAnswered, h]
  exact if_pos hasking

theorem bayAnswered_goesOn {s u : State} {b : Bay} {d : Drive} (hleft : StatusLeft s u b d) (hheld : s.picker.held = none)
    (hasks : auditAsks s b) : AuditGoesOn s u (bayAnswered u b) b := by
  have hnone : u.picker.held = none := hleft.held.trans hheld
  cases ha : s.picker.audit with
  | none =>
    have hsame : bayAnswered u b = u := by rw [bayAnswered, hleft.silent ha]
    rw [hsame]
    exact ⟨.refl u b, hnone, by simp [ha], by simp [ha]⟩
  | some a =>
    obtain ⟨-, hasking, hbays⟩ := hasks a ha
    obtain ⟨m, n, r, hx⟩ := hleft.audit a ha
    rw [bayAnswered_asking hx hasking]
    rcases hbays with hbays | ⟨hbays, hstart, howes, hwaits⟩
    · simp only [hbays, askBays]
      obtain ⟨haudit, hcond, hstate, hdue, hkept⟩ := completeFull_picker (u.modPicker fun k =>
        { k with audit := some { a with markedFor := m, noted := n, readDone := r, asking := none } })
        { a with markedFor := m, noted := n, readDone := r, asking := none }
      have hl := auditLeaves_completeFull (u.modPicker fun k =>
        { k with audit := some { a with markedFor := m, noted := n, readDone := r, asking := none } })
        { a with markedFor := m, noted := n, readDone := r, asking := none } b
      refine ⟨⟨hl.elemState, hl.store, hl.drive⟩, hkept.trans hnone, fun _ _ _ => ⟨haudit, hcond, hstate, hdue⟩, fun c hc hcb => ?_⟩
      obtain rfl : a = c := Option.some.inj (ha.symm.trans hc)
      simp [hbays] at hcb
    · have hquery : bayAnswer (u.modPicker fun k => { k with
          audit := some { a with markedFor := m, noted := n, readDone := r, asking := none } }) b.other a.startup = .query := by
        rw [hstart]
        exact bayAnswer_startup (noneWaits_bayWaits (hleft.waits (noneWaits_of_all hwaits)) _)
          ((congrArg Drive.owes hleft.other).trans howes)
      rw [askBays_query (x := { a with markedFor := m, noted := n, readDone := r }) hbays hquery]
      have hquestion := auditLeaves_issueQuery (u.modPicker fun k => { k with
        audit := some { a with markedFor := m, noted := n, readDone := r, asking := none } })
        (fun k => { k with audit := k.audit.map fun a => { a with bays := [], asking := some b.other } }) b
      refine ⟨⟨hquestion.elemState, hquestion.store, hquestion.drive⟩, hnone, fun c hc hcb => ?_, fun c hc _ => ?_⟩
      · obtain rfl : a = c := Option.some.inj (ha.symm.trans hc)
        simp [hbays] at hcb
      · refine ⟨?_, _, rfl, rfl, rfl⟩
        rw [issueQuery, modDrive_at, if_pos rfl]
        split
        · assumption
        · rfl

/-! ### STATUS -/

/-- The state that STATUS leaves before the audit goes on. -/
def statusTaken (s : State) (b : Bay) (present : Bool) (l : Option Label) (threaded : Bool) (cls : Nat) (wp : Bool) : State :=
  if present then statusPresent s b l threaded cls wp else statusAbsent s b

theorem statusTaken_left (s : State) (b : Bay) (present : Bool) (l : Option Label) (threaded : Bool) (cls : Nat) (wp : Bool) :
    ∃ d, StatusLeft s (statusTaken s b present l threaded cls wp) b d := by
  unfold statusTaken
  split
  · exact ⟨_, statusPresent_left s b l threaded cls wp⟩
  · exact ⟨_, statusAbsent_left s b⟩

theorem exec_status {s : State} {b : Bay} (ho : (s.drive b).order = some .query) (hheld : s.picker.held = none) (hasks : auditAsks s b)
    (present : Bool) (l : Option Label) (threaded : Bool) (cls : Nat) (wp : Bool) :
    ∃ u, exec (.status b present l threaded cls wp) s = .next (pump u)
      ∧ AuditGoesOn s (statusTaken s b present l threaded cls wp) u b := by
  obtain ⟨d, hleft⟩ := statusTaken_left s b present l threaded cls wp
  have hgoes := bayAnswered_goesOn hleft hheld hasks
  refine ⟨_, ?_, hgoes⟩
  change execStatus b present l threaded cls wp s = _
  rw [execStatus, if_pos ho]
  exact congrArg finish (afterAudit_free hgoes.held)

theorem status_frame {s t : State} {b : Bay} {present threaded wp : Bool} {l : Option Label} {cls : Nat}
    (hx : exec (.status b present l threaded cls wp) s = .next t) : t.buffer = s.buffer := by
  have hleaves := exec_leaves _ s _ hx
  have hbuffer := congrArg State.buffer hleaves
  exact hbuffer

theorem statusSet_elemState {s : State} {b : Bay} (hb : s.installed (bayPea b) = true) (l : Option Label) (threaded : Bool) (cls : Nat) :
    ∃ c, (statusSet s b l threaded cls).elemState (bayPea b) = some (.full l c) := by
  obtain ⟨c, hc⟩ := reconcile_full hb l []
  exact ⟨c, ((queueOnly_owedAtStart _ b).elemState _).trans hc⟩

theorem statusPresent_elemState {s : State} {b : Bay} (hb : s.installed (bayPea b) = true) (l : Option Label) (threaded : Bool)
    (cls : Nat) (wp : Bool) : ∃ c, (statusPresent s b l threaded cls wp).elemState (bayPea b) = some (.full l c) := by
  obtain ⟨c, hc⟩ := statusSet_elemState hb l threaded cls
  rcases statusPresent_eq s b l threaded cls wp with he | he <;> rw [he]
  · exact ⟨c, hc⟩
  · exact ⟨c, (elemState_of_elements (by simp) _).trans hc⟩

theorem modDriveVolume_isSome {s : State} {b : Bay} {f : Volume → Volume} (hf : ∀ v, (f v).label = v.label) {k : Label}
    (h : (s.volume k).isSome = true) : ((modDriveVolume s b f).volume k).isSome = true := by
  unfold modDriveVolume
  split
  · next l _ =>
    rw [volume_modVolume s l k f hf, Option.isSome_map]
    exact h
  · exact h

theorem statusPresent_volume {s : State} {b : Bay} {l : Option Label} (threaded : Bool) (cls : Nat) (wp : Bool) {k : Label}
    (hk : (l.bind (reconcile s (bayPea b) l []).volume).map (·.label) = some k) :
    l = some k ∧ ((statusPresent s b l threaded cls wp).volume k).isSome = true := by
  cases l with
  | none => simp at hk
  | some l =>
    obtain ⟨v, hv, hvk⟩ := Option.map_eq_some_iff.1 hk
    have hv : (reconcile s (bayPea b) (some l) []).volume l = some v := hv
    obtain rfl : l = k := (volume_label hv).symm.trans hvk
    have hset : ((statusSet s b (some l) threaded cls).volume l).isSome = true := by
      have hvol := (queueOnly_owedAtStart ((reconcile s (bayPea b) (some l) []).modDrive b fun d =>
        d.fromStatus threaded cls (((some l).bind (reconcile s (bayPea b) (some l) []).volume).map (·.label))) b).volume l
      rw [statusSet, hvol, modDrive_volume, hv]
      rfl
    refine ⟨rfl, ?_⟩
    rcases statusPresent_eq s b (some l) threaded cls wp with he | he <;> rw [he]
    · exact hset
    · exact modDriveVolume_isSome (f := fun v => v.threaded cls wp) (fun _ => rfl) hset

theorem supportedClass_of {cls : Nat} (h1 : 1 ≤ cls) (h3 : cls ≤ 3) : supportedClass cls = true := by
  simp [supportedClass, h1, h3]

/-- Settles O50. -/
theorem statusRebuilds : Obligations.StatusRebuilds := by
  intro s b ho hheld hb hfault hasks
  refine ⟨fun present threaded wp l cls => ?_, ?_, fun l cls wp h1 h3 => ?_⟩
  · obtain ⟨u, hx, hu⟩ := exec_status ho hheld hasks present l threaded cls wp
    refine ⟨_, hx, fun a ha hbays => ?_, fun a ha hbays => ?_⟩
    · rw [pump_picker]
      exact hu.complete a ha hbays
    · rw [pump_picker, pump_drive]
      exact hu.asks a ha hbays
  · obtain ⟨u, hx, hu⟩ := exec_status ho hheld hasks false none false 0 false
    have hleft := statusAbsent_left s b
    have hbuffer := status_frame hx
    have hdrive : (pump u).drive b = (s.drive b).fromStatus false 0 none := by
      rw [pump_drive, hu.drive]
      exact hleft.drive
    refine ⟨_, hx, ?_, ?_, ?_, ?_, ?_, hbuffer⟩
    · rw [pump_elemState, hu.elemState]
      exact (foundEmpty_elemState s (bayPea b) true _).trans (setElem_elemState_same _ hb)
    · rw [hdrive]
      rfl
    · rw [hdrive]
      rfl
    · rw [hdrive]
      rfl
    · have hstore : (pump u).store = (statusAbsent s b).store := (show (pump u).store = u.store by simp).trans hu.store
      rw [hstore]
      exact foundEmpty_noRecord s (bayPea b) true
  · obtain ⟨u, hx, hu⟩ := exec_status ho hheld hasks true l true cls wp
    have hleft := statusPresent_left s b l true cls wp
    have hbuffer := status_frame hx
    have hdrive : (pump u).drive b = (s.drive b).fromStatus true cls ((l.bind (reconcile s (bayPea b) l []).volume).map (·.label)) := by
      rw [pump_drive, hu.drive]
      exact hleft.drive
    refine ⟨_, hx, ?_, ?_, ?_, ?_, fun k hk => ?_, hbuffer⟩
    · rw [hdrive]
      simp [Drive.fromStatus, hfault, supportedClass_of h1 h3]
    · rw [hdrive]
      rfl
    · rw [hdrive]
      rfl
    · obtain ⟨c, hc⟩ := statusPresent_elemState hb l true cls wp
      have hel : (pump u).elemState (bayPea b) = some (.full l c) := by
        rw [pump_elemState, hu.elemState]
        exact hc
      rw [hel]
      simp [ElemState.isFull, ElemState.label]
    · rw [hdrive] at hk
      obtain ⟨hl, hsome⟩ := statusPresent_volume true cls wp hk
      refine ⟨hl, ?_⟩
      rw [pump_volume, volume_of_store hu.store]
      exact hsome

end Sys2Proof.Machine
end

section
/-! PROOFS. What an OPEN_STREAM that passes every test leaves (R99, R100). -/

namespace Sys2Proof.Machine

/-- Where the stream of an OPEN_STREAM starts. -/
def openStart (v : Volume) (mode : Byte) (n : Nat) : Nat := if mode = 1 then n else v.eod.getD 0

theorem acceptOpen_stands {s : State} {p : Port} {tag mode shrink : Byte} {b : Bay} {v : Volume} {n : Nat}
    (h : (s.drive b).standsAt (openStart v mode n) (openNeedsFrame v mode n) = true) :
    acceptOpen s p tag b v mode shrink n = openingDone (openStarted s p tag b v mode shrink n) b ((s.drive b).posFrame.getD 0) := by
  have hdrive := openStarted_drive (s := s) (p := p) (b := b) (v := v) tag mode shrink n
  have hframe : ((openStarted s p tag b v mode shrink n).drive b).posFrame = (s.drive b).posFrame := by rw [hdrive]; rfl
  have hstand : ((openStarted s p tag b v mode shrink n).drive b).standsAt (openedStream p tag v mode shrink n).start
      (openNeedsFrame v mode n) = true := by
    rw [hdrive]
    exact h
  rw [← hframe]
  exact if_pos hstand

theorem acceptOpen_elsewhere {s : State} {p : Port} {tag mode shrink : Byte} {b : Bay} {v : Volume} {n : Nat}
    (h : (s.drive b).standsAt (openStart v mode n) (openNeedsFrame v mode n) = false) :
    acceptOpen s p tag b v mode shrink n = ((setAside s b).modStream b fun _ => openedStream p tag v mode shrink n).modDrive b fun d =>
      { d with continuation := none, order := some (.locate (openStart v mode n)), state := .positioning, timer := d.timerAtIssue } := by
  have hdrive := openStarted_drive (s := s) (p := p) (b := b) (v := v) tag mode shrink n
  have hstand : ¬ ((openStarted s p tag b v mode shrink n).drive b).standsAt (openedStream p tag v mode shrink n).start
      (openNeedsFrame v mode n) = true := by
    rw [hdrive]
    exact Bool.eq_false_iff.1 h
  have hlocate : acceptOpen s p tag b v mode shrink n
      = issueLocate (openStarted s p tag b v mode shrink n) b (openStart v mode n) := if_neg hstand
  rw [hlocate, openStarted, issueLocate, modDrive_modDrive]
  rfl

theorem openStream_refused {s : State} {p : Port} {tag bay mode shrink : Byte} {n : Word} {b : Bay} {code : ReplyCode}
    (ht : s.takes p tag) (hb : bayOf bay = some b) (hr : b ∉ (s.port p).released) (h : bayRefusal s p b = some code) :
    exec (.openStream p tag bay mode shrink n) s = .next (s.replied p tag .openStream code) := by
  have h' : bayRefusal (openTag s p tag .openStream) p b = some code := h
  refine request_replied ht ?_
  rw [hb, unlessReleased_some _ _ _ _ _ _ (by rwa [openTag_released])]
  simp only [h', refuse]

theorem openStream_frame {s t : State} {p : Port} {tag bay mode shrink : Byte} {n : Word}
    (hx : exec (.openStream p tag bay mode shrink n) s = .next t) :
    t.buffer = s.buffer ∧ t.elements = s.elements ∧ t.picker = s.picker := by
  have hleaves := exec_leaves _ s _ hx
  have hbuffer := congrArg State.buffer hleaves
  have helements := congrArg State.elements hleaves
  have hpicker := congrArg State.picker hleaves
  exact ⟨hbuffer, helements, hpicker⟩

theorem Volume.opened_eod (p : Port) (mode : Byte) (n f : Nat) (v : Volume) :
    (mode = 1 ∧ n < v.eod.getD 0) ∨ (v.opened p (if mode = 1 then some n else none) f).eod = v.eod := by
  by_cases hm : mode = 1
  · by_cases hn : n < v.eod.getD 0
    · exact .inl ⟨hm, hn⟩
    · exact .inr (by simp [hm, Volume.opened, hn])
  · exact .inr (by rw [if_neg hm]; rfl)

/-- Settles O40. -/
theorem openStreamAccepted : Obligations.OpenStreamAccepted := by
  intro s p tag bay mode shrink n b ht hb hr
  refine ⟨fun code h => openStream_refused ht hb hr h, fun v h72 hv h99 => ⟨fun hstand => ?_, fun hstand => ?_⟩⟩
  · rw [exec_openStream_accepted ht hb hr h72 h99 hv, acceptOpen_elsewhere (s := openTag s p tag .openStream) hstand]
    rfl
  · have hx := exec_openStream_accepted ht hb hr h72 h99 hv
    rw [acceptOpen_stands (s := openTag s p tag .openStream) hstand] at hx
    set u := openStarted (openTag s p tag .openStream) p tag b v mode shrink n.toNat with hu
    set f := ((openTag s p tag .openStream).drive b).posFrame.getD 0
    have hstream : u.stream b = openedStream p tag v mode shrink n.toNat := openStarted_stream tag mode shrink n.toNat
    have hport : (u.stream b).port = some p := by rw [hstream]; rfl
    obtain ⟨hopen, hdrive⟩ := openingDone_at f hport
    have hopened : OpeningReported s (pump (openingDone u b f)) b p (if mode = 1 then some n.toNat else none) f :=
      ⟨u, rfl, by rw [hu, openStarted_drive]; rfl, hport, by rw [hstream]; rfl, pump_store _, pump_drives _⟩
    obtain ⟨hbuffer, helements, hpicker⟩ := openStream_frame hx
    refine ⟨_, hx, ?_, ?_, ?_, ?_, ?_, ?_, hbuffer, helements, hpicker⟩
    · rw [pump_stream, hopen]
    · rw [pump_stream, hopen, hstream]
      rfl
    · rw [pump_stream, hopen, hstream]
      rfl
    · rw [pump_drive, hdrive]
    · rw [hopened.driveVolume hv]
      rfl
    · rw [hopened.driveVolume hv, Option.map_some, Option.some_inj]
      exact Volume.opened_eod p mode n.toNat f v

end Sys2Proof.Machine
end

section
/-! PROOFS. The writes' replies: COMMITTED, WRITE_FAULT and GAP_DONE, and the commit latency timer (R63 to R65, R110 to R114). -/

namespace Sys2Proof.Machine

theorem matchWrite_oldest {fs later : List Flight} {f : Flight} (h : fs = f :: later) : matchWrite fs f.block = .oldest f later := by
  rw [h]
  exact if_pos rfl

theorem addTotal_eq (a b : Nat) : addTotal a b = min (a + b) 18446744073709551615 := by
  by_cases h : a + b ≤ 18446744073709551615
  · rw [addTotal, Config.maxTotal, if_pos h, min_eq_left h]
  · rw [addTotal, Config.maxTotal, if_neg h, min_eq_right (by omega)]

/-! ### The offers to the bay -/

/-- From s to t: writes issued to the bay's drive, and what the stream tells its port. -/
structure OffersOnly (s t : State) (b : Bay) : Prop where
  inFlight : ∃ k, (t.drive b).inFlight = (s.drive b).inFlight ++ k
  gap : (t.drive b).gap = (s.drive b).gap
  committed : (t.stream b).highestCommitted = (s.stream b).highestCommitted
  volume : (t.drive b).volume = (s.drive b).volume
  store : t.store = s.store
  elements : t.elements = s.elements
  picker : t.picker = s.picker

theorem OffersOnly.refl (s : State) (b : Bay) : OffersOnly s s b := ⟨⟨[], (List.append_nil _).symm⟩, rfl, rfl, rfl, rfl, rfl, rfl⟩

theorem OffersOnly.trans {s t u : State} {b : Bay} (h : OffersOnly s t b) (k : OffersOnly t u b) : OffersOnly s u b := by
  obtain ⟨x, hx⟩ := h.inFlight
  obtain ⟨y, hy⟩ := k.inFlight
  exact ⟨⟨x ++ y, by rw [hy, hx, List.append_assoc]⟩, k.gap.trans h.gap, k.committed.trans h.committed, k.volume.trans h.volume,
    k.store.trans h.store, k.elements.trans h.elements, k.picker.trans h.picker⟩

theorem OffersOnly.of_drives {s t : State} {b : Bay} (hd : t.drives = s.drives)
    (hc : (t.stream b).highestCommitted = (s.stream b).highestCommitted) (hs : t.store = s.store)
    (he : t.elements = s.elements) (hp : t.picker = s.picker) : OffersOnly s t b := by
  have hdrive : t.drive b = s.drive b := congrArg (PerBay.get · b) hd
  exact ⟨⟨[], by rw [hdrive, List.append_nil]⟩, by rw [hdrive], hc, by rw [hdrive], hs, he, hp⟩

theorem OffersOnly.driveVolume {s t : State} {b : Bay} (h : OffersOnly s t b) : t.driveVolume b = s.driveVolume b := by
  rw [State.driveVolume, State.driveVolume, h.volume]
  exact congrArg _ (funext (volume_of_store h.store))

theorem toStreamPort_streams (s : State) (b : Bay) (n : Notice) : (toStreamPort s b n).streams = s.streams := by simp

theorem earlyWarning_committed (s : State) (a b : Bay) (num : Nat) :
    ((earlyWarning s a num).stream b).highestCommitted = (s.stream b).highestCommitted := by
  unfold earlyWarning
  split
  · refine (modStream_field (g := Stream.highestCommitted) _ a b ?_).trans ?_
    · exact fun _ => rfl
    · rw [stream_of_streams (toStreamPort_streams s a _)]
  · rfl

theorem testSyncs_committed (s : State) (a b : Bay) : ((testSyncs s a).stream b).highestCommitted = (s.stream b).highestCommitted :=
  testSyncs_field (g := Stream.highestCommitted) (fun _ => rfl) (fun _ _ => rfl) s a b

theorem mediumEnd_committed (s : State) (a b : Bay) (u : Nat) :
    ((mediumEnd s a u).stream b).highestCommitted = (s.stream b).highestCommitted := by
  rw [mediumEnd, testSyncs_committed, stream_of_streams (toStreamPort_streams _ a _),
    giveUpRecords_field (g := Stream.highestCommitted) (fun _ _ _ => rfl)]
  exact modStream_field (g := Stream.highestCommitted) s a b fun _ => rfl

theorem offersOnly_mediumEnd (s : State) (b : Bay) (u : Nat) : OffersOnly s (mediumEnd s b u) b :=
  .of_drives (by simp) (mediumEnd_committed s b b u) (by simp) (by simp) (by simp)

theorem offersOnly_earlyWarning (s : State) (b : Bay) (num : Nat) : OffersOnly s (earlyWarning s b num) b :=
  .of_drives (by simp) (earlyWarning_committed s b b num) (by simp) (by simp) (by simp)

theorem offersOnly_issueWrite (s : State) (b : Bay) (f : Flight) (g : Stream → Stream) 
    (hg : ∀ c, (g c).highestCommitted = c.highestCommitted) :
    OffersOnly s ((s.modDrive b fun d => d.issueWrite f).modStream b g) b := by
  have hdrive : ((s.modDrive b fun d => d.issueWrite f).modStream b g).drive b = (s.drive b).issueWrite f := by
    rw [State.modStream_read_drive, modDrive_at, if_pos rfl]
  exact ⟨⟨[f], by rw [hdrive]; rfl⟩, by rw [hdrive]; rfl, modStream_field (g := Stream.highestCommitted) _ b b hg,
    by rw [hdrive]; rfl, rfl, rfl, rfl⟩

theorem offersOnly_sendBlock (s : State) (b : Bay) (r : Rec) (block : Nat) : OffersOnly s (sendBlock s b r block) b := by
  unfold sendBlock
  extract_lets h f s1
  have sent : OffersOnly s s1 b := offersOnly_issueWrite s b f _ (by exact fun _ => rfl)
  exact sent.trans (offersOnly_earlyWarning s1 b r.num)

theorem offersOnly_offerOnce {s t : State} {b : Bay} (h : offerOnce s b = some t) : OffersOnly s t b := by
  unfold offerOnce at h
  dsimp only at h
  split at h
  · cases h
  · split at h
    · next r _ =>
      split at h
      · cases h
      · split at h
        · cases h
          exact offersOnly_mediumEnd s b r.num
        · split at h
          · cases h
          · split at h <;> cases h
            · exact offersOnly_mediumEnd s b r.num
            · exact offersOnly_sendBlock s b r _
    · cases h

theorem offersOnly_offerRun (n : Nat) (s : State) (b : Bay) : OffersOnly s (offerRun n s b) b := by
  induction n generalizing s with
  | zero => exact .refl s b
  | succ n ih =>
    rw [offerRun]
    split
    · next t h => exact (offersOnly_offerOnce h).trans (ih t)
    · exact .refl s b

theorem offersOnly_offerBlocks (s : State) (b : Bay) : OffersOnly s (offerBlocks s b) b := offersOnly_offerRun _ s b

/-! ### COMMITTED (R63, R110) -/

theorem testCommitNotice_committed (s : State) (b : Bay) :
    ((testCommitNotice s b).stream b).highestCommitted = (s.stream b).highestCommitted := by
  unfold testCommitNotice
  extract_lets c st
  split_ifs
  · rw [commitNotice]
    refine (modStream_field (g := Stream.highestCommitted) _ b b (f := Stream.reported) fun _ => rfl).trans ?_
    rw [stream_of_streams (toStreamPort_streams s b _)]
  · rfl
  · exact modStream_field (g := Stream.highestCommitted) s b b (by exact fun _ => rfl)

theorem offersOnly_committed (s : State) (b : Bay) : OffersOnly s (offerBlocks (testSyncs (testCommitNotice s b) b) b) b := by
  have tested : OffersOnly s (testSyncs (testCommitNotice s b) b) b :=
    .of_drives (by simp) ((testSyncs_committed _ b b).trans (testCommitNotice_committed s b)) (by simp) (by simp) (by simp)
  exact tested.trans (offersOnly_offerBlocks _ b)

/-- What a commit makes of the volume. -/
def Flight.onVolume (f : Flight) (r : Rec) (v : Volume) : Volume :=
  if f.isMark then v.committedMark f.block else v.committedData f.block f.frames r.rawLen ((r.coded.map (·.storedLen)).getD 0)

theorem Flight.onVolume_label (f : Flight) (r : Rec) (v : Volume) : (f.onVolume r v).label = v.label := by
  unfold Flight.onVolume
  split <;> rfl

theorem commitRecord_at (s : State) (b : Bay) (f : Flight) (r : Rec) : (commitRecord s b f r).drive b = s.drive b
    ∧ ((commitRecord s b f r).stream b).highestCommitted = some r.num
    ∧ (commitRecord s b f r).store = (modDriveVolume s b (f.onVolume r)).store
    ∧ (commitRecord s b f r).elements = s.elements ∧ (commitRecord s b f r).picker = s.picker := by
  refine ⟨congrArg (PerBay.get · b) (by simp [commitRecord]), ?_, ?_, by simp [commitRecord], by simp [commitRecord]⟩
  · rw [commitRecord, modStream_at, if_pos rfl]
    rfl
  · simp only [commitRecord, State.modStream_store, frame_releaseDesc]
    rfl

theorem offersOnly_settle (s : State) (b : Bay) : OffersOnly s (onBuffer s settle) b :=
  .of_drives (by simp) (by rw [onBuffer_stream]) (by simp) (by simp) (by simp)

theorem committed_done {s : State} {b : Bay} {f : Flight} {later : List Flight} {r : Rec} {v : Volume}
    (hfl : (s.drive b).inFlight = f :: later) (hr : (s.stream b).records.find? (fun x => x.num = f.record) = some r)
    (hv : s.driveVolume b = some v) : ∃ t k, exec (.committed b f.block) s = .next t ∧ (t.drive b).inFlight = later ++ k
      ∧ (t.stream b).highestCommitted = some r.num ∧ t.driveVolume b = some (f.onVolume r v)
      ∧ t.elements = s.elements ∧ t.picker = s.picker ∧ t.settings = s.settings := by
  set u := s.modDrive b fun d => ({ d with inFlight := later }).afterWrite with hu
  have hdrive : u.drive b = ({ s.drive b with inFlight := later } : Drive).afterWrite := (modDrive_at s b b _).trans (if_pos rfl)
  have huv : u.driveVolume b = some v := by
    rw [driveVolume_eq_some_iff, hdrive]
    exact (driveVolume_eq_some_iff s b v).1 hv
  have htaken : commitTaken s b f later = offerBlocks (testSyncs (testCommitNotice (commitRecord u b f r) b) b) b := by
    have hr' : (u.stream b).records.find? (fun x => x.num = f.record) = some r := hr
    unfold commitTaken
    simp only [← hu, hr']
  have hx : exec (.committed b f.block) s = finishCredit (commitTaken s b f later) := by
    change execCommitted b f.block s = _
    rw [execCommitted, matchWrite_oldest hfl]
  rw [htaken] at hx
  have hoffers := offersOnly_committed (commitRecord u b f r) b
  set w := offerBlocks (testSyncs (testCommitNotice (commitRecord u b f r) b) b) b
  obtain ⟨hd, hcommitted, hstore, helements, hpicker⟩ := commitRecord_at u b f r
  obtain ⟨k, hk⟩ := hoffers.inFlight
  refine ⟨_, k, hx, ?_, ?_, ?_, ?_, ?_, exec_settings hx (by simp) (by simp)⟩
  · rw [pump_drive, onBuffer_drive, hk, hd, hdrive]
    rfl
  · rw [pump_stream, onBuffer_stream, hoffers.committed, hcommitted]
  · have hw : w.driveVolume b = some (f.onVolume r v) := by
      rw [hoffers.driveVolume]
      exact modDriveVolume_driveVolume (f.onVolume_label r) huv (congrArg Drive.volume hd) hstore
    rw [pump_driveVolume, (offersOnly_settle w b).driveVolume, hw]
  · rw [pump_elements, (offersOnly_settle w b).elements, hoffers.elements, helements, hu, State.modDrive_elements]
  · rw [pump_picker, (offersOnly_settle w b).picker, hoffers.picker, hpicker, hu, State.modDrive_picker]

/-! ### COMMIT_LATENCY_TIMER_EXPIRY (R112) -/

theorem latencyExpiry_up {s : State} {b : Bay} {p : Port} (ht : (s.stream b).timer.isRunning = true) (hp : (s.stream b).port = some p)
    (hup : (s.port p).up = true) : exec (.commitLatencyTimerExpiry b) s = finish (commitNotice s b) := by
  have hs : s.streamUp b = true := by rw [State.streamUp, hp]; exact hup
  change execCommitLatencyTimerExpiry b s = _
  rw [execCommitLatencyTimerExpiry, if_neg (by simp [ht]), if_pos hs]

theorem latencyExpiry_down {s : State} {b : Bay} {p : Port} (ht : (s.stream b).timer.isRunning = true) (hp : (s.stream b).port = some p)
    (hup : (s.port p).up = false) :
    exec (.commitLatencyTimerExpiry b) s = finish (s.modStream b fun c => { c with timer := .stopped }) := by
  have hs : s.streamUp b = false := by rw [State.streamUp, hp]; exact hup
  change execCommitLatencyTimerExpiry b s = _
  rw [execCommitLatencyTimerExpiry, if_neg (by simp [ht]), if_neg (by simp [hs])]

/-- Settles O52. -/
theorem commitsRecordedAndReported : Obligations.CommitsRecordedAndReported := by
  refine ⟨fun s b f later r v hfl hmark hr hv => ?_, fun s b f later r v hfl hmark hr hv => ?_, fun s b p ht hp => ⟨fun hup => ?_, ?_⟩⟩
  · have hvolume : f.onVolume r v = { v with
          framesUsed := v.framesUsed + f.frames, eod := some (f.block + 1),
          rawTotal := min (v.rawTotal + r.rawLen) 18446744073709551615,
          storedTotal := min (v.storedTotal + ((r.coded.map (·.storedLen)).getD 0 + 32)) 18446744073709551615 } := by
      simp [Flight.onVolume, hmark, Volume.committedData, addTotal_eq]
    rw [← hvolume]
    exact committed_done hfl hr hv
  · have hvolume : f.onVolume r v = { v with
          framesUsed := v.framesUsed + 1, eod := some (f.block + 1), marks := v.marks ++ [f.block],
          storedTotal := min (v.storedTotal + 32) 18446744073709551615 } := by
      simp [Flight.onVolume, hmark, Volume.committedMark, addTotal_eq]
    rw [← hvolume]
    exact committed_done hfl hr hv
  · rw [latencyExpiry_up ht hp hup, commitNotice, toStreamPort, hp]
    rfl
  · exact latencyExpiry_down ht hp

/-! ### WRITE_FAULT with room for a gap, and GAP_DONE (R64, R65, R114) -/

theorem modDriveVolume_done {s : State} {b : Bay} {v : Volume} {f : Volume → Volume} (hf : ∀ v, (f v).label = v.label)
    (hv : s.driveVolume b = some v) : (modDriveVolume s b f).driveVolume b = some (f v) :=
  modDriveVolume_driveVolume hf hv (congrArg Drive.volume (modDriveVolume_drive s b b f)) rfl

theorem modDriveVolume_stream (s : State) (a b : Bay) (f : Volume → Volume) : (modDriveVolume s a f).stream b = s.stream b :=
  stream_of_streams (by simp) b

theorem bump16_eq (n : Nat) : bump16 n = if n < 65535 then n + 1 else n := rfl

/-- The state that WRITE_FAULT leaves before the stream acts. -/
def faultNoted (s : State) (b : Bay) (f : Flight) (later : List Flight) : State :=
  modDriveVolume ((s.modDrive b fun d => d.writeFault f.block (later.map (·.frames)).sum).modStream b fun c =>
    { c with records := c.records.map fun r => if r.state = .inDrive then { r with state := .stored } else r }) b
    fun v => v.writeFaulted f.frames

theorem faultNoted_drive (s : State) (b : Bay) (f : Flight) (later : List Flight) :
    (faultNoted s b f later).drive b = (s.drive b).writeFault f.block (later.map (·.frames)).sum := by
  rw [faultNoted, modDriveVolume_drive, State.modStream_read_drive, modDrive_at, if_pos rfl]

theorem faultNoted_stream (s : State) (b : Bay) (f : Flight) (later : List Flight) : (faultNoted s b f later).stream b = { s.stream b with
    records := (s.stream b).records.map fun r => if r.state = .inDrive then { r with state := .stored } else r } := by
  rw [faultNoted, modDriveVolume_stream, modStream_at, if_pos rfl]
  rfl

theorem faultNoted_driveVolume {s : State} {b : Bay} {v : Volume} (f : Flight) (later : List Flight) (hv : s.driveVolume b = some v) :
    (faultNoted s b f later).driveVolume b = some (v.writeFaulted f.frames) := by
  refine modDriveVolume_done (fun _ => rfl) ?_
  rw [driveVolume_eq_some_iff, State.modStream_read_drive, modDrive_at, if_pos rfl]
  exact (driveVolume_eq_some_iff s b v).1 hv

theorem faultTaken_eq (s : State) (b : Bay) (f : Flight) (later : List Flight) : faultTaken s b f later
    = if ((faultNoted s b f later).stream b).discard then
        testSyncs (giveUpRecords (faultNoted s b f later) b fun r => r.state = .stored) b
      else if ((faultNoted s b f later).stream b).records.any fun r => r.num = f.record && decide (Config.maxWrites ≤ r.writes) then
        streamFault (faultNoted s b f later) b .writeFault
      else if ((faultNoted s b f later).stream b).firstUnsent.isSome then mediumEnd (faultNoted s b f later) b f.record
      else askGap (faultNoted s b f later) b f.record ((later.getLast?.getD f).record) := rfl

theorem faultTaken_asksGap {s : State} {b : Bay} {f : Flight} {later : List Flight} (hdiscard : (s.stream b).discard = false)
    (hunsent : (s.stream b).firstUnsent = none)
    (hwrites : ((s.stream b).records.all fun x => decide (x.num = f.record → x.writes < 4)) = true)
    (hroom : Config.gapFrames ≤ (faultNoted s b f later).remaining b) : faultTaken s b f later
      = earlyWarning ((faultNoted s b f later).modDrive b Drive.issueGap) b ((later.getLast?.getD f).record) := by
  have hstream := faultNoted_stream s b f later
  have hfew : ¬ (((faultNoted s b f later).stream b).records.any fun r => r.num = f.record && decide (Config.maxWrites ≤ r.writes)) =
      true := by
    rw [hstream, Bool.not_eq_true, List.any_eq_false]
    intro r hr
    obtain ⟨x, hx, rfl⟩ := List.mem_map.1 hr
    have hfewer := of_decide_eq_true (List.all_eq_true.1 hwrites x hx)
    have hnum : (if x.state = .inDrive then { x with state := .stored } else x).num = x.num := by split <;> rfl
    have hcount : (if x.state = .inDrive then { x with state := .stored } else x).writes = x.writes := by split <;> rfl
    rw [hnum, hcount]
    simp only [Bool.and_eq_true, decide_eq_true_eq]
    rintro ⟨hn, hw⟩
    exact absurd hw (not_le_of_gt (hfewer hn))
  have hd : ((faultNoted s b f later).stream b).discard = false := by rw [hstream]; exact hdiscard
  have hu : ((faultNoted s b f later).stream b).firstUnsent = none := by rw [hstream]; exact hunsent
  rw [faultTaken_eq, if_neg (by simp [hd]), if_neg hfew, if_neg (by simp [hu]), askGap, if_pos hroom]

theorem faultNoted_room {s : State} {b : Bay} {f : Flight} {later : List Flight} {v : Volume} (hgap : (s.drive b).gap = false)
    (hv : s.driveVolume b = some v) (hroom : v.framesUsed + f.frames + 64 ≤ Config.capacity v.cls) :
    Config.gapFrames ≤ (faultNoted s b f later).remaining b := by
  have hnone : ((faultNoted s b f later).drive b).framesInFlight = 0 := by
    rw [faultNoted_drive, Drive.framesInFlight]
    simp [Drive.writeFault, Drive.afterWrite, Drive.replied, hgap]
  rw [State.remaining, faultNoted_driveVolume f later hv, hnone]
  simp only [Volume.writeFaulted, Config.gapFrames]
  omega

theorem faultNoted_rest (s : State) (b : Bay) (f : Flight) (later : List Flight) :
    (faultNoted s b f later).elements = s.elements ∧ (faultNoted s b f later).picker = s.picker :=
  ⟨by simp [faultNoted], by simp [faultNoted]⟩

theorem earlyWarning_records (s : State) (a b : Bay) (num : Nat) :
    ((earlyWarning s a num).stream b).records = (s.stream b).records := by
  unfold earlyWarning
  split
  · refine (modStream_field (g := Stream.records) _ a b ?_).trans ?_
    · exact fun _ => rfl
    · rw [stream_of_streams (toStreamPort_streams s a _)]
  · rfl

theorem earlyWarning_drive (s : State) (a b : Bay) (num : Nat) : (earlyWarning s a num).drive b = s.drive b :=
  congrArg (PerBay.get · b) (by simp)

theorem gapDone_done {s : State} {b : Bay} {v : Volume} (hgap : (s.drive b).gap = true) (hv : s.driveVolume b = some v) :
    ∃ t, exec (.gapDone b) s = .next t ∧ (t.drive b).gap = false ∧ t.driveVolume b = some { v with framesUsed := v.framesUsed + 64 }
      ∧ t.elements = s.elements ∧ t.picker = s.picker ∧ t.settings = s.settings := by
  have hx : exec (.gapDone b) s = finishCredit (gapTaken s b) := by
    change execGapDone b s = _
    rw [execGapDone, if_pos hgap]
  set u := s.modDrive b fun d => ({ d with gap := false }).afterWrite with hu
  have hdrive : u.drive b = ({ s.drive b with gap := false } : Drive).afterWrite := (modDrive_at s b b _).trans (if_pos rfl)
  have huv : u.driveVolume b = some v := by
    rw [driveVolume_eq_some_iff, hdrive]
    exact (driveVolume_eq_some_iff s b v).1 hv
  have hoffers : OffersOnly (modDriveVolume u b Volume.gapDone) (gapTaken s b) b := offersOnly_offerBlocks _ b
  have hall := hoffers.trans (offersOnly_settle (gapTaken s b) b)
  refine ⟨_, hx, ?_, ?_, ?_, ?_, exec_settings hx (by simp) (by simp)⟩
  · rw [pump_drive, hall.gap, modDriveVolume_drive, hdrive]
    rfl
  · rw [pump_driveVolume, hall.driveVolume]
    exact modDriveVolume_done (f := Volume.gapDone) (fun _ => rfl) huv
  · rw [pump_elements, hall.elements]
    simp [hu]
  · rw [pump_picker, hall.picker]
    simp [hu]

/-- Settles O53. -/
theorem writeFaultsRecovered : Obligations.WriteFaultsRecovered := by
  refine ⟨fun s b f later q v hfl hgap hq hv hdiscard hunsent hwrites hroom => ?_, fun s b v hgap hv => gapDone_done hgap hv⟩
  set w := (faultNoted s b f later).modDrive b Drive.issueGap with hw
  set n := ((later.getLast?.getD f).record)
  have hx : exec (.writeFault b f.block) s = finishCredit (earlyWarning w b n) := by
    rw [hw, ← faultTaken_asksGap hdiscard hunsent hwrites (faultNoted_room hgap hv hroom)]
    change execWriteFault b f.block s = _
    rw [execWriteFault, matchWrite_oldest hfl]
  have hdrive : w.drive b = ((s.drive b).writeFault f.block (later.map (·.frames)).sum).issueGap := by
    rw [hw, modDrive_at, if_pos rfl, faultNoted_drive]
  have hwarned := (offersOnly_earlyWarning w b n).trans (offersOnly_settle _ b)
  obtain ⟨helements, hpicker⟩ := faultNoted_rest s b f later
  refine ⟨_, hx, ?_, ?_, ?_, ?_, ?_, ?_, ?_, ?_⟩
  · rw [pump_drive, onBuffer_drive, earlyWarning_drive, hdrive]
    rfl
  · rw [pump_drive, onBuffer_drive, earlyWarning_drive, hdrive]
    rfl
  · rw [pump_drive, onBuffer_drive, earlyWarning_drive, hdrive]
    simp [Drive.posBlock, Drive.issueGap, Drive.writeFault, Drive.afterWrite, Drive.replied, hq, Position.gapped, Position.faulted]
  · rw [pump_drive, onBuffer_drive, earlyWarning_drive, hdrive]
    rfl
  · rw [pump_stream, onBuffer_stream, earlyWarning_records, hw, State.modDrive_read_stream, faultNoted_stream, List.all_eq_true]
    intro r hr
    obtain ⟨x, -, rfl⟩ := List.mem_map.1 hr
    split <;> simp_all
  · rw [pump_driveVolume, hwarned.driveVolume]
    have hwv : w.driveVolume b = (faultNoted s b f later).driveVolume b := by
      rw [State.driveVolume, hdrive, State.driveVolume, faultNoted_drive]
      rfl
    rw [hwv, faultNoted_driveVolume f later hv, Volume.writeFaulted, bump16_eq]
  · rw [pump_elements, hwarned.elements]
    exact helements
  · rw [pump_picker, hwarned.picker]
    exact hpicker

end Sys2Proof.Machine
end

section
/-! PROOFS. READ_RECORDS and VERIFY (R142, R143, R157, R158). -/

namespace Sys2Proof.Machine

theorem bayRefusal_idle {s : State} {p : Port} {b : Bay} (h : bayRefusal s p b = none) : (s.drive b).state = .idle := by
  have := firstRefusal_eq_none.1 h
  simp at this
  exact this.2.2.2.1.1

/-! ### A request at a bay that passes R72 -/

theorem exec_readRecords_taken {s : State} {p : Port} {tag bay form stop : Byte} {count : Half} {first k e : Word} {b : Bay}
    (ht : s.takes p tag) (hb : bayOf bay = some b) (hr : b ∉ (s.port p).released) (h72 : bayRefusal s p b = none) :
    exec (.readRecords p tag bay form stop count first k e) s
      = .next (pump (decideRead (openTag s p tag .readRecords) p tag b form stop count.toNat first k e)) := by
  have h72' : bayRefusal (openTag s p tag .readRecords) p b = none := h72
  change execReadRecords p tag bay form stop count first k e s = _
  rw [execReadRecords, request_taken _ _ ht, hb, unlessReleased_some _ _ _ _ _ _ (by rwa [openTag_released])]
  simp only [h72']

theorem exec_verify_taken {s : State} {p : Port} {tag bay form : Byte} {a n : Word} {b : Bay}
    (ht : s.takes p tag) (hb : bayOf bay = some b) (hr : b ∉ (s.port p).released) (h72 : bayRefusal s p b = none) :
    exec (.verify p tag bay form a n) s = .next (pump (decideVerify (openTag s p tag .verify) p tag b form a n)) := by
  have h72' : bayRefusal (openTag s p tag .verify) p b = none := h72
  change execVerify p tag bay form a n s = _
  rw [execVerify, request_taken _ _ ht, hb, unlessReleased_some _ _ _ _ _ _ (by rwa [openTag_released])]
  simp only [h72']

/-! ### READ_RECORDS -/

section
variable {s : State} {p : Port} {tag form stop : Byte} {count : Nat} {first k e : Word} {b : Bay} {v : Volume} {a : Address} {sm : Bool}

theorem decideRead_resolves (ha : addressOf form first k e = some a) (hstop : flagOf stop = some sm) (hcount : 1 ≤ count)
    (htests : firstRefusal (readableTests s p b) = none) (hv : s.driveVolume b = some v) :
    (∀ code, resolve v (s.drive b).continuation a = .inl code →
      decideRead s p tag b form stop count first k e = answer s p tag .readRecords code)
    ∧ ∀ n, resolve v (s.drive b).continuation a = .inr n →
      decideRead s p tag b form stop count first k e = acceptRead s p tag b v a sm count n := by
  have hpass : firstRefusal ((decide (count < 1), ReplyCode.badRequest) :: readableTests s p b) = none := by
    rw [firstRefusal, if_neg (by rw [decide_eq_true_eq]; omega), htests]
  refine ⟨fun code h => ?_, fun n h => ?_⟩ <;> unfold decideRead <;> simp only [ha, hstop, hpass, hv, h]
  rfl

/-- The run that READ_RECORDS begins. -/
def readRun (p : Port) (tag : Byte) (v : Volume) (a : Address) (sm : Bool) (count n : Nat) : RestoreRun :=
  { phase := .positioning, port := p, tag := some tag, volume := v.label, address := a, count := min count Config.maxCount,
    clamped := decide (Config.maxCount < count), stopAtMark := sm, eod := v.eod.getD 0, target := n,
    start := if a.indirect.isSome then none else some n, next := n, blocksRead := 0, delivered := 0,
    markRead := false, staged := [], index := none, ending := none, aborts := [] }

theorem restorePosition_elsewhere {s : State} {b : Bay} {r : RestoreRun} (hr : s.restore b = some r) (hidle : (s.drive b).state = .idle)
    (hpos : (s.drive b).posBlock ≠ some r.target) : restorePosition s b = issueLocate s b r.target := by
  have hstand : ¬ (s.drive b).standsAt r.target false = true := by simp [Drive.standsAt, hpos]
  rw [restorePosition, hr]
  dsimp only
  rw [if_neg hstand, if_pos hidle]

theorem acceptRead_elsewhere {n : Nat} (hidle : (s.drive b).state = .idle) (hpos : (s.drive b).posBlock ≠ some n) :
    acceptRead s p tag b v a sm count n = ((setAside s b).setRestore b (some (readRun p tag v a sm count n))).modDrive b fun d =>
      { d with activity := .restore p, order := some (.locate n), state := .positioning, timer := d.timerAtIssue } := by
  set u := ((setAside s b).setRestore b (some (readRun p tag v a sm count n))).modDrive b fun d => { d with activity := .restore p }
    with hu
  have hdrive : u.drive b = { s.drive b with activity := .restore p } := (modDrive_at _ b b _).trans (if_pos rfl)
  have hrun : u.restore b = some (readRun p tag v a sm count n) := by
    rw [hu, State.modDrive_read_restore, setRestore_at, if_pos rfl]
  have hposition : acceptRead s p tag b v a sm count n = restorePosition u b := rfl
  rw [hposition, restorePosition_elsewhere hrun (by rw [hdrive]; exact hidle) (by rw [hdrive]; exact hpos), hu, issueLocate,
    modDrive_modDrive]
  rfl

end

/-! ### VERIFY -/

section
variable {s : State} {p : Port} {tag form : Byte} {a n : Word} {b : Bay} {v : Volume} {f : VerifyForm}

theorem decideVerify_accepts (hf : verifyFormOf form a n = some f) (htests : firstRefusal (verifyTests s p b f) = none)
    (hv : s.driveVolume b = some v) : decideVerify s p tag b form a n = acceptVerify s p tag b v f := by
  rw [decideVerify, hf]
  simp only [htests, hv]

/-- The run that VERIFY begins. -/
def verifyRunOf (p : Port) (tag : Byte) (v : Volume) (f : VerifyForm) : VerifyRun :=
  { phase := .positioning, port := p, tag := some tag, volume := v.label, form := f, start := (verifyRange v f).1,
    limit := (verifyRange v f).2, eod := v.eod.getD 0, next := (verifyRange v f).1, checked := 0, inHand := none,
    driveFailed := false, ending := none, aborts := [] }

/-- The state in which a verify pass begins. -/
def verifyBegun (s : State) (p : Port) (tag : Byte) (b : Bay) (v : Volume) (f : VerifyForm) : State :=
  ((setAside s b).setVerify b (some (verifyRunOf p tag v f))).modDrive b fun d => { d with activity := .verify p, continuation := none }

theorem verifyBegun_run : (verifyBegun s p tag b v f).verifyRun b = some (verifyRunOf p tag v f) := by
  rw [verifyBegun, State.modDrive_read_verifyRun, setVerify_at, if_pos rfl]

theorem verifyBegun_drive : (verifyBegun s p tag b v f).drive b = { s.drive b with activity := .verify p, continuation := none } :=
  (modDrive_at _ b b _).trans (if_pos rfl)

theorem verifyBegun_store : (verifyBegun s p tag b v f).store = s.store := rfl

theorem verifyBegun_buffer : (verifyBegun s p tag b v f).buffer = s.buffer := rfl

theorem acceptVerify_empty (h : (verifyRange v f).1 = (verifyRange v f).2) :
    acceptVerify s p tag b v f = verifyEnds (verifyBegun s p tag b v f) b .done (some (verifyRange v f).1) := if_pos h

theorem acceptVerify_elsewhere (h : (verifyRange v f).1 ≠ (verifyRange v f).2) (hpos : (s.drive b).posBlock ≠ some (verifyRange v f).1) :
    acceptVerify s p tag b v f = ((setAside s b).setVerify b (some (verifyRunOf p tag v f))).modDrive b fun d =>
      { d with activity := .verify p, continuation := none, order := some (.locate (verifyRange v f).1),
               state := .positioning, timer := d.timerAtIssue } := by
  have hposition : acceptVerify s p tag b v f = verifyPosition (verifyBegun s p tag b v f) b := if_neg h
  have hstand : ¬ ((verifyBegun s p tag b v f).drive b).standsAt (verifyRunOf p tag v f).start false = true := by
    rw [verifyBegun_drive]
    simp only [Drive.standsAt, Bool.and_eq_true, decide_eq_true_eq]
    exact fun hstands => hpos hstands.1
  rw [hposition, verifyPosition, verifyBegun_run]
  dsimp only
  rw [if_neg hstand, verifyBegun, issueLocate, modDrive_modDrive]
  rfl

end

theorem verifyEnds_drive (s : State) (a b : Bay) (code : ReplyCode) (block : Option Nat) :
    (verifyEnds s a code block).drive b = s.drive b := rfl

theorem verifyEnds_store (s : State) (a : Bay) (code : ReplyCode) (block : Option Nat) : (verifyEnds s a code block).store = s.store :=
  rfl

theorem verifyEnds_buffer (s : State) (a : Bay) (code : ReplyCode) (block : Option Nat) : (verifyEnds s a code block).buffer = s.buffer :=
  rfl

/-- Settles O46. -/
theorem runsAccepted : Obligations.RunsAccepted := by
  refine ⟨fun s p tag bay form stop count first k e b v a sm ht hb hr h72 ha hstop hcount htests hv => ?_,
    fun s p tag bay form a n b v f ht hb hr h72 hf htests hv => ⟨fun hne hpos => ?_, fun he => ?_⟩⟩
  · obtain ⟨hrefused, haccepted⟩ := decideRead_resolves (s := openTag s p tag .readRecords) (tag := tag) ha hstop hcount htests hv
    refine ⟨fun code h => ?_, fun n h hpos => ?_⟩
    · rw [exec_readRecords_taken ht hb hr h72, hrefused code h, State.replied]
    · rw [exec_readRecords_taken ht hb hr h72, haccepted n h,
        acceptRead_elsewhere (s := openTag s p tag .readRecords) (bayRefusal_idle h72) hpos]
      rfl
  · rw [exec_verify_taken ht hb hr h72, decideVerify_accepts (s := openTag s p tag .verify) hf htests hv,
      acceptVerify_elsewhere (s := openTag s p tag .verify) hne hpos]
    rfl
  · have hx := exec_verify_taken (form := form) (a := a) (n := n) ht hb hr h72
    rw [decideVerify_accepts (s := openTag s p tag .verify) hf htests hv, acceptVerify_empty he] at hx
    have hends := verifyEnds_at .done (some (verifyRange v f).1)
      (verifyBegun_run (s := openTag s p tag .verify) (p := p) (tag := tag) (b := b) (v := v) (f := f)) rfl
    refine ⟨_, { verifyRunOf p tag v f with phase := .ending, ending := some ⟨.done, some (verifyRange v f).1⟩ }, hx, ?_, rfl, rfl, rfl,
      ?_, ?_, ?_, ?_⟩
    · rw [pump_verifyRun, hends]
    · rw [pump_drive, verifyEnds_drive, verifyBegun_drive]
    · rw [pump_drive, verifyEnds_drive, verifyBegun_drive]
    · rw [pump_store, verifyEnds_store, verifyBegun_store]
      rfl
    · rw [pump_buffer, verifyEnds_buffer, verifyBegun_buffer]
      rfl

end Sys2Proof.Machine
end

section
/-! PROOFS. The closes of the runs (R153, R165). -/

namespace Sys2Proof.Machine

theorem clearRunActivity_done {s : State} {b : Bay} (h : (s.drive b).activity.isRestore = true ∨ (s.drive b).activity.isVerify = true) :
    clearRunActivity s b = s.modDrive b fun d => { d with activity := .none } := by
  refine modDrive_congr s b _ _ ?_
  cases ha : (s.drive b).activity with
  | restore p => rfl
  | verify p => rfl
  | none => simp [ha, Activity.isRestore, Activity.isVerify] at h
  | stream p => simp [ha, Activity.isRestore, Activity.isVerify] at h

/-- Settles O48. -/
theorem runsClose : Obligations.RunsClose := by
  refine ⟨fun s b r e hr he hcloses hact => ?_, fun s b r e v hr he hcloses hact hv => ?_, fun s b r rest e hr hleft he hcloses => ?_,
    fun s b r rest e v hr hleft he hcloses hv => ?_⟩
  · have hact' : ((s.setRestore b none).drive b).activity.isRestore = true := by
      rw [State.setRestore_read_drive, hact]
      rfl
    change execRestoreRunClose b s = _
    rw [execRestoreRunClose, hr]
    dsimp only
    rw [if_pos hcloses, closeRestore, clearRunActivity_done (.inl hact'), answerRestore, he]
    rfl
  · have hact' : ((s.setVerify b none).drive b).activity.isVerify = true := by
      rw [State.setVerify_read_drive, hact]
      rfl
    have hv' : (((s.setVerify b none).modDrive b fun d => { d with activity := .none }).volume r.volume) = some v := hv
    change execVerifyRunClose b s = _
    rw [execVerifyRunClose, hr]
    dsimp only
    rw [if_pos hcloses, closeVerify, clearRunActivity_done (.inr hact'), answerVerify, he, hv']
    rfl
  · change execRestoreRunClose b s = _
    have hfind : (s.restores.get b).left.find? (fun r => leftRestoreCloses s b r) = some r := by
      rw [hleft, List.find?_cons_of_pos hcloses]
    have herase : (s.restores.get b).left.eraseP (fun r => leftRestoreCloses s b r) = rest := by
      rw [hleft, List.eraseP_cons_of_pos hcloses]
    rw [execRestoreRunClose, hr]
    dsimp only
    rw [closeLeftRestore, hfind]
    dsimp only
    rw [herase, hr, answerRestore, he]
    rfl
  · change execVerifyRunClose b s = _
    have hfind : (s.verifies.get b).left.find? leftVerifyCloses = some r := by
      rw [hleft, List.find?_cons_of_pos hcloses]
    have herase : (s.verifies.get b).left.eraseP leftVerifyCloses = rest := by
      rw [hleft, List.eraseP_cons_of_pos hcloses]
    have hv' : (s.setVerifyRuns b ⟨none, rest⟩).volume r.volume = some v := hv
    rw [execVerifyRunClose, hr]
    dsimp only
    rw [closeLeftVerify, hfind]
    dsimp only
    rw [herase, hr, answerVerify, he, hv']
    rfl

end Sys2Proof.Machine
end

section
/-! PROOFS. ABORT (R122, R154, R155, R166, R167, R179). -/

namespace Sys2Proof.Machine

theorem restore_of_restores {s t : State} (h : t.restores = s.restores) (b : Bay) : t.restore b = s.restore b :=
  congrArg (fun x => (PerBay.get x b).current) h

theorem verifyRun_of_verifies {s t : State} (h : t.verifies = s.verifies) (b : Bay) : t.verifyRun b = s.verifyRun b :=
  congrArg (fun x => (PerBay.get x b).current) h

/-! ### Fields of a restore run that the giving up of its entries and its index block does not touch -/

section
variable {α : Type} {g : RestoreRun → α}

theorem modRestore_field (s : State) (a b : Bay) {f : RestoreRun → RestoreRun} (hf : ∀ r, g (f r) = g r) :
    ((s.modRestore a f).restore b).map g = (s.restore b).map g := by
  rw [modRestore_at]
  split
  · next h =>
    rw [h, Option.map_map]
    exact congrArg (Option.map · _) (funext hf)
  · rfl

theorem giveUpDesc_field (s : State) (a b : Bay) (id : Nat) : ((giveUpDesc s a id).restore b).map g = (s.restore b).map g := by
  rw [restore_of_restores (s := s) (by simp)]

theorem onBuffer_restore (s : State) (f : CreditEnv → Buffer → Buffer) (b : Bay) : (onBuffer s f).restore b = s.restore b :=
  restore_of_restores (by simp) b

theorem giveUpStaged_field (hstaged : ∀ r l, g { r with staged := l } = g r) (s : State) (a b : Bay) (e : Staged) :
    ((giveUpStaged a s e).restore b).map g = (s.restore b).map g := by
  have hdrop : ((dropStaged s a e.block).restore b).map g = (s.restore b).map g := modRestore_field s a b fun r => hstaged r _
  unfold giveUpStaged
  dsimp only
  split
  · exact (giveUpDesc_field _ a b _).trans hdrop
  · rw [onBuffer_restore]
    exact hdrop

theorem giveUpStagedIf_field (hstaged : ∀ r l, g { r with staged := l } = g r) (s : State) (a b : Bay) (f : Staged → Bool) :
    ((giveUpStagedIf s a f).restore b).map g = (s.restore b).map g := by
  unfold giveUpStagedIf
  split
  · exact foldl_same (fun t => (t.restore b).map g) _ (fun t e => giveUpStaged_field hstaged t a b e) _ _
  · rfl

theorem giveUpIndex_field (hindex : ∀ r x, g { r with index := x } = g r) (s : State) (a b : Bay) :
    ((giveUpIndex s a).restore b).map g = (s.restore b).map g := by
  have hgone : ((s.modRestore a fun r => { r with index := none }).restore b).map g = (s.restore b).map g :=
    modRestore_field s a b fun r => hindex r none
  unfold giveUpIndex
  split
  · dsimp only
    split
    · rfl
    · split
      · exact (giveUpDesc_field _ a b _).trans hgone
      · rw [onBuffer_restore]
        exact hgone
  · rfl

theorem withdrawFrames_field (hstaged : ∀ r l, g { r with staged := l } = g r) (s : State) (a b : Bay) (p : Port) :
    ((withdrawFrames s a p).restore b).map g = (s.restore b).map g :=
  giveUpStagedIf_field hstaged s a b _

end

/-! ### The run that an ABORT ends -/

theorem restoreAbort_run {s : State} {b : Bay} {r : RestoreRun} (hr : s.restore b = some r) : ∃ u, (restoreAbort s b).restore b = some u
    ∧ u.ending = some (r.ending.getD ⟨.aborted, none⟩) ∧ u.phase = .ending ∧ u.aborts = r.aborts := by
  have hkept : ((restoreAbort s b).restore b).map (fun u => (u.ending, u.phase, u.aborts))
      = some (some (r.ending.getD ⟨.aborted, none⟩), .ending, r.aborts) := by
    unfold restoreAbort
    rw [hr]
    dsimp only
    rw [withdrawFrames_field (fun _ _ => rfl), giveUpIndex_field (fun _ _ => rfl), giveUpStagedIf_field (fun _ _ => rfl),
      modRestore_at, if_pos rfl, hr]
    rfl
  obtain ⟨u, hu, he⟩ := Option.map_eq_some_iff.1 hkept
  simp only [Prod.mk.injEq] at he
  exact ⟨u, hu, he⟩

section
variable {α : Type} {g : VerifyRun → α}

theorem modVerify_field (s : State) (a b : Bay) {f : VerifyRun → VerifyRun} (hf : ∀ r, g (f r) = g r) :
    ((s.modVerify a f).verifyRun b).map g = (s.verifyRun b).map g := by
  rw [modVerify_at]
  split
  · next h =>
    rw [h, Option.map_map]
    exact congrArg (Option.map · _) (funext hf)
  · rfl

theorem releaseDesc_verifyRun (s : State) (id : Nat) (b : Bay) : (releaseDesc s id).verifyRun b = s.verifyRun b :=
  onBuffer_verifyRun s _ b

theorem verifyRelease_field (hhand : ∀ r, g { r with inHand := none } = g r) (s : State) (a b : Bay) :
    ((verifyRelease s a).verifyRun b).map g = (s.verifyRun b).map g := by
  have hgone : ((s.modVerify a fun r => { r with inHand := none }).verifyRun b).map g = (s.verifyRun b).map g :=
    modVerify_field s a b hhand
  unfold verifyRelease
  split
  · dsimp only
    split
    · rw [releaseDesc_verifyRun]
      exact hgone
    · exact hgone
  · rfl

end

theorem verifyAbort_run {s : State} {b : Bay} {r : VerifyRun} (hr : s.verifyRun b = some r) : ∃ u, (verifyAbort s b).verifyRun b = some u
    ∧ u.ending = some (r.ending.getD ⟨.aborted, none⟩) ∧ u.phase = .ending ∧ u.aborts = r.aborts := by
  have hbefore : ∃ t : State, verifyAbort s b = verifyEnds t b .aborted none
      ∧ (t.verifyRun b).map (fun u => (u.ending, u.aborts)) = some (r.ending, r.aborts) := by
    unfold verifyAbort
    rw [hr]
    dsimp only
    refine ⟨_, rfl, ?_⟩
    have hwithdrawn : ((if r.phase = .reserving then onBuffer s fun _ u => u.withdrawReserve b else s).verifyRun b) = some r := by
      split
      · rw [onBuffer_verifyRun, hr]
      · exact hr
    generalize (if r.phase = .reserving then onBuffer s fun _ u => u.withdrawReserve b else s) = w at hwithdrawn
    split
    · split
      · exact congrArg (Option.map _) hwithdrawn
      · rw [verifyRelease_field (fun _ => rfl)]
        exact congrArg (Option.map _) hwithdrawn
    · exact congrArg (Option.map _) hwithdrawn
  obtain ⟨t, ht, hkept⟩ := hbefore
  obtain ⟨u, hu, he⟩ := Option.map_eq_some_iff.1 hkept
  simp only [Prod.mk.injEq] at he
  obtain ⟨hending, haborts⟩ := he
  refine ⟨{ u with phase := .ending, ending := some (u.ending.getD ⟨.aborted, none⟩) }, ?_, ?_, rfl, haborts⟩
  · rw [ht, verifyEnds, modVerify_at, if_pos rfl, hu]
    rfl
  · rw [hending]

/-! ### ABORT -/

theorem exec_abort {s : State} {p : Port} {tag bay : Byte} {b : Bay} (ht : s.takes p tag) (hb : bayOf bay = some b)
    (hclaim : (s.drive b).claim = some p) (hlost : s.runLost p b = false) :
    exec (.abort p tag bay) s = finishCredit (abortBay (openTag s p tag .abort) p tag b) := by
  have hclaim' : ((openTag s p tag .abort).drive b).claim = some p := hclaim
  have hlost' : (openTag s p tag .abort).runLost p b = false := hlost
  change execAbort p tag bay s = _
  rw [execAbort, admission_taken _ ht]
  dsimp only
  rw [hb]
  dsimp only
  rw [if_neg (by simp [hclaim', hlost'])]

theorem exec_abort_lost {s : State} {p : Port} {tag bay : Byte} {b : Bay} (ht : s.takes p tag) (hb : bayOf bay = some b)
    (hlost : s.runLost p b = true) : exec (.abort p tag bay) s = finishCredit (answer (openTag s p tag .abort) p tag .abort .driveBusy)
        := by
  have hlost' : (openTag s p tag .abort).runLost p b = true := hlost
  change execAbort p tag bay s = _
  rw [execAbort, admission_taken _ ht]
  dsimp only
  rw [hb]
  dsimp only
  rw [if_pos (by simp [hlost'])]
  rfl

/-- No restore run that an ABORT of port p ends. -/
def noRestoreOf (s : State) (p : Port) (b : Bay) : Prop :=
  ∀ r, s.restore b = some r → r.port ≠ p ∧ (s.drive b).activity.isRestore = false

/-- No verify run that an ABORT of port p ends. -/
def noVerifyOf (s : State) (p : Port) (b : Bay) : Prop :=
  ∀ r, s.verifyRun b = some r → r.port ≠ p ∧ (s.drive b).activity.isVerify = false

theorem abortsRestore_none {s : State} {p : Port} {b : Bay} (h : noRestoreOf s p b) : s.abortsRestore p b = false := by
  rw [State.abortsRestore]
  cases hr : s.restore b with
  | none => rfl
  | some r => simp [h r hr]

theorem abortsVerify_none {s : State} {p : Port} {b : Bay} (h : noVerifyOf s p b) : s.abortsVerify p b = false := by
  rw [State.abortsVerify]
  cases hr : s.verifyRun b with
  | none => rfl
  | some r => simp [h r hr]

theorem runLost_none {s : State} {p : Port} {b : Bay} (hr : noRestoreOf s p b) (hv : noVerifyOf s p b) : s.runLost p b = false := by
  rw [State.runLost, Bool.or_eq_false_iff]
  constructor
  · cases h : s.restore b with
    | none => rfl
    | some r => simp [hr r h]
  · cases h : s.verifyRun b with
    | none => rfl
    | some r => simp [hv r h]

theorem abortBay_stream {s : State} {p : Port} {b : Bay} (hr : noRestoreOf s p b) (hv : noVerifyOf s p b) (tag : Byte) :
    abortBay s p tag b = abortStream s p tag b := by
  rw [abortBay, if_neg (by simp [abortsRestore_none hr]), if_neg (by simp [abortsVerify_none hv])]

theorem exec_abort_stream {s : State} {p : Port} {tag bay : Byte} {b : Bay} (ht : s.takes p tag) (hb : bayOf bay = some b)
    (hclaim : (s.drive b).claim = some p) (hr : noRestoreOf s p b) (hv : noVerifyOf s p b) :
    exec (.abort p tag bay) s = finishCredit (abortStream (openTag s p tag .abort) p tag b) := by
  rw [exec_abort ht hb hclaim (runLost_none hr hv), abortBay_stream (s := openTag s p tag .abort) hr hv]

theorem abortStream_active {s : State} {b : Bay} (h : (s.stream b).active = true) (p : Port) (tag : Byte) :
    abortStream s p tag b = discardStream s b ⟨p, true, .discard, some tag⟩ := by
  unfold abortStream
  cases hs : (s.stream b).state <;> simp_all [Stream.active]

theorem abort_store {s t : State} {p : Port} {tag bay : Byte} (hx : exec (.abort p tag bay) s = .next t) : t.store = s.store := by
  have hleaves := exec_leaves _ s _ hx
  have hstore := congrArg State.store hleaves
  exact hstore

/-- Settles O47. -/
theorem abortEndsTheBay : Obligations.AbortEndsTheBay := by
  intro s p tag bay b ht hb hclaim
  refine ⟨fun hr hv hs => ?_, fun hr hv hs => ?_, fun hr hv hs => ?_, fun hr hv hs => ⟨?_, ?_⟩, exec_abort_lost ht hb,
    fun r hlost hr how => ?_, fun r hlost hnone hr how => ?_⟩
  · have hs' : ((openTag s p tag .abort).stream b).state = .closed := hs
    rw [exec_abort_stream ht hb hclaim hr hv, abortStream, hs']
    rfl
  · have hx := exec_abort_stream ht hb hclaim hr hv
    rw [abortStream_active (s := openTag s p tag .abort) hs] at hx
    obtain ⟨hstate, hdiscard, hclosing⟩ := discardStream_stream (openTag s p tag .abort) b ⟨p, true, .discard, some tag⟩
    have hstore := abort_store hx
    refine ⟨_, hx, ?_, ?_, ?_, hstore, ?_⟩
    · rw [pump_stream, onBuffer_stream, hstate]
    · rw [pump_stream, onBuffer_stream, hdiscard]
    · rw [pump_stream, onBuffer_stream, hclosing]
      rfl
    · rw [pump_drives]
      simp
  · have hs' : ((openTag s p tag .abort).stream b).state = .opening := hs
    rw [exec_abort_stream ht hb hclaim hr hv, abortStream, hs']
    rfl
  · have hs' : ((openTag s p tag .abort).stream b).state = .faulted := hs
    rw [exec_abort_stream ht hb hclaim hr hv, abortStream, hs']
    rfl
  · rw [closeStream_stream]
    rfl
  · have hends : (openTag s p tag .abort).abortsRestore p b = true := by
      have hr' : (openTag s p tag .abort).restore b = some r := hr
      rw [State.abortsRestore, hr', Option.any_some, Bool.or_eq_true, decide_eq_true_eq]
      exact how
    have hx := exec_abort ht hb hclaim hlost
    rw [abortBay, if_pos hends] at hx
    obtain ⟨u, hu, hending, hphase, haborts⟩ := restoreAbort_run (b := b) (r := { r with aborts := r.aborts ++ [⟨p, tag⟩] })
      (s := (openTag s p tag .abort).modRestore b fun r => { r with aborts := r.aborts ++ [⟨p, tag⟩] }) (by
        have hr' : (openTag s p tag .abort).restore b = some r := hr
        rw [modRestore_at, if_pos rfl, hr']
        rfl)
    have hstore := abort_store hx
    refine ⟨_, u, hx, ?_, hending, hphase, haborts, hstore, ?_⟩
    · rw [pump_restore, onBuffer_restore, hu]
    · rw [pump_drives]
      simp
  · have hends : (openTag s p tag .abort).abortsVerify p b = true := by
      have hr' : (openTag s p tag .abort).verifyRun b = some r := hr
      rw [State.abortsVerify, hr', Option.any_some, Bool.or_eq_true, decide_eq_true_eq]
      exact how
    have hx := exec_abort ht hb hclaim hlost
    rw [abortBay, if_neg (by simp [abortsRestore_none (s := openTag s p tag .abort) hnone]), if_pos hends] at hx
    obtain ⟨u, hu, hending, hphase, haborts⟩ := verifyAbort_run (b := b) (r := { r with aborts := r.aborts ++ [⟨p, tag⟩] })
      (s := (openTag s p tag .abort).modVerify b fun r => { r with aborts := r.aborts ++ [⟨p, tag⟩] }) (by
        have hr' : (openTag s p tag .abort).verifyRun b = some r := hr
        rw [modVerify_at, if_pos rfl, hr']
        rfl)
    have hstore := abort_store hx
    refine ⟨_, u, hx, ?_, hending, hphase, haborts, hstore, ?_⟩
    · rw [pump_verifyRun, onBuffer_verifyRun, hu]
    · rw [pump_drives]
      simp

end Sys2Proof.Machine
end

section
/-! PROOFS. The allocations and the internal reserve complete (R84, R88, R144, R147, R148, R160). -/

namespace Sys2Proof.Machine

/-! ### What a run's going on does to its staged list (R147, R148, R151) -/

/-- The entry y as it goes on: offered, or handed to its port. -/
structure Staged.GoesOn (y x : Staged) : Prop where
  block : x.block = y.block
  desc : x.desc = y.desc
  rawReady : x.rawReady = y.rawReady
  stage : x.stage = y.stage ∨ (y.stage = .ready ∧ x.stage = .sending)

theorem Staged.GoesOn.refl (x : Staged) : x.GoesOn x := ⟨rfl, rfl, rfl, .inl rfl⟩

theorem Staged.GoesOn.trans {x y z : Staged} (h : x.GoesOn y) (k : y.GoesOn z) : x.GoesOn z := by
  refine ⟨k.block.trans h.block, k.desc.trans h.desc, k.rawReady.trans h.rawReady, ?_⟩
  rcases h.stage with hs | ⟨hr, hs⟩ <;> rcases k.stage with ks | ⟨kr, ks⟩
  · exact .inl (ks.trans hs)
  · exact .inr ⟨hs.symm.trans kr, ks⟩
  · exact .inr ⟨hr, ks.trans hs⟩
  · exact .inr ⟨hr, ks⟩

/-- From l to m: entries that go on, and new ones without a descriptor. -/
structure Advanced (l m : List Staged) : Prop where
  back : ∀ x ∈ m, x.desc = none ∨ ∃ y ∈ l, y.GoesOn x
  forth : ∀ y ∈ l, ∃ x ∈ m, y.GoesOn x

theorem Advanced.refl (l : List Staged) : Advanced l l := ⟨fun x hx => .inr ⟨x, hx, .refl x⟩, fun y hy => ⟨y, hy, .refl y⟩⟩

theorem Advanced.trans {l m n : List Staged} (h : Advanced l m) (k : Advanced m n) : Advanced l n := by
  refine ⟨fun z hz => ?_, fun x hx => ?_⟩
  · rcases k.back z hz with hn | ⟨y, hy, hyz⟩
    · exact .inl hn
    · rcases h.back y hy with hn | ⟨x, hx, hxy⟩
      · exact .inl (hyz.desc.trans hn)
      · exact .inr ⟨x, hx, hxy.trans hyz⟩
  · obtain ⟨y, hy, hxy⟩ := h.forth x hx
    obtain ⟨z, hz, hyz⟩ := k.forth y hy
    exact ⟨z, hz, hxy.trans hyz⟩

theorem Advanced.of_map {l : List Staged} {f : Staged → Staged} (h : ∀ x : Staged, x.GoesOn (f x)) : Advanced l (l.map f) := by
  refine ⟨fun x hx => ?_, fun y hy => ⟨f y, List.mem_map_of_mem hy, h y⟩⟩
  obtain ⟨y, hy, rfl⟩ := List.mem_map.1 hx
  exact .inr ⟨y, hy, h y⟩

theorem advanced_append {l : List Staged} {e : Staged} (h : e.desc = none) : Advanced l (l ++ [e]) := by
  refine ⟨fun x hx => ?_, fun y hy => ⟨y, List.mem_append_left _ hy, .refl y⟩⟩
  rcases List.mem_append.1 hx with hx | hx
  · exact .inr ⟨x, hx, .refl x⟩
  · rw [List.mem_singleton.1 hx]
    exact .inl h

theorem Advanced.cons {x y : Staged} {l m : List Staged} (hxy : x.GoesOn y) (h : Advanced l m) : Advanced (x :: l) (y :: m) := by
  refine ⟨fun z hz => ?_, fun z hz => ?_⟩
  · rcases List.mem_cons.1 hz with rfl | hz
    · exact .inr ⟨x, List.mem_cons_self, hxy⟩
    · rcases h.back z hz with hn | ⟨w, hw, hwz⟩
      · exact .inl hn
      · exact .inr ⟨w, List.mem_cons_of_mem _ hw, hwz⟩
  · rcases List.mem_cons.1 hz with rfl | hz
    · exact ⟨y, List.mem_cons_self, hxy⟩
    · obtain ⟨w, hw, hzw⟩ := h.forth z hz
      exact ⟨w, List.mem_cons_of_mem _ hw, hzw⟩

theorem advanced_handFrom (u : Buffer) (b : Bay) (l : List Staged) : Advanced l (handFrom u b l).1 := by
  induction l with
  | nil => exact .refl []
  | cons e rest ih =>
    rw [handFrom]
    split
    · exact ih.cons (.refl e)
    · next hready => exact ih.cons ⟨rfl, rfl, rfl, .inr ⟨hready, rfl⟩⟩
    · exact .refl _

/-- The bay's run from r to one that differs in its staged list, advanced. -/
def RunAdvances (s t : State) (b : Bay) : Prop :=
  ∀ r, s.restore b = some r → ∃ l, t.restore b = some { r with staged := l } ∧ Advanced r.staged l

theorem RunAdvances.refl (s : State) (b : Bay) : RunAdvances s s b := fun r hr => ⟨r.staged, hr, .refl _⟩

theorem RunAdvances.trans {s t u : State} {b : Bay} (h : RunAdvances s t b) (k : RunAdvances t u b) : RunAdvances s u b := by
  intro r hr
  obtain ⟨l, ht, hl⟩ := h r hr
  obtain ⟨m, hu, hm⟩ := k _ ht
  exact ⟨m, hu, hl.trans hm⟩

theorem RunAdvances.of_modRestore {s : State} {b : Bay} {f : List Staged → List Staged} (h : ∀ l, Advanced l (f l)) :
    RunAdvances s (s.modRestore b fun r => { r with staged := f r.staged }) b := by
  intro r hr
  refine ⟨f r.staged, ?_, h _⟩
  rw [modRestore_at, if_pos rfl, hr]
  rfl

theorem RunAdvances.of_restores {s t : State} {b : Bay} (h : t.restores = s.restores) : RunAdvances s t b := by
  intro r hr
  exact ⟨r.staged, (restore_of_restores h b).trans hr, .refl _⟩

theorem runAdvances_askNext (s : State) (b : Bay) : RunAdvances s (askNext s b) b := by
  unfold askNext
  split
  · next r _ =>
    split
    · have hadded : RunAdvances s (addStaged s b ⟨r.next, none, .reserving, none, false, false⟩) b :=
        .of_modRestore fun l => advanced_append rfl
      exact hadded.trans (.of_restores (by simp))
    · exact .refl s b
  · exact .refl s b

theorem runAdvances_offered (s : State) (b : Bay) (block : Nat) :
    RunAdvances s (modStaged s b block fun e => { e with offered := true }) b := by
  refine .of_modRestore fun l => .of_map fun x => ?_
  split
  · exact ⟨rfl, rfl, rfl, .inl rfl⟩
  · exact .refl x

theorem runAdvances_offerStaged (s : State) (b : Bay) : RunAdvances s (offerStaged s b) b := by
  unfold offerStaged
  split
  · split
    · next e _ =>
      split
      · split
        · exact (RunAdvances.of_restores (s := s) (by simp)).trans (runAdvances_offered _ b e.block)
        · exact .refl s b
      · exact .refl s b
    · exact .refl s b
  · exact .refl s b

theorem runAdvances_handReady (s : State) (b : Bay) : RunAdvances s (handReady s b) b := by
  intro r hr
  refine ⟨(handFrom s.buffer b r.staged).1, ?_, advanced_handFrom s.buffer b r.staged⟩
  rw [handReady, hr]
  dsimp only
  rw [restore_of_restores (s := s.setRestore b (some { r with staged := (handFrom s.buffer b r.staged).1 })) (by simp), setRestore_at,
    if_pos rfl]

theorem runAdvances_restoreAdvance (s : State) (b : Bay) : RunAdvances s (restoreAdvance s b) b :=
  ((runAdvances_askNext s b).trans (runAdvances_offerStaged _ b)).trans (runAdvances_handReady _ b)

/-! ### READ_ALLOCATION_COMPLETE -/

theorem Drive.readsAt_of {d : Drive} {n : Nat} (howes : d.owes = false) (hidle : d.state = .idle) (hpos : d.posBlock = some n) :
    d.readsAt n = true := by
  simp [Drive.readsAt, Drive.standsAt, howes, hidle, hpos]

theorem Drive.readsAt_elsewhere {d : Drive} {n : Nat} (hpos : d.posBlock ≠ some n) : d.readsAt n = false := by
  simp [Drive.readsAt, Drive.standsAt, hpos]

theorem Drive.issue_timer {d : Drive} (howes : d.owes = false) (o : Order) (st : DriveState) : (d.issue o st).timer = .running 600000 :=
    by
  simp [Drive.issue, Drive.timerAtIssue, howes, Config.replyLimitMs]

section
variable {s : State} {b : Bay} {a : Alloc} {r : RestoreRun} {n : Nat}

theorem exec_readAllocation (ha : s.buffer.readAlloc b = some a) (hcomplete : s.buffer.allocComplete a = true) (hr : s.restore b = some r)
    (hend : r.ending = none) (hn : r.readBlock = some n) (howes : (s.drive b).owes = false) (hidle : (s.drive b).state = .idle) :
    ((s.drive b).posBlock = some n → exec (.readAllocationComplete b) s = finish (readIssued s b r a.desc))
    ∧ ((s.drive b).posBlock ≠ some n → exec (.readAllocationComplete b) s = .next s) := by
  have hexec : exec (.readAllocationComplete b) s
      = if s.buffer.allocComplete a && r.ending.isNone && r.readBlock.any (s.drive b).readsAt then finish (readIssued s b r a.desc)
        else .next s := by
    change execReadAllocationComplete b s = _
    rw [execReadAllocationComplete, ha, hr]
  rw [hexec, hn, hcomplete, hend]
  refine ⟨fun hpos => if_pos ?_, fun hpos => if_neg ?_⟩
  · simp [Drive.readsAt_of howes hidle hpos]
  · simp [Drive.readsAt_elsewhere hpos]

theorem readIssued_entry {e : Staged} (hi : r.index = none) (he : r.staged.find? (fun x => x.stage = .reserving) = some e)
    (id : Option Nat) : readIssued s b r id
      = (modStaged { s with buffer := s.buffer.dropRead b } b e.block fun e => { e with desc := id, stage := .reading }).modDrive b fun d
          =>
          d.issue (.read e.block) .reading := by
  unfold readIssued
  simp only [hi, he]

theorem readIssued_index {x : IndexRead} (hi : r.index = some x) (id : Option Nat) : readIssued s b r id
    = (({ s with buffer := s.buffer.dropRead b } : State).modRestore b fun r =>
        { r with index := some { x with desc := id, stage := .reading } }).modDrive b fun d => d.issue (.read x.block) .reading := by
  unfold readIssued
  simp only [hi]

theorem readIssued_entry_at {e : Staged} (hr : s.restore b = some r) (hi : r.index = none)
    (he : r.staged.find? (fun x => x.stage = .reserving) = some e) (id : Option Nat) :
    (readIssued s b r id).restore b = some { r with
      staged := r.staged.map fun x => if x.block = e.block then { x with desc := id, stage := .reading } else x }
    ∧ (readIssued s b r id).drive b = (s.drive b).issue (.read e.block) .reading := by
  have hr' : ({ s with buffer := s.buffer.dropRead b } : State).restore b = some r := hr
  have hd' : ({ s with buffer := s.buffer.dropRead b } : State).drive b = s.drive b := rfl
  rw [readIssued_entry hi he, State.modDrive_read_restore, modDrive_at, if_pos rfl, modStaged, modRestore_at, if_pos rfl, hr']
  exact ⟨rfl, rfl⟩

theorem readIssued_index_at {x : IndexRead} (hr : s.restore b = some r) (hi : r.index = some x) (id : Option Nat) :
    (readIssued s b r id).restore b = some { r with index := some { x with desc := id, stage := .reading } }
    ∧ (readIssued s b r id).drive b = (s.drive b).issue (.read x.block) .reading := by
  have hr' : ({ s with buffer := s.buffer.dropRead b } : State).restore b = some r := hr
  rw [readIssued_index hi, State.modDrive_read_restore, modDrive_at, if_pos rfl, modRestore_at, if_pos rfl, hr']
  exact ⟨rfl, rfl⟩

end

theorem readAllocation_frame {s t : State} {b : Bay} (hx : exec (.readAllocationComplete b) s = .next t) :
    t.store = s.store ∧ t.elements = s.elements ∧ t.picker = s.picker := by
  have hleaves := exec_leaves _ s _ hx
  have hstore := congrArg State.store hleaves
  have helements := congrArg State.elements hleaves
  have hpicker := congrArg State.picker hleaves
  exact ⟨hstore, helements, hpicker⟩

/-! ### EXPAND_ALLOCATION_COMPLETE -/

theorem onRunOf_cases (s : State) (b : Bay) (id : Option Nat) (f : State → State) : onRunOf s b id f = f s
    ∨ ((s.restore b).any (fun r => r.stages id) = false ∧ (onRunOf s b id f).restore b = s.restore b) := by
  unfold onRunOf
  split
  · exact .inl rfl
  · next hnot =>
    split
    · refine .inr ⟨Bool.eq_false_iff.2 hnot, ?_⟩
      unfold onLeftRestore
      split
      · dsimp only
        rw [State.restore, State.setRestoreRuns, PerBay.get_set, if_pos rfl]
      · rfl
    · exact .inl rfl

/-- Every entry of descriptor `id` has its allocation complete. -/
def RestoreRun.rawIsReady (r : RestoreRun) (id : Option Nat) : Prop := ∀ x ∈ r.staged, x.desc = id → x.desc.isSome = true → x.rawReady =
    true

theorem expandReady_rawIsReady {s : State} {b : Bay} {id : Option Nat} {r : RestoreRun} (hr : s.restore b = some r) :
    ∃ u, (expandReady b id s).restore b = some u ∧ u.rawIsReady id := by
  have hmod : (s.modRestore b fun r => { r with staged := r.staged.map fun e => if e.desc = id then { e with rawReady := true } else e
      }).restore b
      = some { r with staged := r.staged.map fun e => if e.desc = id then { e with rawReady := true } else e } := by
    rw [modRestore_at, if_pos rfl, hr]
    rfl
  obtain ⟨l, hu, hl⟩ := runAdvances_restoreAdvance _ b _ hmod
  refine ⟨_, hu, fun x hx hid hsome => ?_⟩
  rcases hl.back x hx with hn | ⟨y, hy, hyx⟩
  · simp [hn] at hsome
  · obtain ⟨z, -, rfl⟩ := List.mem_map.1 hy
    rw [hyx.rawReady]
    have hdesc := hyx.desc.symm.trans hid
    by_cases hz : z.desc = id
    · simp [hz]
    · rw [if_neg hz] at hdesc
      exact absurd hdesc hz

theorem RestoreRun.rawIsReady_of_not_stages {r : RestoreRun} {id : Option Nat} (h : r.stages id = false) : r.rawIsReady id := by
  intro x hx hid hsome
  have := List.any_eq_false.1 h x hx
  simp [hid, hid ▸ hsome] at this

theorem onRunOf_rawIsReady {s : State} {b : Bay} {id : Option Nat} {r : RestoreRun} (hr : s.restore b = some r) :
    ∃ u, (onRunOf s b id (expandReady b id)).restore b = some u ∧ u.rawIsReady id := by
  rcases onRunOf_cases s b id (expandReady b id) with h | ⟨hnot, h⟩
  · rw [h]
    exact expandReady_rawIsReady hr
  · rw [h]
    refine ⟨r, hr, RestoreRun.rawIsReady_of_not_stages ?_⟩
    rw [hr] at hnot
    exact hnot

theorem exec_expandAllocation {s : State} {b : Bay} {a : Alloc} (ha : s.buffer.readyExpand b = some a) :
    ∃ u : State, u.restores = s.restores
      ∧ exec (.expandAllocationComplete b) s = finish (onRunOf u b a.desc (expandReady b a.desc)) := by
  have hset : ∃ x : Buffer, execExpandAllocationComplete b s
      = finish (onRunOf { s with buffer := x } b a.desc (expandReady b a.desc)) := by
    rw [execExpandAllocationComplete, ha]
    exact ⟨_, rfl⟩
  obtain ⟨x, hx⟩ := hset
  exact ⟨{ s with buffer := x }, rfl, hx⟩

theorem expandAllocation_frame {s t : State} {b : Bay} (hx : exec (.expandAllocationComplete b) s = .next t) :
    t.store = s.store ∧ t.elements = s.elements ∧ t.picker = s.picker ∧ t.drives = s.drives := by
  have hleaves := exec_leaves _ s _ hx
  have hstore := congrArg State.store hleaves
  have helements := congrArg State.elements hleaves
  have hpicker := congrArg State.picker hleaves
  have hdrives := congrArg State.drives hleaves
  exact ⟨hstore, helements, hpicker, hdrives⟩

/-! ### VERIFY_RESERVATION_MET -/

theorem exec_reservationMet {s : State} {b : Bay} {rest : List Bay} {r : VerifyRun} (hw : s.buffer.verifyWaiting = b :: rest)
    (hr : s.verifyRun b = some r) (hphase : r.phase = .reserving) (hwhole : s.buffer.internalFree = 64)
    (hdesc : 0 < s.buffer.descInternalFree) (howes : (s.drive b).owes = false) (hidle : (s.drive b).state = .idle) :
    ((s.drive b).posBlock = some r.next → exec .verifyReservationMet s = finish (reservationMet s b r))
    ∧ ((s.drive b).posBlock ≠ some r.next → exec .verifyReservationMet s = .next s) := by
  have hexec : exec .verifyReservationMet s
      = if s.buffer.reserveWhole && r.phase = .reserving && (s.drive b).readsAt r.next then finish (reservationMet s b r)
        else .next s := by
    change execVerifyReservationMet s = _
    rw [execVerifyReservationMet, hw]
    dsimp only
    rw [hr]
  have hreserve : s.buffer.reserveWhole = true := by simp [Buffer.reserveWhole, hwhole, hdesc, Config.internalUnits]
  rw [hexec]
  refine ⟨fun hpos => if_pos ?_, fun hpos => if_neg ?_⟩
  · simp [Drive.readsAt_of howes hidle hpos, hreserve, hphase]
  · simp [Drive.readsAt_elsewhere hpos]

theorem modVerify_drive (s : State) (a b : Bay) (f : VerifyRun → VerifyRun) : (s.modVerify a f).drive b = s.drive b := rfl

theorem modVerify_buffer (s : State) (a : Bay) (f : VerifyRun → VerifyRun) : (s.modVerify a f).buffer = s.buffer := rfl

theorem reservationMet_at {s : State} {b : Bay} {r : VerifyRun} (hr : s.verifyRun b = some r) :
    (reservationMet s b r).verifyRun b = some { r with phase := .reading, inHand := some (r.next, s.buffer.freshId) }
    ∧ (reservationMet s b r).drive b = (s.drive b).issue (.read r.next) .reading := by
  constructor
  · rw [reservationMet, State.modDrive_read_verifyRun, modVerify_at, if_pos rfl, onBuffer_verifyRun, hr]
    rfl
  · rw [reservationMet, modDrive_at, if_pos rfl, modVerify_drive, onBuffer_drive]

theorem takeReserve_at (u : Buffer) : u.takeReserve.internalFree = u.internalFree - 64
    ∧ u.takeReserve.descInternalFree = u.descInternalFree - 1
    ∧ u.takeReserve.desc u.freshId = some ⟨u.freshId, .internal, List.replicate 64 .internal, [], [], []⟩ :=
  ⟨rfl, rfl, List.find?_cons_of_pos (decide_eq_true rfl)⟩

theorem reservationMet_buffer (s : State) (b : Bay) (r : VerifyRun) :
    (reservationMet s b r).buffer = (s.buffer.withdrawReserve b).takeReserve := by
  rw [reservationMet, State.modDrive_buffer, modVerify_buffer, onBuffer_buffer]

theorem reservationMet_reserve (s : State) (b : Bay) (r : VerifyRun) :
    (reservationMet s b r).buffer.internalFree = s.buffer.internalFree - 64
    ∧ (reservationMet s b r).buffer.descInternalFree = s.buffer.descInternalFree - 1
    ∧ (reservationMet s b r).buffer.desc s.buffer.freshId
      = some ⟨s.buffer.freshId, .internal, List.replicate 64 .internal, [], [], []⟩ := by
  rw [reservationMet_buffer]
  exact takeReserve_at (s.buffer.withdrawReserve b)

theorem reservationMet_frame {s t : State} (hx : exec .verifyReservationMet s = .next t) :
    t.store = s.store ∧ t.elements = s.elements ∧ t.picker = s.picker := by
  have hleaves := exec_leaves _ s _ hx
  have hstore := congrArg State.store hleaves
  have helements := congrArg State.elements hleaves
  have hpicker := congrArg State.picker hleaves
  exact ⟨hstore, helements, hpicker⟩

/-- Settles O58. -/
theorem allocationsComplete : Obligations.AllocationsComplete := by
  refine ⟨fun s b a r e ha hcomplete hr hend hi he howes hidle => ?_, fun s b a r x ha hcomplete hr hend hi howes hidle => ?_,
    fun s b a r ha hr => ?_, fun s b rest r hw hr hphase hwhole hdesc howes hidle => ?_⟩
  · have hn : r.readBlock = some e.block := by simp [RestoreRun.readBlock, hi, he]
    obtain ⟨hat, helse⟩ := exec_readAllocation ha hcomplete hr hend hn howes hidle
    refine ⟨fun hpos => ?_, helse⟩
    have hx := hat hpos
    obtain ⟨hrun, hdrive⟩ := readIssued_entry_at hr hi he a.desc
    refine ⟨_, _, hx, hrun, rfl, ?_, ?_, ?_, readAllocation_frame hx⟩ <;> rw [pump_drive, hdrive]
    · rfl
    · rfl
    · exact Drive.issue_timer howes _ _
  · have hn : r.readBlock = some x.block := by simp [RestoreRun.readBlock, hi]
    obtain ⟨hat, helse⟩ := exec_readAllocation ha hcomplete hr hend hn howes hidle
    refine ⟨fun hpos => ?_, helse⟩
    have hx := hat hpos
    obtain ⟨hrun, hdrive⟩ := readIssued_index_at hr hi a.desc
    refine ⟨_, _, hx, hrun, rfl, ?_, ?_, ?_, readAllocation_frame hx⟩ <;> rw [pump_drive, hdrive]
    · rfl
    · rfl
    · exact Drive.issue_timer howes _ _
  · obtain ⟨s1, hs1, hx⟩ := exec_expandAllocation ha
    have hr1 : s1.restore b = some r := (restore_of_restores hs1 b).trans hr
    obtain ⟨u, hu, hready⟩ := onRunOf_rawIsReady (id := a.desc) hr1
    have hframe := expandAllocation_frame hx
    exact ⟨_, u, hx, by rw [pump_restore, hu], hready, hframe⟩
  · obtain ⟨hat, helse⟩ := exec_reservationMet hw hr hphase hwhole hdesc howes hidle
    refine ⟨fun hpos => ?_, helse⟩
    have hx := hat hpos
    obtain ⟨hrun, hdrive⟩ := reservationMet_at hr
    obtain ⟨hfree, hdescs, hblock⟩ := reservationMet_reserve s b r
    obtain ⟨hstore, helements, hpicker⟩ := reservationMet_frame hx
    refine ⟨_, { r with phase := .reading, inHand := some (r.next, s.buffer.freshId) }, hx, ?_, rfl, rfl, ?_, ?_, ?_, ?_, ?_, ?_, hstore,
      helements, hpicker⟩
    · rw [pump_verifyRun, hrun]
    · rw [pump_buffer, hfree, hwhole]
    · rw [pump_buffer, hdescs]
    · rw [pump_buffer, hblock]
      exact ⟨_, rfl, rfl, rfl⟩
    · rw [pump_drive, hdrive]
      rfl
    · rw [pump_drive, hdrive]
      exact Drive.issue_timer howes _ _
    · rw [pump_drive, hdrive]
      rfl

end Sys2Proof.Machine
end

section
/-! PROOFS. ENGINE_TAKE_ITEM and SHRINK_COMPLETE (R132, R135, R148). -/

namespace Sys2Proof.Machine

/-! ### What is due an offer place (R148) -/

/-- A place that holds an item is offered nothing. -/
theorem offerStaged_full {s : State} {b : Bay} (h : (s.offered b).isSome = true) : offerStaged s b = s := by
  have hnone : (s.offered b).isNone = false := by
    rw [Option.isNone_eq_false_iff]
    exact h
  unfold offerStaged
  split
  · split
    · split
      · rw [if_neg (by simp [hnone])]
      · rfl
    · rfl
  · rfl

theorem setRestoreRuns_self {s : State} {b : Bay} {x : RestoreRuns} (h : x = s.restores.get b) : s.setRestoreRuns b x = s := by
  subst h
  cases b <;> rfl

theorem onLeftRestore_unchanged {s : State} {b : Bay} {k : Nat} {f : State → State} (hf : ∀ r, f (s.setRestore b (some r)) = s.setRestore
    b (some r)) :
    onLeftRestore s b k f = s := by
  unfold onLeftRestore
  split
  · next r hr =>
    dsimp only
    rw [hf]
    have hrun : (s.setRestore b (some r)).restore b = some r := by rw [setRestore_at, if_pos rfl]
    rw [hrun, Option.getD_some]
    have hset : (s.setRestore b (some r)).setRestoreRuns b ⟨s.restore b, (s.restores.get b).left.set k r⟩
        = s.setRestoreRuns b ⟨s.restore b, (s.restores.get b).left.set k r⟩ := by cases b <;> rfl
    have hlist : (s.restores.get b).left.set k r = (s.restores.get b).left := by
      obtain ⟨hk, rfl⟩ := List.getElem?_eq_some_iff.1 hr
      exact List.set_getElem_self hk
    rw [hset, hlist]
    exact setRestoreRuns_self rfl
  · rfl

theorem offerDue_full {s : State} {b : Bay} (h : (s.offered b).isSome = true) : offerDue s b = s := by
  have hleft : onLeftRestores s b (fun _ => true) (fun t => offerStaged t b) = s := by
    unfold onLeftRestores
    suffices ∀ l : List Nat, l.foldl (fun t k => if ((t.restores.get b).left[k]?).any fun _ => true then
        onLeftRestore t b k fun t => offerStaged t b else t) s = s from this _
    intro l
    induction l with
    | nil => rfl
    | cons k l ih =>
      rw [List.foldl_cons]
      have hsame : onLeftRestore s b k (fun t => offerStaged t b) = s :=
        onLeftRestore_unchanged fun r => offerStaged_full (s := s.setRestore b (some r)) h
      rw [hsame, ite_self]
      exact ih
  rw [offerDue, hleft, offerStaged_full h]

/-- A bay without a run is due nothing. -/
theorem offerDue_idle {s : State} {b : Bay} (h : s.restores.get b = ⟨none, []⟩) : offerDue s b = s := by
  have hleft : onLeftRestores s b (fun _ => true) (fun t => offerStaged t b) = s := by
    rw [onLeftRestores, h]
    rfl
  have hnone : s.restore b = none := congrArg RestoreRuns.current h
  rw [offerDue, hleft, offerStaged, hnone]

/-- From s to t: one bay's offer places and runs. -/
structure OffersAt (s t : State) (b : Bay) : Prop where
  inHand : t.engine.inHand = s.engine.inHand
  lastServed : t.engine.lastServed = s.engine.lastServed
  other : t.engine.offer.get b.other = s.engine.offer.get b.other

theorem OffersAt.refl (s : State) (b : Bay) : OffersAt s s b := ⟨rfl, rfl, rfl⟩

theorem OffersAt.trans {s t u : State} {b : Bay} (h : OffersAt s t b) (k : OffersAt t u b) : OffersAt s u b :=
  ⟨k.inHand.trans h.inHand, k.lastServed.trans h.lastServed, k.other.trans h.other⟩

theorem offersAt_offerItem (s : State) (i : Item) : OffersAt s (offerItem s i) i.bay := by
  have hput : (offerItem s i).engine = s.engine.put i := rfl
  refine ⟨?_, ?_, ?_⟩ <;> rw [hput, Engine.put] <;> split
  · rfl
  · rfl
  · rfl
  · rfl
  · rw [PerBay.get_set, if_neg (bay_other_ne i.bay)]
  · rfl

theorem offersAt_offerStaged (s : State) (b : Bay) : OffersAt s (offerStaged s b) b := by
  unfold offerStaged
  split
  · split
    · split
      · split
        · next id h _ _ _ =>
          have hput := offersAt_offerItem s ⟨b, .deliver, id, h, false⟩
          exact ⟨hput.inHand, hput.lastServed, hput.other⟩
        · exact .refl s b
      · exact .refl s b
    · exact .refl s b
  · exact .refl s b

theorem offersAt_onLeftRestore (s : State) (b : Bay) (k : Nat) : OffersAt s (onLeftRestore s b k fun t => offerStaged t b) b := by
  unfold onLeftRestore
  split
  · next r _ =>
    have h := offersAt_offerStaged (s.setRestore b (some r)) b
    exact ⟨h.inHand, h.lastServed, h.other⟩
  · exact .refl s b

theorem offersAt_offerDue (s : State) (b : Bay) : OffersAt s (offerDue s b) b := by
  have hleft : ∀ (l : List Nat) (t : State), OffersAt t (l.foldl (fun t k => if ((t.restores.get b).left[k]?).any fun _ => true then
      onLeftRestore t b k fun t => offerStaged t b else t) t) b := by
    intro l
    induction l with
    | nil => exact fun t => .refl t b
    | cons k l ih =>
      intro t
      rw [List.foldl_cons]
      refine OffersAt.trans ?_ (ih _)
      split
      · exact offersAt_onLeftRestore t b k
      · exact .refl t b
  exact (hleft _ s).trans (offersAt_offerStaged _ b)

/-! ### ENGINE_TAKE_ITEM -/

theorem exec_engineTakeItem {s u : State} {i : Item} (h : s.engine.inHand = none) (hdue : offerDue (offerDue s .d0) .d1 = u)
    (hi : u.engine.choose = some i) : exec .engineTakeItem s = .next (pump (offerDue (takeItem u i) i.bay)) := by
  change execEngineTakeItem s = _
  rw [execEngineTakeItem, h, Option.isSome_none, if_neg Bool.false_ne_true, hdue]
  dsimp only
  rw [hi]
  rfl

theorem takeItem_engine (s : State) (i : Item) : (takeItem s i).engine.inHand = some i ∧ (takeItem s i).engine.lastServed = i.bay
    ∧ (∀ a, (takeItem s i).engine.offer.get a = if a = i.bay then (s.engine.behind.get i.bay).head? else s.engine.offer.get a)
    ∧ (takeItem s i).engine.behind.get i.bay = (s.engine.behind.get i.bay).tail := by
  have hload : (s.engine.load i (itemBytes s i)).offer = s.engine.offer ∧ (s.engine.load i (itemBytes s i)).behind = s.engine.behind := by
    unfold Engine.load
    split
    · exact ⟨rfl, rfl⟩
    · split <;> exact ⟨rfl, rfl⟩
  refine ⟨rfl, rfl, fun a => ?_, ?_⟩
  · change ((s.engine.load i (itemBytes s i)).offer.set i.bay ((s.engine.load i (itemBytes s i)).behind.get i.bay).head?).get a = _
    rw [PerBay.get_set, hload.1, hload.2]
  · change ((s.engine.load i (itemBytes s i)).behind.set i.bay ((s.engine.load i (itemBytes s i)).behind.get i.bay).tail).get i.bay = _
    rw [PerBay.get_set, if_pos rfl, hload.2]

/-- What the taking of an item leaves at the engine, whatever is then due its place. -/
theorem itemTaken (s : State) (i : Item) : (pump (offerDue (takeItem s i) i.bay)).engine.inHand = some i
      ∧ (pump (offerDue (takeItem s i) i.bay)).engine.lastServed = i.bay
      ∧ (pump (offerDue (takeItem s i) i.bay)).engine.offer.get i.bay.other = s.engine.offer.get i.bay.other
      ∧ (s.engine.behind.get i.bay = [] → s.restores.get i.bay = ⟨none, []⟩ →
          (pump (offerDue (takeItem s i) i.bay)).engine.offer.get i.bay = none)
      ∧ ∀ k rest, s.engine.behind.get i.bay = k :: rest →
          (pump (offerDue (takeItem s i) i.bay)).engine.offer.get i.bay = some k
          ∧ (pump (offerDue (takeItem s i) i.bay)).engine.behind.get i.bay = rest := by
  obtain ⟨hhand, hlast, hoffer, hbehind⟩ := takeItem_engine s i
  have hdue := offersAt_offerDue (takeItem s i) i.bay
  rw [pump_engine]
  refine ⟨?_, ?_, ?_, fun hb hr => ?_, fun k rest hb => ?_⟩
  · rw [hdue.inHand, hhand]
  · rw [hdue.lastServed, hlast]
  · rw [hdue.other, hoffer, if_neg (bay_other_ne i.bay)]
  · rw [offerDue_idle (s := takeItem s i) hr, hoffer, if_pos rfl, hb]
    rfl
  · have hfull : ((takeItem s i).offered i.bay) = some k := by
      rw [State.offered, hoffer, if_pos rfl, hb]
      rfl
    rw [offerDue_full (by rw [hfull]; rfl), hbehind, hb]
    exact ⟨hfull, rfl⟩

theorem engineTakeItem_frame {s t : State} (hx : exec .engineTakeItem s = .next t) :
    { t with engine := s.engine, restores := s.restores, ports := s.ports } = s := exec_leaves _ s t hx

/-- Both places offered nothing more. -/
theorem offerDue_both {s : State} {b : Bay} (h : offerDue s b = s) (k : offerDue s b.other = s) :
    offerDue (offerDue s .d0) .d1 = s := by
  cases b
  · exact (congrArg (offerDue · .d1) h).trans k
  · exact (congrArg (offerDue · .d1) k).trans h

theorem offered_of_offer {s : State} {b : Bay} {i : Item} (h : s.engine.offer.get b = some i) : (s.offered b).isSome = true := by
  rw [State.offered, h]
  rfl

theorem choose_other {e : Engine} {i : Item} (h : e.offer.get e.lastServed.other = some i) : e.choose = some i := by
  rw [Engine.choose, h]

theorem bay_cases (a b : Bay) : a = b ∨ a.other = b := by cases a <;> cases b <;> decide

theorem bay_other_other (b : Bay) : b.other.other = b := by cases b <;> rfl

theorem choose_only {e : Engine} {i : Item} (h : e.offer.get i.bay = some i) (hother : e.offer.get i.bay.other = none) :
    e.choose = some i := by
  rcases bay_cases i.bay e.lastServed with hb | hb
  · rw [Engine.choose, ← hb, hother]
    exact h
  · rw [Engine.choose, ← hb, bay_other_other, h]

/-- The one entry that is due the empty place of its bay is offered. -/
theorem offerDue_offers {s : State} {b : Bay} {r : RestoreRun} {e : Staged} {id : Nat} {h : TapeHeader}
    (hnone : s.engine.offer.get b = none) (hruns : s.restores.get b = ⟨some r, []⟩)
    (he : r.staged.find? (fun x => x.stage = .expanding && !x.offered) = some e) (hid : e.desc = some id) (hh : e.header = some h)
    (hready : e.rawReady = true) :
    offerDue s b = modStaged (offerItem s ⟨b, .deliver, id, h, false⟩) b e.block fun e => { e with offered := true } := by
  have hleft : onLeftRestores s b (fun _ => true) (fun t => offerStaged t b) = s := by
    rw [onLeftRestores, hruns]
    rfl
  have hrun : s.restore b = some r := congrArg RestoreRuns.current hruns
  have hplace : (s.offered b).isNone = true := by rw [State.offered, hnone]; rfl
  rw [offerDue, hleft]
  unfold offerStaged
  simp only [hrun, he, hid, hh, hready, hplace, Bool.and_self, if_true]

/-! ### SHRINK_COMPLETE -/

/-- No block of the stream is offered to a drive that takes no write. -/
theorem offerBlocks_untaken {s : State} {b : Bay} (hw : (s.drive b).takesWrite = false) (hnext : (s.stream b).nextBlock < 4294967295)
    (hblocks : ((s.stream b).records.all fun x => decide (x.block.getD 0 < 4294967295)) = true) : offerBlocks s b = s := by
  have none' : offerOnce s b = none := by
    unfold offerOnce
    dsimp only
    split
    · rfl
    · split
      · next r hr =>
        have hblock := of_decide_eq_true (List.all_eq_true.1 hblocks r (List.mem_of_find?_eq_some hr))
        have hbelow : ¬ Config.absent32 ≤ r.block.getD (s.stream b).nextBlock := by
          change ¬ 4294967295 ≤ _
          cases hb : r.block with
          | none => simpa using hnext
          | some n => simpa [hb] using hblock
        rw [if_neg hbelow, hw]
        split <;> rfl
      · rfl
  simp [offerBlocks, offerRun, none']

/-- A record of number `num` as SHRINK leaves it. -/
def Rec.storedAs (num : Nat) (k : Coded) (q : Rec) : Rec := if q.num = num then { q with state := .stored, coded := some k } else q

theorem Rec.storedAs_block (num : Nat) (k : Coded) (q : Rec) : (q.storedAs num k).block = q.block := by
  unfold Rec.storedAs
  split <;> rfl

theorem Rec.storedAs_of_num {num : Nat} {k : Coded} {q : Rec} (h : (q.storedAs num k).num = num) : (q.storedAs num k).state = .stored :=
    by
  unfold Rec.storedAs at h ⊢
  split at h
  · next hq => rw [if_pos hq]
  · next hq => exact absurd h hq

theorem Rec.offeredWhen_block (num : Nat) (q : Rec) : (q.offeredWhen num).block = q.block := by
  unfold Rec.offeredWhen
  split <;> rfl

/-- The state in which SHRINK has stored its record, before the next offers. -/
def shrinkKept (s : State) (b : Bay) (r : Rec) (x : Form × List Byte) : State :=
  (trimDesc (placeBytes s r.desc x.2) r.desc (unitsFor x.2.length)).modStream b fun c =>
    { c with records := c.records.map (Rec.storedAs r.num ⟨x.1, x.2.length, checkWord s.engine.workRaw⟩) }

theorem shrinkStored_eq (s : State) (b : Bay) (r : Rec) (x : Form × List Byte) :
    shrinkStored s b r x = offerBlocks (offerEngine (shrinkKept s b r x) b) b := rfl

theorem shrinkKept_stream (s : State) (b : Bay) (r : Rec) (x : Form × List Byte) : (shrinkKept s b r x).stream b = { s.stream b with
    records := (s.stream b).records.map (Rec.storedAs r.num ⟨x.1, x.2.length, checkWord s.engine.workRaw⟩) } := by
  have hstream : (trimDesc (placeBytes s r.desc x.2) r.desc (unitsFor x.2.length)).stream b = s.stream b :=
    stream_of_streams (by simp) b
  rw [shrinkKept, modStream_at, if_pos rfl, hstream]

theorem offerEngine_raw (s : State) (b : Bay) : (offerEngine s b).stream b = s.stream b ∨ ∃ q ∈ (s.stream b).records, q.state = .raw
    ∧ (offerEngine s b).stream b = { s.stream b with records := (s.stream b).records.map (Rec.offeredWhen q.num) } := by
  unfold offerEngine
  dsimp only
  split
  · split
    · next q hq =>
      refine .inr ⟨q, List.mem_of_find?_eq_some hq, by simpa using List.find?_some hq, ?_⟩
      exact (modStream_at s b b fun c => { c with records := c.records.map (Rec.offeredWhen q.num) }).trans (if_pos rfl)
    · exact .inl rfl
  · exact .inl rfl

theorem offerEngine_inHand (s : State) (b : Bay) : (offerEngine s b).engine.inHand = s.engine.inHand := by
  unfold offerEngine
  dsimp only
  split
  · split
    · exact (offersAt_offerItem _ _).inHand
    · rfl
  · rfl

section
variable {s : State} {b : Bay} {r : Rec} (x : Form × List Byte)

theorem shrinkStored_offers (hw : (s.drive b).takesWrite = false) (hnext : (s.stream b).nextBlock < 4294967295)
    (hblocks : ((s.stream b).records.all fun x => decide (x.block.getD 0 < 4294967295)) = true) :
    shrinkStored s b r x = offerEngine (shrinkKept s b r x) b := by
  have hdrive : (offerEngine (shrinkKept s b r x) b).drive b = s.drive b := congrArg (PerBay.get · b) (by simp [shrinkKept])
  have hstream := shrinkKept_stream s b r x
  have hblock : ∀ q ∈ (s.stream b).records, q.block.getD 0 < 4294967295 := fun q hq =>
    of_decide_eq_true (List.all_eq_true.1 hblocks q hq)
  rw [shrinkStored_eq]
  refine offerBlocks_untaken (by rw [hdrive]; exact hw) ?_ ?_
  · rcases offerEngine_stream (shrinkKept s b r x) b with h | ⟨num, h⟩ <;> rw [h, hstream] <;> exact hnext
  · rw [List.all_eq_true]
    intro q hq
    rw [decide_eq_true_eq]
    rcases offerEngine_stream (shrinkKept s b r x) b with h | ⟨num, h⟩ <;> rw [h, hstream] at hq
    · obtain ⟨y, hy, rfl⟩ := List.mem_map.1 hq
      rw [Rec.storedAs_block]
      exact hblock y hy
    · obtain ⟨z, hz, rfl⟩ := List.mem_map.1 hq
      obtain ⟨y, hy, rfl⟩ := List.mem_map.1 hz
      rw [Rec.offeredWhen_block, Rec.storedAs_block]
      exact hblock y hy

theorem shrinkKept_record (hr : r ∈ (s.stream b).records) : ∃ q ∈ ((offerEngine (shrinkKept s b r x) b).stream b).records, q.num = r.num
    ∧ q.state = .stored ∧ q.coded = some ⟨x.1, x.2.length, checkWord s.engine.workRaw⟩ := by
  have hstream := shrinkKept_stream s b r x
  have hstored : { r with state := .stored, coded := some ⟨x.1, x.2.length, checkWord s.engine.workRaw⟩ }
      ∈ ((shrinkKept s b r x).stream b).records := by
    rw [hstream]
    exact List.mem_map.2 ⟨r, hr, if_pos rfl⟩
  rcases offerEngine_raw (shrinkKept s b r x) b with h | ⟨y, hy, hraw, h⟩ <;> rw [h]
  · exact ⟨_, hstored, rfl, rfl, rfl⟩
  · have hne : r.num ≠ y.num := by
      intro he
      rw [hstream] at hy
      obtain ⟨z, -, rfl⟩ := List.mem_map.1 hy
      rw [Rec.storedAs_of_num he.symm] at hraw
      cases hraw
    exact ⟨_, List.mem_map.2 ⟨_, hstored, if_neg hne⟩, rfl, rfl, rfl⟩

end

theorem exec_shrinkComplete {s : State} {i : Item} {on : Bool} {r : Rec} (hi : s.engine.inHand = some i) (hkind : i.kind = .shrink on)
    (hkept : i.abandoned = false) (hr : (s.stream i.bay).records.find? (fun x => x.desc = i.desc) = some r) :
    exec .shrinkComplete s = finishCredit (shrinkStored (engineFree s) i.bay r (shrinkRecord on s.engine.workRaw)) := by
  have hrecord : recordOf s i.bay i.desc = some r := hr
  change execShrinkComplete s = _
  rw [execShrinkComplete, hi]
  dsimp only
  rw [hkind]
  dsimp only
  rw [shrinkTaken, hrecord]
  dsimp only
  rw [hkept, if_neg Bool.false_ne_true]

theorem onBuffer_engine (s : State) (f : CreditEnv → Buffer → Buffer) : (onBuffer s f).engine = s.engine := by simp

/-- Settles O56. -/
theorem engineServesTheBays : Obligations.EngineServesTheBays := by
  refine ⟨fun s i j hfree hi hbay hj => ?_, fun s i hfree hi hother hruns => ?_,
    fun s b r e id h hfree hoffer hother hruns he hid hh hready hlast => ?_,
    fun s i on r hi hkind hkept hr hw hnext hblocks => ?_⟩
  · have hdue : offerDue (offerDue s .d0) .d1 = s :=
      offerDue_both (b := s.engine.lastServed) (offerDue_full (offered_of_offer hj)) (offerDue_full (offered_of_offer hi))
    have hx := exec_engineTakeItem hfree hdue (choose_other hi)
    obtain ⟨hhand, hserved, hplace, hempty, hbehind⟩ := itemTaken s i
    have hframe := engineTakeItem_frame hx
    refine ⟨_, hx, hhand, hserved, ?_, hempty, hbehind, hframe⟩
    rw [hplace, hbay, bay_other_other, hj]
  · have hdue : offerDue (offerDue s .d0) .d1 = s :=
      offerDue_both (b := i.bay) (offerDue_full (offered_of_offer hi)) (offerDue_idle hruns)
    have hx := exec_engineTakeItem hfree hdue (choose_only hi hother)
    obtain ⟨hhand, hserved, hplace, hempty, hbehind⟩ := itemTaken s i
    have hframe := engineTakeItem_frame hx
    exact ⟨_, hx, hhand, hserved, hplace.trans hother, hempty, hbehind, hframe⟩
  · have hnone : s.engine.offer.get b = none := by rw [hoffer, PerBay.get_all]
    set u := modStaged (offerItem s ⟨b, .deliver, id, h, false⟩) b e.block fun e => { e with offered := true } with hu
    have hoffers : offerDue s b = u := offerDue_offers hnone hruns he hid hh hready
    have hidle : offerDue u b.other = u := by
      refine offerDue_idle (Eq.trans ?_ hother)
      exact (PerBay.get_set s.restores b b.other _).trans (if_neg (bay_other_ne b))
    have hdue : offerDue (offerDue s .d0) .d1 = u := by
      cases b
      · exact (congrArg (offerDue · .d1) hoffers).trans hidle
      · exact (congrArg (offerDue · .d1) (offerDue_idle hother)).trans hoffers
    have hplaced : u.engine.offer.get u.engine.lastServed.other = some ⟨b, .deliver, id, h, false⟩ := by
      have hengine : u.engine = { s.engine with offer := s.engine.offer.set b (some ⟨b, .deliver, id, h, false⟩) } := by
        change s.engine.put _ = _
        rw [Engine.put, if_pos (by rw [hnone]; rfl)]
      rw [hengine, hlast, bay_other_other, PerBay.get_set, if_pos rfl]
    have hx := exec_engineTakeItem hfree hdue (choose_other hplaced)
    obtain ⟨hhand, hserved, -⟩ := itemTaken u ⟨b, .deliver, id, h, false⟩
    have hframe := engineTakeItem_frame hx
    exact ⟨_, hx, hhand, hserved, hframe⟩
  · have hx := exec_shrinkComplete hi hkind hkept hr
    rw [shrinkStored_offers (s := engineFree s) _ hw hnext hblocks] at hx
    obtain ⟨q, hq, hnum, hstate, hcoded⟩ := shrinkKept_record (s := engineFree s) (b := i.bay) (shrinkRecord on s.engine.workRaw)
      (List.mem_of_find?_eq_some hr)
    have hhand : (offerEngine (shrinkKept (engineFree s) i.bay r (shrinkRecord on s.engine.workRaw)) i.bay).engine.inHand = none := by
      rw [offerEngine_inHand]
      simp [shrinkKept, engineFree]
    refine ⟨_, q, hx, ?_, ?_, hnum, hstate, hcoded, ?_, ?_, ?_, ?_⟩
    · rw [pump_engine, onBuffer_engine, hhand]
    · rw [pump_stream, onBuffer_stream]
      exact hq
    · rw [pump_store]
      simp [shrinkKept, engineFree]
    · rw [pump_elements]
      simp [shrinkKept, engineFree]
    · rw [pump_picker]
      simp [shrinkKept, engineFree]
    · rw [pump_drives]
      simp [shrinkKept, engineFree]

end Sys2Proof.Machine
end

section
/-! PROOFS. What brings a restore run its ending (R152), and DATA and READ_FAULT to it (R68, R144, R148, R149). -/

namespace Sys2Proof.Machine

/-! ### The endings of a restore run -/

theorem modRestore_run {s : State} {b : Bay} {r : RestoreRun} (hr : s.restore b = some r) (f : RestoreRun → RestoreRun) :
    (s.modRestore b f).restore b = some (f r) := by
  rw [modRestore_at, if_pos rfl, hr]
  rfl

/-- A run without an ending takes the one brought: all of it but the staged list. -/
theorem takeEnding_run {s : State} {b : Bay} {r : RestoreRun} (hr : s.restore b = some r) (he : r.ending = none) (code : ReplyCode)
    (block : Option Nat) : ∃ l, (takeEnding s b code block).restore b
      = some { r with phase := .ending, ending := some ⟨code, block⟩, staged := l } := by
  have htaken : ((takeEnding s b code block).restore b).map RestoreRun.sansStaged
      = some (RestoreRun.sansStaged { r with phase := .ending, ending := some ⟨code, block⟩ }) := by
    unfold takeEnding
    rw [hr]
    dsimp only
    rw [he]
    dsimp only
    rw [if_pos rfl, giveUpStagedIf_field (fun _ _ => rfl), modRestore_run hr]
    rfl
  obtain ⟨u, hu, h⟩ := Option.map_eq_some_iff.1 htaken
  refine ⟨u.staged, hu.trans (congrArg some ?_)⟩
  exact congrArg (fun w : RestoreRun => { w with staged := u.staged }) h

section
variable {α : Type} {g : RestoreRun → α}

theorem takeEnding_field (hstaged : ∀ r l, g { r with staged := l } = g r)
    (hending : ∀ r e, g { r with phase := .ending, ending := e } = g r) (s : State) (a b : Bay) (code : ReplyCode) (block : Option Nat) :
    ((takeEnding s a code block).restore b).map g = (s.restore b).map g := by
  unfold takeEnding
  split
  · split_ifs
    · rw [giveUpStagedIf_field hstaged]
      exact modRestore_field s a b fun r => hending r _
    · rfl
  · rfl

theorem endingAfter_field (hstaged : ∀ r l, g { r with staged := l } = g r)
    (hending : ∀ r e, g { r with phase := .ending, ending := e } = g r) (s : State) (a b : Bay) (block : Nat) (mark : Bool) :
    ((endingAfter s a block mark).restore b).map g = (s.restore b).map g := by
  unfold endingAfter
  split
  · split_ifs
    · exact takeEnding_field hstaged hending s a b _ _
    · exact takeEnding_field hstaged hending s a b _ _
    · exact takeEnding_field hstaged hending s a b _ _
    · rfl
  · rfl

theorem RunAdvances.field {s t : State} {b : Bay} {x : α} (h : RunAdvances s t b) (hstaged : ∀ r l, g { r with staged := l } = g r)
    (hx : (s.restore b).map g = some x) : (t.restore b).map g = some x := by
  obtain ⟨r, hr, rfl⟩ := Option.map_eq_some_iff.1 hx
  obtain ⟨l, ht, -⟩ := h r hr
  rw [ht]
  exact congrArg some (hstaged r l)

end

/-! ### DATA for a READING entry -/

theorem modStaged_blocksRead (s : State) (a b : Bay) (block : Nat) (f : Staged → Staged) :
    ((modStaged s a block f).restore b).map RestoreRun.blocksRead = (s.restore b).map RestoreRun.blocksRead :=
  modRestore_field (g := RestoreRun.blocksRead) s a b fun _ => rfl

theorem dropStaged_blocksRead (s : State) (a b : Bay) (block : Nat) :
    ((dropStaged s a block).restore b).map RestoreRun.blocksRead = (s.restore b).map RestoreRun.blocksRead :=
  modRestore_field (g := RestoreRun.blocksRead) s a b fun _ => rfl

theorem endingAfter_blocksRead (s : State) (a b : Bay) (block : Nat) (mark : Bool) :
    ((endingAfter s a block mark).restore b).map RestoreRun.blocksRead = (s.restore b).map RestoreRun.blocksRead :=
  endingAfter_field (g := RestoreRun.blocksRead) (fun _ _ => rfl) (fun _ _ => rfl) s a b block mark

theorem takeEnding_blocksRead (s : State) (a b : Bay) (code : ReplyCode) (block : Option Nat) :
    ((takeEnding s a code block).restore b).map RestoreRun.blocksRead = (s.restore b).map RestoreRun.blocksRead :=
  takeEnding_field (g := RestoreRun.blocksRead) (fun _ _ => rfl) (fun _ _ => rfl) s a b code block

theorem restoreAdvance_blocksRead {s : State} {b : Bay} {n : Nat} (h : (s.restore b).map RestoreRun.blocksRead = some n) :
    ((restoreAdvance s b).restore b).map RestoreRun.blocksRead = some n :=
  (runAdvances_restoreAdvance s b).field (g := RestoreRun.blocksRead) (fun _ _ => rfl) h

theorem stagedData_blocksRead {s : State} {b : Bay} {r : RestoreRun} (hr : s.restore b = some r) (e : Staged) (id : Nat) (h : TapeHeader)
    (stored : List Byte) : ((stagedData s b r e id h stored).restore b).map RestoreRun.blocksRead = some (r.blocksRead + 1) := by
  unfold stagedData
  extract_lets mark s1 s2 s3 s4 s5
  have hs1 : (s1.restore b).map RestoreRun.blocksRead = some (r.blocksRead + 1) := by
    rw [modRestore_run hr]
    rfl
  have trimmed : ∀ n, ((trimDesc s1 id n).restore b).map RestoreRun.blocksRead = some (r.blocksRead + 1) := fun n => by
    rw [restore_of_restores (s := s1) (by simp), hs1]
  have hs2 : (s2.restore b).map RestoreRun.blocksRead = some (r.blocksRead + 1) := by
    rw [restore_of_restores (s := s1) (by simp [s2]), hs1]
  split
  · refine restoreAdvance_blocksRead ?_
    rw [endingAfter_blocksRead, modStaged_blocksRead]
    exact trimmed 0
  · split
    · have hs3 : (s3.restore b).map RestoreRun.blocksRead = some (r.blocksRead + 1) := (modStaged_blocksRead s2 b b _ _).trans hs2
      refine restoreAdvance_blocksRead ?_
      rw [endingAfter_blocksRead]
      simp only [s4]
      split
      · rw [onBuffer_restore]
        exact hs3
      · exact hs3
    · refine restoreAdvance_blocksRead ?_
      rw [takeEnding_blocksRead, endingAfter_blocksRead, restore_of_restores (s := dropStaged (reportFailure s2 r.volume e.block) b
          e.block)
        (by simp [s5]), dropStaged_blocksRead, restore_of_restores (s := s2) (by simp)]
      exact hs2

/-! ### The replies to a READ of a restore run -/

/-- The drive as a READ's reply leaves it. -/
def Drive.readReplied (d : Drive) (q : Position) : Drive := { d.answered .idle with position := some q }

theorem readReplied_at (s : State) (b : Bay) (q : Position) : (s.modDrive b fun d => d.readReplied q).drive b = (s.drive b).readReplied q
    :=
  (modDrive_at s b b _).trans (if_pos rfl)

section
variable {s : State} {b : Bay} {n : Nat} {r : RestoreRun} {e : Staged} {id : Nat}

theorem exec_data {h : TapeHeader} {x : List Byte} (ho : (s.drive b).order = some (.read n)) (hr : s.restore b = some r)
    (hfits : dataFits h x = true) : exec (.data b n h x) s
      = finishCredit (restoreData (s.modDrive b fun d => d.readReplied ⟨some (n + 1), none⟩) b h x) := by
  have hrun : ((s.modDrive b fun d => d.readReplied ⟨some (n + 1), none⟩).restore b).isSome = true := by
    rw [State.modDrive_read_restore, hr]
    rfl
  change execData b n h x s = _
  rw [execData, ho]
  dsimp only
  rw [if_neg (by simp), if_pos hfits]
  exact congrArg finishCredit (if_pos hrun)

theorem exec_readFault (ho : (s.drive b).order = some (.read n)) (hr : s.restore b = some r) :
    exec (.readFault b n) s = finishCredit (restoreReadFailed (s.modDrive b fun d => d.readReplied ⟨none, none⟩) b n) := by
  have hrun : ((s.modDrive b fun d => d.readReplied ⟨none, none⟩).restore b).isSome = true := by
    rw [State.modDrive_read_restore, hr]
    rfl
  change execReadFault b n s = _
  rw [execReadFault, ho]
  exact congrArg finishCredit (if_pos hrun)

theorem restoreData_staged (hr : s.restore b = some r) (hend : r.ending = none) (hi : r.index = none)
    (he : r.staged.find? (fun x => x.stage = .reading) = some e) (hid : e.desc = some id) (h : TapeHeader) (x : List Byte) :
    restoreData s b h x = stagedData s b r e id h x := by
  unfold restoreData
  simp only [hr, hi, he, hid]
  rw [hend, Option.isSome_none, if_neg Bool.false_ne_true]

theorem restoreReadFailed_staged (hr : s.restore b = some r) (hi : r.index = none)
    (he : r.staged.find? (fun x => x.stage = .reading) = some e) (hid : e.desc = some id) (n : Nat) :
    restoreReadFailed s b n = takeEnding (releaseDesc (dropStaged s b e.block) id) b .readFault (some n) := by
  unfold restoreReadFailed
  simp only [hr, hi, he, hid, releaseOpt]

theorem restoreReadFailed_ends (hr : s.restore b = some r) (hend : r.ending = none) (hi : r.index = none)
    (he : r.staged.find? (fun x => x.stage = .reading) = some e) (hid : e.desc = some id) (n : Nat) :
    ∃ u, (restoreReadFailed s b n).restore b = some u ∧ u.ending = some ⟨.readFault, some n⟩ ∧ u.phase = .ending := by
  have hrun : (releaseDesc (dropStaged s b e.block) id).restore b
      = some { r with staged := r.staged.filter fun x => x.block ≠ e.block } := by
    rw [restore_of_restores (s := dropStaged s b e.block) (by simp)]
    exact modRestore_run hr _
  rw [restoreReadFailed_staged hr hi he hid]
  obtain ⟨l, hl⟩ := takeEnding_run hrun hend .readFault (some n)
  exact ⟨_, hl, rfl, rfl⟩

end

theorem data_settings {s t : State} {b : Bay} {n : Nat} {h : TapeHeader} {x : List Byte} (hx : exec (.data b n h x) s = .next t) :
    t.settings = s.settings := exec_settings hx (by simp) (by simp)

theorem readFault_frame {s t : State} {b : Bay} {n : Nat} (hx : exec (.readFault b n) s = .next t) :
    t.store = s.store ∧ t.elements = s.elements ∧ t.picker = s.picker := by
  have hleaves := exec_leaves _ s _ hx
  have hstore := congrArg State.store hleaves
  have helements := congrArg State.elements hleaves
  have hpicker := congrArg State.picker hleaves
  exact ⟨hstore, helements, hpicker⟩

/-- What a step that ends in a settling leaves of drives, elements and picker. -/
structure LeavesDrives (s t : State) : Prop where
  drives : t.drives = s.drives
  elements : t.elements = s.elements
  picker : t.picker = s.picker

theorem leavesDrives_settled {s t : State} (h : LeavesDrives s t) : LeavesDrives s (pump (onBuffer t settle)) := by
  refine ⟨?_, ?_, ?_⟩
  · rw [pump_drives, ← h.drives]
    simp
  · rw [pump_elements, ← h.elements]
    simp
  · rw [pump_picker, ← h.picker]
    simp

theorem leavesDrives_restoreData (s : State) (b : Bay) (h : TapeHeader) (x : List Byte) : LeavesDrives s (restoreData s b h x) :=
  ⟨by simp, by simp, by simp⟩

theorem leavesDrives_restoreReadFailed (s : State) (b : Bay) (n : Nat) : LeavesDrives s (restoreReadFailed s b n) :=
  ⟨by simp, by simp, by simp⟩

theorem LeavesDrives.drive {s t : State} (h : LeavesDrives s t) (b : Bay) : t.drive b = s.drive b := congrArg (PerBay.get · b) h.drives

/-! ### DATA for an index block (R144) -/

section
variable {s : State} {b : Bay} {r : RestoreRun} {x : IndexRead} {id : Nat} {h : TapeHeader} (d : List Byte)

/-- The run's index block let go. -/
def indexGone (s : State) (b : Bay) (id : Nat) : State := releaseDesc (s.modRestore b fun r => { r with index := none }) id

theorem indexGone_run (hr : s.restore b = some r) (id : Nat) : (indexGone s b id).restore b = some { r with index := none } := by
  rw [indexGone, restore_of_restores (s := s.modRestore b fun r => { r with index := none }) (by simp)]
  exact modRestore_run hr _

/-- The bytes of an index block placed in its descriptor, trimmed to them. -/
def indexPlaced (s : State) (id : Nat) (d : List Byte) : State := trimDesc (placeBytes s id d) id (unitsFor d.length)

theorem indexPlaced_rest (s : State) (id : Nat) (d : List Byte) : (indexPlaced s id d).restores = s.restores
    ∧ (indexPlaced s id d).store = s.store ∧ (indexPlaced s id d).engine = s.engine := ⟨by simp [indexPlaced], by simp [indexPlaced],
      by simp [indexPlaced]⟩

theorem restoreData_index (hr : s.restore b = some r) (hi : r.index = some x) (hs : x.stage = .reading) :
    restoreData s b h d = indexData s b r x h d := by
  unfold restoreData
  simp only [hr, hi, hs, if_true]

theorem indexData_otherKind (hend : r.ending = none) (hid : x.desc = some id) (hk : h.kind ≠ kindIndex) :
    indexData s b r x h d = takeEnding (indexGone s b id) b .badIndex (some x.block) := by
  unfold indexData
  simp only [hend, Option.isSome_none, Bool.false_eq_true, if_false, if_pos hk, hid, releaseOpt]
  rfl

theorem indexData_badHeader (hend : r.ending = none) (hid : x.desc = some id) (hk : h.kind = kindIndex) (hh : headerPasses h = false) :
    indexData s b r x h d
      = takeEnding (indexGone (reportFailure (indexPlaced s id d) r.volume x.block) b id) b .formatError (some x.block) := by
  unfold indexData
  simp only [hend, Option.isSome_none, Bool.false_eq_true, if_false, hk, ne_eq, not_true, hid, hh, releaseOpt]
  rfl

theorem indexData_offered (hend : r.ending = none) (hid : x.desc = some id) (hk : h.kind = kindIndex) (hh : headerPasses h = true) :
    indexData s b r x h d = offerItem ((indexPlaced s id d).modRestore b fun r => { r with index := some { x with stage := .expanding } })
      ⟨b, .checkIndex (r.address.indirect.getD 0), id, h, false⟩ := by
  unfold indexData
  simp only [hend, Option.isSome_none, Bool.false_eq_true, if_false, hk, ne_eq, not_true, hid, hh, if_true]
  rfl

end

theorem reportFailure_volume {s : State} {l : Label} {v : Volume} (hv : s.volume l = some v) (n : Nat) :
    (reportFailure s l n).volume l = some (v.failed n) := by
  rw [reportFailure, volume_modVolume s l l (fun v => v.failed n) (fun _ => rfl), hv, Option.map_some, if_pos rfl]

theorem offerItem_offered {s : State} {i : Item} (h : s.offered i.bay = none) : (offerItem s i).offered i.bay = some i := by
  have hput : (offerItem s i).engine = s.engine.put i := rfl
  have hnone : (s.engine.offer.get i.bay).isNone = true := by
    rw [State.offered] at h
    rw [h]
    rfl
  rw [State.offered, hput, Engine.put, if_pos hnone, PerBay.get_set, if_pos rfl]

/-- What DATA for an index block makes of the run, the store and the offer place. -/
def indexOutcome (s t : State) (b : Bay) (r : RestoreRun) (x : IndexRead) (id : Nat) (h : TapeHeader) (u : RestoreRun) : Prop :=
  (h.kind ≠ kindIndex → u.ending = some ⟨.badIndex, some x.block⟩ ∧ u.phase = .ending ∧ u.index = none ∧ t.store = s.store)
  ∧ (h.kind = kindIndex → headerPasses h = false → u.ending = some ⟨.formatError, some x.block⟩ ∧ u.phase = .ending
      ∧ u.index = none ∧ ∀ v, s.volume r.volume = some v → t.volume r.volume = some (v.failed x.block))
  ∧ (h.kind = kindIndex → headerPasses h = true → u.ending = none ∧ u.index = some { x with stage := .expanding }
      ∧ t.store = s.store ∧ (s.offered b = none →
        t.offered b = some ⟨b, .checkIndex (r.address.indirect.getD 0), id, h, false⟩))

theorem indexOutcome_settled {s t : State} {b : Bay} {r u : RestoreRun} {x : IndexRead} {id : Nat} {h : TapeHeader}
    (ho : indexOutcome s t b r x id h u) : indexOutcome s (pump (onBuffer t settle)) b r x id h u := by
  have hstore : (pump (onBuffer t settle)).store = t.store := by simp
  have hoffered : (pump (onBuffer t settle)).offered b = t.offered b :=
    congrArg (fun e : Engine => e.offer.get b) (show (pump (onBuffer t settle)).engine = t.engine by simp)
  rw [indexOutcome, hstore, hoffered, volume_of_store hstore]
  exact ho

theorem modRestore_engine (s : State) (b : Bay) (f : RestoreRun → RestoreRun) : (s.modRestore b f).engine = s.engine := rfl

theorem offeredAfter_store (s : State) (b : Bay) (f : RestoreRun → RestoreRun) (i : Item) :
    (offerItem (s.modRestore b f) i).store = s.store := rfl

theorem indexOutcome_otherKind {s t : State} {b : Bay} {r u : RestoreRun} {x : IndexRead} {id : Nat} {h : TapeHeader} (hk : h.kind ≠
    kindIndex)
    (hu : u.ending = some ⟨.badIndex, some x.block⟩ ∧ u.phase = .ending ∧ u.index = none) (hstore : t.store = s.store) :
    indexOutcome s t b r x id h u :=
  ⟨fun _ => ⟨hu.1, hu.2.1, hu.2.2, hstore⟩, fun h => absurd h hk, fun h => absurd h hk⟩

theorem indexOutcome_badHeader {s t : State} {b : Bay} {r u : RestoreRun} {x : IndexRead} {id : Nat} {h : TapeHeader} (hk : h.kind =
    kindIndex)
    (hh : headerPasses h = false) (hu : u.ending = some ⟨.formatError, some x.block⟩ ∧ u.phase = .ending ∧ u.index = none)
    (hfailed : ∀ v, s.volume r.volume = some v → t.volume r.volume = some (v.failed x.block)) : indexOutcome s t b r x id h u :=
  ⟨fun hne => absurd hk hne, fun _ _ => ⟨hu.1, hu.2.1, hu.2.2, hfailed⟩, fun _ hpass => by simp [hh] at hpass⟩

theorem indexOutcome_offered {s t : State} {b : Bay} {r u : RestoreRun} {x : IndexRead} {id : Nat} {h : TapeHeader} (hk : h.kind =
    kindIndex)
    (hh : headerPasses h = true) (hu : u.ending = none ∧ u.index = some { x with stage := .expanding }) (hstore : t.store = s.store)
    (hoffer : s.offered b = none → t.offered b = some ⟨b, .checkIndex (r.address.indirect.getD 0), id, h, false⟩) :
    indexOutcome s t b r x id h u :=
  ⟨fun hne => absurd hk hne, fun _ hfail => by simp [hh] at hfail, fun _ _ => ⟨hu.1, hu.2, hstore, hoffer⟩⟩

theorem indexEnded_store (s : State) (b : Bay) (id : Nat) (k : ReplyCode) (n : Option Nat) :
    (takeEnding (indexGone s b id) b k n).store = s.store :=
  (show _ = (indexGone s b id).store by simp).trans (by simp [indexGone])

/-- An index block that ends its run is the run's index block no more. -/
theorem indexEnded_run {s : State} {b : Bay} {r : RestoreRun} (hr : s.restore b = some r) (hend : r.ending = none) (id : Nat)
    (k : ReplyCode) (n : Option Nat) :
    ∃ u, (takeEnding (indexGone s b id) b k n).restore b = some u ∧ u.ending = some ⟨k, n⟩ ∧ u.phase = .ending ∧ u.index = none := by
  obtain ⟨l, hl⟩ := takeEnding_run (indexGone_run hr id) hend k n
  exact ⟨_, hl, rfl, rfl, rfl⟩

theorem indexData_outcome {s : State} {b : Bay} {r : RestoreRun} {x : IndexRead} {id : Nat} (h : TapeHeader) (d : List Byte)
    (hr : s.restore b = some r) (hend : r.ending = none) (hid : x.desc = some id) :
    ∃ u, (indexData s b r x h d).restore b = some u ∧ indexOutcome s (indexData s b r x h d) b r x id h u := by
  obtain ⟨hruns, hstore, hengine⟩ := indexPlaced_rest s id d
  have hrun : (indexPlaced s id d).restore b = some r := (restore_of_restores hruns b).trans hr
  by_cases hk : h.kind = kindIndex
  · cases hh : headerPasses h with
    | false =>
      rw [indexData_badHeader d hend hid hk hh]
      have hfailed : ∀ v, s.volume r.volume = some v → (reportFailure (indexPlaced s id d) r.volume x.block).volume r.volume
          = some (v.failed x.block) :=
        fun v hv => reportFailure_volume ((volume_of_store hstore _).trans hv) x.block
      have hrw : (reportFailure (indexPlaced s id d) r.volume x.block).restore b = some r :=
        (restore_of_restores (show (reportFailure (indexPlaced s id d) r.volume x.block).restores
          = (indexPlaced s id d).restores by simp) b).trans hrun
      generalize reportFailure (indexPlaced s id d) r.volume x.block = w at hfailed hrw
      obtain ⟨u, hu, hended⟩ := indexEnded_run hrw hend id .formatError (some x.block)
      exact ⟨u, hu, indexOutcome_badHeader hk hh hended fun v hv =>
        (volume_of_store (indexEnded_store w b id _ _) _).trans (hfailed v hv)⟩
    | true =>
      rw [indexData_offered d hend hid hk hh]
      generalize indexPlaced s id d = w at hrun hstore hengine
      refine ⟨_, modRestore_run hrun _, indexOutcome_offered hk hh ⟨hend, rfl⟩ ((offeredAfter_store w b _ _).trans hstore) fun hnone =>
          ?_⟩
      refine offerItem_offered ?_
      rw [State.offered, modRestore_engine, hengine]
      exact hnone
  · rw [indexData_otherKind d hend hid hk]
    obtain ⟨u, hu, hended⟩ := indexEnded_run hr hend id .badIndex (some x.block)
    exact ⟨u, hu, indexOutcome_otherKind hk hended (indexEnded_store s b id _ _)⟩

/-- Settles O54. -/
theorem readsReported : Obligations.ReadsReported := by
  refine ⟨fun s b n r e id ho hr hend hi he hid => ⟨fun h x hfits => ?_, ?_⟩,
    fun s b n id r x h d ho hr hend hi hstage hid hfits => ?_⟩
  · have hx := exec_data ho hr hfits
    set w := s.modDrive b fun d => d.readReplied ⟨some (n + 1), none⟩ with hw
    have hrw : w.restore b = some r := hr
    have hread := stagedData_blocksRead hrw e id h x
    rw [← restoreData_staged hrw hend hi he hid] at hread
    obtain ⟨u, hu, hcount⟩ := Option.map_eq_some_iff.1 hread
    have hkept := leavesDrives_settled (leavesDrives_restoreData w b h x)
    have hsettings := data_settings hx
    have hdrive : w.drive b = (s.drive b).readReplied ⟨some (n + 1), none⟩ := readReplied_at s b _
    refine ⟨_, u, hx, ?_, hcount, ?_, ?_, ?_, ?_, ?_, hsettings⟩
    · rw [pump_restore, onBuffer_restore, hu]
    · rw [hkept.drive, hdrive]
      rfl
    · rw [hkept.drive, hdrive]
      rfl
    · rw [hkept.drive, hdrive]
      rfl
    · exact hkept.elements
    · exact hkept.picker
  · have hx := exec_readFault ho hr
    set w := s.modDrive b fun d => d.readReplied ⟨none, none⟩ with hw
    have hrw : w.restore b = some r := hr
    obtain ⟨u, hu, hending, hphase⟩ := restoreReadFailed_ends hrw hend hi he hid n
    have hkept := leavesDrives_settled (leavesDrives_restoreReadFailed w b n)
    have hdrive : w.drive b = (s.drive b).readReplied ⟨none, none⟩ := readReplied_at s b _
    have hframe := readFault_frame hx
    refine ⟨_, u, hx, ?_, hending, hphase, ?_, ?_, hframe⟩
    · rw [pump_restore, onBuffer_restore, hu]
    · rw [hkept.drive, hdrive]
      rfl
    · rw [hkept.drive, hdrive]
      rfl
  · have hx := exec_data ho hr hfits
    set w := s.modDrive b fun d => d.readReplied ⟨some (n + 1), none⟩ with hw
    have hrw : w.restore b = some r := hr
    have hkept := leavesDrives_settled (leavesDrives_restoreData w b h d)
    rw [restoreData_index d hrw hi hstage] at hx hkept
    obtain ⟨u, hu, hout⟩ := indexData_outcome h d hrw hend hid
    obtain ⟨hother, hbad, hgood⟩ := indexOutcome_settled hout
    have hsettings := data_settings hx
    have hdrive : w.drive b = (s.drive b).readReplied ⟨some (n + 1), none⟩ := readReplied_at s b _
    refine ⟨_, u, hx, ?_, ?_, ?_, ?_, hother, hbad, hgood, ?_, ?_, hsettings⟩
    · rw [pump_restore, onBuffer_restore, hu]
    · rw [hkept.drive, hdrive]
      rfl
    · rw [hkept.drive, hdrive]
      rfl
    · rw [hkept.drive, hdrive]
      rfl
    · exact hkept.elements
    · exact hkept.picker

end Sys2Proof.Machine
end

section
/-! PROOFS. The completions of the expansions (R133, R134, R145, R150, R162). -/

namespace Sys2Proof.Machine

/-! ### The engine stays free -/

/-- The engine has no item in hand. -/
def State.engineIsFree (s : State) : Bool := s.engine.inHand.isNone

theorem engineIsFree_of_engine {s t : State} (h : t.engine = s.engine) : t.engineIsFree = s.engineIsFree :=
  congrArg (fun e : Engine => e.inHand.isNone) h

theorem engineIsFree_giveUpDesc (s : State) (b : Bay) (id : Nat) : (giveUpDesc s b id).engineIsFree = s.engineIsFree := by
  unfold giveUpDesc
  split
  · exact Option.isNone_map
  · rw [engineIsFree_of_engine (s := withdrawItem s b id) (by simp)]
    change (s.engine.withdraw b id).inHand.isNone = _
    unfold Engine.withdraw
    split <;> rfl

theorem engineIsFree_giveUpStaged (b : Bay) (s : State) (e : Staged) : (giveUpStaged b s e).engineIsFree = s.engineIsFree := by
  unfold giveUpStaged
  dsimp only
  split
  · exact engineIsFree_giveUpDesc _ b _
  · exact engineIsFree_of_engine (onBuffer_engine _ _)

theorem engineIsFree_giveUpStagedIf (s : State) (b : Bay) (f : Staged → Bool) : (giveUpStagedIf s b f).engineIsFree = s.engineIsFree := by
  unfold giveUpStagedIf
  split
  · exact foldl_same State.engineIsFree _ (fun t e => engineIsFree_giveUpStaged b t e) _ _
  · rfl

theorem engineIsFree_takeEnding (s : State) (b : Bay) (code : ReplyCode) (block : Option Nat) :
    (takeEnding s b code block).engineIsFree = s.engineIsFree := by
  unfold takeEnding
  split
  · split_ifs
    · exact engineIsFree_giveUpStagedIf _ b _
    · rfl
  · rfl

theorem engineIsFree_offerItem (s : State) (i : Item) : (offerItem s i).engineIsFree = s.engineIsFree :=
  congrArg Option.isNone (offersAt_offerItem s i).inHand

theorem engineIsFree_restoreAdvance (s : State) (b : Bay) : (restoreAdvance s b).engineIsFree = s.engineIsFree := by
  rw [restoreAdvance, engineIsFree_of_engine (s := offerStaged (askNext s b) b) (by simp)]
  exact (congrArg Option.isNone (offersAt_offerStaged (askNext s b) b).inHand).trans (engineIsFree_of_engine (by simp))

theorem engineIsFree_restorePosition (s : State) (b : Bay) : (restorePosition s b).engineIsFree = s.engineIsFree := by
  have arrived : (restoreArrived s b).engineIsFree = s.engineIsFree := by
    unfold restoreArrived
    split
    · split_ifs
      · rfl
      · exact engineIsFree_of_engine ((onBuffer_engine _ _).trans (modRestore_engine s b _))
      · exact (engineIsFree_restoreAdvance _ b).trans (engineIsFree_of_engine (modRestore_engine s b _))
    · rfl
  unfold restorePosition
  split
  · split_ifs
    · exact arrived
    · rfl
    · rfl
  · rfl

theorem engineIsFree_engineFree (s : State) : (engineFree s).engineIsFree = true := rfl

theorem inHand_of_free {s : State} (h : s.engineIsFree = true) : s.engine.inHand = none := Option.isNone_iff_eq_none.1 h

theorem settled_inHand {t : State} (h : t.engineIsFree = true) : (pump (onBuffer t settle)).engine.inHand = none := by
  rw [pump_engine, onBuffer_engine]
  exact inHand_of_free h

/-! ### EXPAND_DELIVER_COMPLETE (R133, R150) -/

section
variable {s : State} {i : Item} {r : RestoreRun} {e : Staged}

theorem exec_expandDeliver (hi : s.engine.inHand = some i) (hkind : i.kind = .deliver) (hkept : i.abandoned = false)
    (hr : s.restore i.bay = some r) (he : r.staged.find? (fun x => x.desc = some i.desc) = some e) :
    exec .expandDeliverComplete s = finishCredit (
      if (expandRecord i.header (itemBytes s i)).2 = .good then
        deliverGood (engineFree s) i.bay e i (expandRecord i.header (itemBytes s i)).1
      else deliverFailed (engineFree s) i.bay r e i (expandRecord i.header (itemBytes s i)).2.code) := by
  have hstaged : stagedOf s i = some (r, e) := by simp [stagedOf, hkept, hr, he]
  have hdesc : e.desc = some i.desc := by simpa using List.find?_some he
  change execExpandDeliverComplete s = _
  rw [execExpandDeliverComplete, hi]
  dsimp only
  rw [if_pos hkind, deliverTaken, onRunOf_current _ hr (List.mem_of_find?_eq_some he) hdesc, deliverResult, hstaged]

theorem deliverGood_at (hr : s.restore i.bay = some r) (he : e ∈ r.staged) (raw : List Byte) :
    (deliverGood s i.bay e i raw).engineIsFree = s.engineIsFree
    ∧ ∃ u, (deliverGood s i.bay e i raw).restore i.bay = some u
      ∧ ∃ x ∈ u.staged, x.block = e.block ∧ (x.stage = .ready ∨ x.stage = .sending) := by
  unfold deliverGood
  extract_lets s1
  have hengine : s1.engine = s.engine := by simp [s1]
  have hrun : s1.restore i.bay = some r := (restore_of_restores (by simp [s1]) i.bay).trans hr
  constructor
  · rw [engineIsFree_restoreAdvance]
    exact engineIsFree_of_engine hengine
  · obtain ⟨l, hl, hadv⟩ := runAdvances_restoreAdvance _ i.bay _ (modRestore_run hrun fun r =>
      { r with staged := r.staged.map fun x => if x.block = e.block then { x with stage := .ready } else x })
    refine ⟨_, hl, ?_⟩
    obtain ⟨x, hx, hgoes⟩ := hadv.forth { e with stage := .ready } (List.mem_map.2 ⟨e, he, if_pos rfl⟩)
    refine ⟨x, hx, hgoes.block, ?_⟩
    rcases hgoes.stage with h | ⟨-, h⟩
    · exact .inl h
    · exact .inr h

theorem deliverFailed_at (hr : s.restore i.bay = some r) (hend : r.ending = none) (code : ReplyCode) :
    (deliverFailed s i.bay r e i code).engineIsFree = s.engineIsFree
    ∧ (∃ u, (deliverFailed s i.bay r e i code).restore i.bay = some u ∧ u.ending = some ⟨code, some e.block⟩ ∧ u.phase = .ending)
    ∧ ∀ v, s.volume r.volume = some v → (deliverFailed s i.bay r e i code).volume r.volume = some (v.failed e.block) := by
  unfold deliverFailed
  extract_lets s1
  have hrun : s1.restore i.bay = some { r with staged := r.staged.filter fun x => x.block ≠ e.block } := by
    refine modRestore_run ?_ _
    rw [restore_of_restores (s := s) (by simp), hr]
  have hengine : s1.engine = s.engine := by simp [s1, dropStaged]
  obtain ⟨l, hl⟩ := takeEnding_run hrun hend code (some e.block)
  obtain ⟨m, hm, -⟩ := runAdvances_restoreAdvance _ i.bay _ hl
  refine ⟨?_, ⟨_, hm, rfl, rfl⟩, fun v hv => ?_⟩
  · rw [engineIsFree_restoreAdvance, engineIsFree_takeEnding]
    exact engineIsFree_of_engine hengine
  · have hstore : (restoreAdvance (takeEnding s1 i.bay code (some e.block)) i.bay).store = (reportFailure s r.volume e.block).store := by
      simp [s1, dropStaged]
    rw [volume_of_store hstore]
    exact reportFailure_volume hv e.block

end

theorem expandDeliver_frame {s t : State} (hx : exec .expandDeliverComplete s = .next t) :
    t.elements = s.elements ∧ t.picker = s.picker ∧ t.drives = s.drives := by
  have hleaves := exec_leaves _ s _ hx
  have helements := congrArg State.elements hleaves
  have hpicker := congrArg State.picker hleaves
  have hdrives := congrArg State.drives hleaves
  exact ⟨helements, hpicker, hdrives⟩

/-- What a settling leaves of a run and of the store. -/
theorem settled_restore (t : State) (b : Bay) : (pump (onBuffer t settle)).restore b = t.restore b := by
  rw [pump_restore, onBuffer_restore]

theorem settled_store (t : State) : (pump (onBuffer t settle)).store = t.store := by simp

theorem expandDeliver_done {s : State} {i : Item} {r : RestoreRun} {e : Staged} (hi : s.engine.inHand = some i) (hkind : i.kind =
    .deliver)
    (hkept : i.abandoned = false) (hr : s.restore i.bay = some r) (hend : r.ending = none)
    (he : r.staged.find? (fun x => x.desc = some i.desc) = some e) :
    ∃ t u, exec .expandDeliverComplete s = .next t ∧ t.engine.inHand = none ∧ t.restore i.bay = some u
      ∧ ((expandRecord i.header (itemBytes s i)).2 = .good → t.store = s.store
          ∧ ∃ x ∈ u.staged, x.block = e.block ∧ (x.stage = .ready ∨ x.stage = .sending))
      ∧ ((expandRecord i.header (itemBytes s i)).2 ≠ .good →
          u.ending = some ⟨(expandRecord i.header (itemBytes s i)).2.code, some e.block⟩ ∧ u.phase = .ending
          ∧ ∀ v, s.volume r.volume = some v → t.volume r.volume = some (v.failed e.block))
      ∧ t.elements = s.elements ∧ t.picker = s.picker ∧ t.drives = s.drives := by
  have hx := exec_expandDeliver hi hkind hkept hr he
  have hframe := fun t => expandDeliver_frame (s := s) (t := t)
  by_cases hgood : (expandRecord i.header (itemBytes s i)).2 = .good
  · rw [if_pos hgood] at hx
    obtain ⟨hfree, u, hu, hready⟩ := deliverGood_at (s := engineFree s) hr (List.mem_of_find?_eq_some he)
      (expandRecord i.header (itemBytes s i)).1
    refine ⟨_, u, hx, settled_inHand hfree, ?_, fun _ => ⟨?_, hready⟩, fun h => absurd hgood h, hframe _ hx⟩
    · rw [settled_restore, hu]
    · rw [settled_store]
      simp [engineFree]
  · rw [if_neg hgood] at hx
    obtain ⟨hfree, ⟨u, hu, hending, hphase⟩, hfailed⟩ := deliverFailed_at (s := engineFree s) (e := e) hr hend
      (expandRecord i.header (itemBytes s i)).2.code
    refine ⟨_, u, hx, settled_inHand hfree, ?_, fun h => absurd h hgood, fun _ => ⟨hending, hphase, fun v hv => ?_⟩, hframe _ hx⟩
    · rw [settled_restore, hu]
    · rw [volume_of_store (settled_store _)]
      exact hfailed v hv

/-! ### EXPAND_CHECK_COMPLETE of an index block (R145) -/

section
variable {s : State} {i : Item} {r : RestoreRun} {x : IndexRead} {n : Nat}

theorem exec_expandCheck_index (hi : s.engine.inHand = some i) (hkind : i.kind = .checkIndex n) :
    exec .expandCheckComplete s = finishCredit (indexCheckTaken (engineFree s) i (expandRecord i.header (itemBytes s i)).2 n) := by
  change execExpandCheckComplete s = _
  rw [execExpandCheckComplete, hi]
  dsimp only
  rw [hkind]

theorem indexOf_kept (hkept : i.abandoned = false) (hr : s.restore i.bay = some r) (hx : r.index = some x) (hid : x.desc = some i.desc) :
    indexOf s i = some (r, x) := by
  simp [indexOf, hkept, hr, hx, hid]

theorem indexCheck_good (h : indexOf s i = some (r, x)) (n : Nat) :
    indexCheckTaken s i .good n = indexResolved (indexGone s i.bay i.desc) i.bay r x (indexEntry s.engine.workRaw n) := by
  rw [indexCheckTaken, h]
  rfl

theorem indexCheck_failed (h : indexOf s i = some (r, x)) {res : CheckResult} (hres : res ≠ .good) (n : Nat) :
    indexCheckTaken s i res n
      = takeEnding (reportFailure (indexGone s i.bay i.desc) r.volume x.block) i.bay res.code (some x.block) := by
  rw [indexCheckTaken, h]
  cases res with
  | good => exact absurd rfl hres
  | checkError => rfl
  | formatError => rfl

theorem indexGone_engine (s : State) (b : Bay) (id : Nat) : (indexGone s b id).engine = s.engine := by simp [indexGone]

theorem indexGone_store (s : State) (b : Bay) (id : Nat) : (indexGone s b id).store = s.store := by simp [indexGone]

theorem indexGone_drive (s : State) (b a : Bay) (id : Nat) : (indexGone s b id).drive a = s.drive a :=
  congrArg (PerBay.get · a) (by simp [indexGone])

end

/-- A run without an index block positioned at its target keeps what is neither its phase, its next block nor its staged list. -/
theorem restorePosition_kept {s : State} {b : Bay} {r : RestoreRun} (hr : s.restore b = some r) (hstart : r.start.isNone = false) :
    ∃ u, (restorePosition s b).restore b = some u ∧ u.index = r.index ∧ u.start = r.start := by
  unfold restorePosition
  rw [hr]
  dsimp only
  split_ifs
  · unfold restoreArrived
    rw [hr]
    dsimp only
    split_ifs with hphase hindirect
    · exact ⟨r, hr, rfl, rfl⟩
    · simp [hstart] at hindirect
    · obtain ⟨l, hl, -⟩ := runAdvances_restoreAdvance _ b _ (modRestore_run hr fun r => { r with phase := .reading, next := r.target })
      exact ⟨_, hl, rfl, rfl⟩
  · exact ⟨r, hr, rfl, rfl⟩
  · exact ⟨r, hr, rfl, rfl⟩

/-- What the entry of an index record makes of the run, at a drive that stands as `d`. -/
def entryOutcome (t : State) (b : Bay) (d : Drive) (r : RestoreRun) (x : IndexRead) (entry : Option Nat) (u : RestoreRun) : Prop :=
  (entry = none → u.ending = some ⟨.badIndex, some x.block⟩ ∧ u.phase = .ending)
  ∧ (entry = some 4294967295 → u.ending = some ⟨.notFound, some x.block⟩ ∧ u.phase = .ending)
  ∧ ∀ n, entry = some n → n ≠ 4294967295 →
    (r.eod ≤ n → u.ending = some ⟨.beyondData, some x.block⟩ ∧ u.phase = .ending)
    ∧ (n < r.eod → u.start = some n
      ∧ (d.posBlock ≠ some n → d.state = .idle → u.ending = none ∧ u.phase = .positioning
        ∧ (t.drive b).order = some (.locate n) ∧ (t.drive b).state = .positioning))

section
variable {s : State} {b : Bay} {r : RestoreRun} {x : IndexRead}

/-- A run whose index block has resolved to n, on its way there. -/
def RestoreRun.resolved (r : RestoreRun) (n : Nat) : RestoreRun := { r with target := n, start := some n, next := n, phase :=
    .positioning }

theorem indexResolved_cases (entry : Option Nat) : (entry = none ∧ indexResolved s b r x entry = takeEnding s b .badIndex (some x.block))
    ∨ (entry = some 4294967295 ∧ indexResolved s b r x entry = takeEnding s b .notFound (some x.block))
    ∨ (∃ n, entry = some n ∧ n ≠ 4294967295 ∧ r.eod ≤ n ∧ indexResolved s b r x entry = takeEnding s b .beyondData (some x.block))
    ∨ ∃ n, entry = some n ∧ n ≠ 4294967295 ∧ n < r.eod
      ∧ indexResolved s b r x entry = restorePosition (s.modRestore b fun r => r.resolved n) b := by
  cases entry with
  | none => exact .inl ⟨rfl, rfl⟩
  | some n =>
    by_cases habsent : n = 4294967295
    · exact .inr (.inl ⟨by rw [habsent], if_pos habsent⟩)
    · by_cases hn : r.eod ≤ n
      · exact .inr (.inr (.inl ⟨n, rfl, habsent, hn, (if_neg habsent).trans (if_pos hn)⟩))
      · exact .inr (.inr (.inr ⟨n, rfl, habsent, not_le.1 hn, (if_neg habsent).trans (if_neg hn)⟩))

theorem takeEnding_ends (hr : s.restore b = some { r with index := none }) (hend : r.ending = none) (code : ReplyCode) :
    ∃ u, (takeEnding s b code (some x.block)).restore b = some u ∧ u.index = none ∧ u.ending = some ⟨code, some x.block⟩
      ∧ u.phase = .ending := by
  obtain ⟨l, hl⟩ := takeEnding_run hr hend code (some x.block)
  exact ⟨_, hl, rfl, rfl, rfl⟩

/-- The run resolved to a block at which the drive does not stand: the LOCATE is issued. -/
theorem restorePosition_locates {n : Nat} (hr : s.restore b = some r) (hpos : (s.drive b).posBlock ≠ some n)
    (hidle : (s.drive b).state = .idle) : (restorePosition (s.modRestore b fun r => r.resolved n) b).restore b = some (r.resolved n)
    ∧ (restorePosition (s.modRestore b fun r => r.resolved n) b).drive b = (s.drive b).issue (.locate n) .positioning := by
  have hrun := modRestore_run hr fun r => r.resolved n
  have hdrive : (s.modRestore b fun r => r.resolved n).drive b = s.drive b := rfl
  rw [restorePosition_elsewhere hrun hidle hpos, issueLocate, State.modDrive_read_restore, modDrive_at, if_pos rfl, hrun, hdrive]
  exact ⟨rfl, rfl⟩

theorem indexResolved_run (hr : s.restore b = some { r with index := none }) (hend : r.ending = none) (entry : Option Nat) :
    (indexResolved s b r x entry).engineIsFree = s.engineIsFree
    ∧ ∃ u, (indexResolved s b r x entry).restore b = some u ∧ u.index = none
      ∧ entryOutcome (indexResolved s b r x entry) b (s.drive b) r x entry u := by
  rcases indexResolved_cases (s := s) (b := b) (r := r) (x := x) entry with ⟨he, h⟩ | ⟨he, h⟩ | ⟨n, he, hne, hn, h⟩ | ⟨n, he, hne, hn, h⟩
  · obtain ⟨u, hu, hindex, hends⟩ := takeEnding_ends (x := x) hr hend .badIndex
    rw [h]
    exact ⟨engineIsFree_takeEnding s b _ _, u, hu, hindex, fun _ => hends, by simp [he], by simp [he]⟩
  · obtain ⟨u, hu, hindex, hends⟩ := takeEnding_ends (x := x) hr hend .notFound
    rw [h]
    refine ⟨engineIsFree_takeEnding s b _ _, u, hu, hindex, by simp [he], fun _ => hends, fun k hk hne => ?_⟩
    exact absurd (Option.some.inj (hk.symm.trans he)) hne
  · obtain ⟨u, hu, hindex, hends⟩ := takeEnding_ends (x := x) hr hend .beyondData
    rw [h]
    refine ⟨engineIsFree_takeEnding s b _ _, u, hu, hindex, by simp [he], fun hk => ?_, fun k hk _ => ⟨fun _ => hends, fun hlt => ?_⟩⟩
    · exact absurd (Option.some.inj (he.symm.trans hk)) hne
    · obtain rfl := Option.some.inj (he.symm.trans hk)
      exact absurd hlt (not_lt.2 hn)
  · rw [h]
    have hrun := modRestore_run hr fun r => r.resolved n
    obtain ⟨u, hu, hindex, hstart⟩ := restorePosition_kept hrun rfl
    refine ⟨engineIsFree_restorePosition _ b, u, hu, hindex, by simp [he], fun hk => ?_, fun k hk _ => ⟨fun hle => ?_, fun _ => ?_⟩⟩
    · exact absurd (Option.some.inj (he.symm.trans hk)) hne
    · obtain rfl := Option.some.inj (he.symm.trans hk)
      exact absurd hn (not_lt.2 hle)
    · obtain rfl := Option.some.inj (he.symm.trans hk)
      refine ⟨hstart, fun hpos hidle => ?_⟩
      obtain ⟨hlocated, hdrive⟩ := restorePosition_locates hr hpos hidle
      obtain rfl := Option.some.inj (hlocated.symm.trans hu)
      rw [hdrive]
      exact ⟨hend, rfl, rfl, rfl⟩

end

theorem expandCheck_frame {s t : State} (hx : exec .expandCheckComplete s = .next t) : t.elements = s.elements ∧ t.picker = s.picker := by
  have hleaves := exec_leaves _ s _ hx
  have helements := congrArg State.elements hleaves
  have hpicker := congrArg State.picker hleaves
  exact ⟨helements, hpicker⟩

theorem entryOutcome_settled {t : State} {b : Bay} {d : Drive} {r u : RestoreRun} {x : IndexRead} {entry : Option Nat}
    (h : entryOutcome t b d r x entry u) : entryOutcome (pump (onBuffer t settle)) b d r x entry u := by
  have hdrive : (pump (onBuffer t settle)).drive b = t.drive b := by rw [pump_drive, onBuffer_drive]
  rw [entryOutcome, hdrive]
  exact h

section
variable {s : State} {i : Item} {n : Nat} {r : RestoreRun} {x : IndexRead}

theorem expandCheck_indexGood (hi : s.engine.inHand = some i) (hkind : i.kind = .checkIndex n) (hkept : i.abandoned = false)
    (hr : s.restore i.bay = some r) (hend : r.ending = none) (hx : r.index = some x) (hid : x.desc = some i.desc)
    (hgood : (expandRecord i.header (itemBytes s i)).2 = .good) : ∃ t u, exec .expandCheckComplete s = .next t ∧ t.engine.inHand = none
      ∧ t.restore i.bay = some u ∧ u.index = none ∧ t.store = s.store
      ∧ entryOutcome t i.bay (s.drive i.bay) r x (indexEntry s.engine.workRaw n) u := by
  have hexec := exec_expandCheck_index hi hkind
  rw [hgood, indexCheck_good (indexOf_kept (s := engineFree s) hkept hr hx hid)] at hexec
  have hgone := indexGone_run (s := engineFree s) hr i.desc
  obtain ⟨hfree, u, hu, hindex, hout⟩ := indexResolved_run (x := x) hgone hend (indexEntry (engineFree s).engine.workRaw n)
  have hfreed : (indexGone (engineFree s) i.bay i.desc).engineIsFree = true := engineIsFree_of_engine (indexGone_engine _ _ _)
  have hstore : (indexResolved (indexGone (engineFree s) i.bay i.desc) i.bay r x (indexEntry (engineFree s).engine.workRaw n)).store
      = s.store := (show _ = (indexGone (engineFree s) i.bay i.desc).store by simp).trans (indexGone_store _ _ _)
  rw [indexGone_drive] at hout
  exact ⟨_, u, hexec, settled_inHand (hfree.trans hfreed), (settled_restore _ _).trans hu, hindex, (settled_store _).trans hstore,
    entryOutcome_settled hout⟩

theorem expandCheck_indexFailed (hi : s.engine.inHand = some i) (hkind : i.kind = .checkIndex n) (hkept : i.abandoned = false)
    (hr : s.restore i.bay = some r) (hend : r.ending = none) (hx : r.index = some x) (hid : x.desc = some i.desc)
    (hbad : (expandRecord i.header (itemBytes s i)).2 ≠ .good) : ∃ t u, exec .expandCheckComplete s = .next t ∧ t.engine.inHand = none
      ∧ t.restore i.bay = some u ∧ u.index = none
      ∧ u.ending = some ⟨(expandRecord i.header (itemBytes s i)).2.code, some x.block⟩ ∧ u.phase = .ending
      ∧ ∀ v, s.volume r.volume = some v → t.volume r.volume = some (v.failed x.block) := by
  have hexec := exec_expandCheck_index hi hkind
  rw [indexCheck_failed (indexOf_kept (s := engineFree s) hkept hr hx hid) hbad] at hexec
  set w := reportFailure (indexGone (engineFree s) i.bay i.desc) r.volume x.block with hw
  have hgone : w.restore i.bay = some { r with index := none } :=
    (restore_of_restores (by simp [hw]) i.bay).trans (indexGone_run (s := engineFree s) hr i.desc)
  obtain ⟨u, hu, hindex, hending, hphase⟩ := takeEnding_ends (x := x) hgone hend (expandRecord i.header (itemBytes s i)).2.code
  have hfreed : w.engineIsFree = true := engineIsFree_of_engine (s := engineFree s)
    ((show w.engine = (indexGone (engineFree s) i.bay i.desc).engine by simp [hw]).trans (indexGone_engine _ _ _))
  refine ⟨_, u, hexec, settled_inHand ((engineIsFree_takeEnding w _ _ _).trans hfreed), (settled_restore _ _).trans hu, hindex, hending,
    hphase, fun v hv => ?_⟩
  have hstore : (takeEnding w i.bay (expandRecord i.header (itemBytes s i)).2.code (some x.block)).store = w.store := by simp
  have hfailed : w.volume r.volume = some (v.failed x.block) :=
    reportFailure_volume ((volume_of_store (indexGone_store (engineFree s) i.bay i.desc) r.volume).trans hv) x.block
  refine (volume_of_store (s := w) ?_ r.volume).trans hfailed
  rw [settled_store, hstore]

end

/-! ### EXPAND_CHECK_COMPLETE of a verify block (R162) -/

section
variable {s : State} {b : Bay} {r : VerifyRun} {n id : Nat}

/-- The run that a block has been checked for, its block let go. -/
def VerifyRun.counted (r : VerifyRun) : VerifyRun := { r with checked := r.checked + 1, inHand := none }

/-- The state in which a verify block's result is reported. -/
def verifyCounted (s : State) (b : Bay) : State := verifyRelease (s.modVerify b fun r => { r with checked := r.checked + 1 }) b

theorem verifyCounted_run (hr : s.verifyRun b = some r) : (verifyCounted s b).verifyRun b = some r.counted := by
  have hcount : (s.modVerify b fun r => { r with checked := r.checked + 1 }).verifyRun b = some { r with checked := r.checked + 1 } := by
    rw [modVerify_at, if_pos rfl, hr]
    rfl
  have hgone : ((s.modVerify b fun r => { r with checked := r.checked + 1 }).modVerify b fun r => { r with inHand := none }).verifyRun b
      = some r.counted := by
    rw [modVerify_at, if_pos rfl, hcount]
    rfl
  rw [verifyCounted, verifyRelease, hcount]
  dsimp only
  split
  · rw [releaseDesc_verifyRun, hgone]
  · exact hgone

theorem verifyCounted_store (s : State) (b : Bay) : (verifyCounted s b).store = s.store := by simp [verifyCounted, State.modVerify]

theorem verifyEnds_run (hr : s.verifyRun b = some r) (code : ReplyCode) (block : Option Nat) :
    (verifyEnds s b code block).verifyRun b = some { r with phase := .ending, ending := some (r.ending.getD ⟨code, block⟩) } := by
  rw [verifyEnds, modVerify_at, if_pos rfl, hr]
  rfl

theorem verifyReserve_run (hr : s.verifyRun b = some r) : (verifyReserve s b).verifyRun b = some { r with phase := .reserving } := by
  rw [verifyReserve, onBuffer_verifyRun, modVerify_at, if_pos rfl, hr]
  rfl

theorem verifyReserve_store (s : State) (b : Bay) : (verifyReserve s b).store = s.store := by simp [verifyReserve, State.modVerify]

theorem verifyResult_good (hr : s.verifyRun b = some r) (n : Nat) : (∃ u, (verifyResult s b r n .good).verifyRun b = some u
      ∧ u.checked = r.checked + 1 ∧ u.inHand = none)
    ∧ (verifyResult s b r n .good).store = (modVolume (verifyCounted s b) r.volume fun v => v.passed n).store := by
  set w := modVolume (verifyCounted s b) r.volume fun v => v.passed n with hw
  have hrun : w.verifyRun b = some r.counted := (verifyRun_of_verifies (by simp [hw]) b).trans (verifyCounted_run hr)
  have hcases : verifyResult s b r n .good = if r.driveFailed then verifyEnds w b .driveFault none
      else if n + 1 = r.limit then verifyEnds w b (limitOutcome r) (some r.limit) else verifyReserve w b := rfl
  rw [hcases]
  split_ifs
  · exact ⟨⟨_, verifyEnds_run hrun _ _, rfl, rfl⟩, verifyEnds_store w b _ _⟩
  · exact ⟨⟨_, verifyEnds_run hrun _ _, rfl, rfl⟩, verifyEnds_store w b _ _⟩
  · exact ⟨⟨_, verifyReserve_run hrun, rfl, rfl⟩, verifyReserve_store w b⟩

theorem verifyResult_failed (hr : s.verifyRun b = some r) (n : Nat) {res : CheckResult} (hres : res ≠ .good) :
    (∃ u, (verifyResult s b r n res).verifyRun b = some u ∧ u.checked = r.checked + 1 ∧ u.inHand = none ∧ u.phase = .ending)
    ∧ (verifyResult s b r n res).store = (modVolume (verifyCounted s b) r.volume fun v => v.failed n).store := by
  set w := modVolume (verifyCounted s b) r.volume fun v => v.failed n with hw
  have hrun : w.verifyRun b = some r.counted := (verifyRun_of_verifies (by simp [hw]) b).trans (verifyCounted_run hr)
  have hcases : verifyResult s b r n res = verifyEnds w b res.code (some n) := by
    cases res with
    | good => exact absurd rfl hres
    | checkError => rfl
    | formatError => rfl
  rw [hcases]
  exact ⟨⟨_, verifyEnds_run hrun _ _, rfl, rfl, rfl⟩, verifyEnds_store w b _ _⟩

end

theorem exec_expandCheck_verify {s : State} {i : Item} {r : VerifyRun} {n : Nat} (hi : s.engine.inHand = some i)
    (hkind : i.kind = .checkVerify) (hkept : i.abandoned = false) (hr : s.verifyRun i.bay = some r) (hh : r.inHand = some (n, i.desc)) :
    exec .expandCheckComplete s
      = finishCredit (verifyResult (engineFree s) i.bay r n (expandRecord i.header (itemBytes s i)).2) := by
  have hr' : (engineFree s).verifyRun i.bay = some r := hr
  have hchecks : ((engineFree s).verifyRun i.bay).any (fun r => r.checks i.desc) = true := by
    rw [hr', Option.any_some, VerifyRun.checks, hh]
    simp
  change execExpandCheckComplete s = _
  rw [execExpandCheckComplete, hi]
  dsimp only
  rw [hkind]
  dsimp only
  rw [verifyCheckTaken, onVerifyOf, if_pos hchecks, checkResult, hr']
  dsimp only
  rw [hh]
  dsimp only
  rw [if_neg (by simp), if_neg (by simp [hkept])]

/-- What a verify block's result leaves of engine, elements, picker and drives. -/
theorem verifyResult_rest (s : State) (b : Bay) (r : VerifyRun) (n : Nat) (res : CheckResult) :
    (pump (onBuffer (verifyResult (engineFree s) b r n res) settle)).engine.inHand = none
    ∧ (pump (onBuffer (verifyResult (engineFree s) b r n res) settle)).elements = s.elements
    ∧ (pump (onBuffer (verifyResult (engineFree s) b r n res) settle)).picker = s.picker
    ∧ (pump (onBuffer (verifyResult (engineFree s) b r n res) settle)).drives = s.drives := by
  refine ⟨settled_inHand (engineIsFree_of_engine (s := engineFree s) (by simp)), ?_, ?_, ?_⟩
  · rw [pump_elements]
    simp [engineFree]
  · rw [pump_picker]
    simp [engineFree]
  · rw [pump_drives]
    simp [engineFree]

/-- Settles O57. -/
theorem expansionsComplete : Obligations.ExpansionsComplete := by
  refine ⟨fun s i r e hi hkind hkept hr hend he => expandDeliver_done hi hkind hkept hr hend he,
    fun s i n r x hi hkind hkept hr hend hx hid => ?_, fun s i r n v hi hkind hkept hr hh hv => ?_⟩
  · by_cases hgood : (expandRecord i.header (itemBytes s i)).2 = .good
    · obtain ⟨t, u, hexec, hfree, hu, hindex, hstore, hout⟩ := expandCheck_indexGood hi hkind hkept hr hend hx hid hgood
      exact ⟨t, u, hexec, hfree, hu, hindex, fun h => absurd hgood h, fun _ => ⟨hstore, hout⟩, expandCheck_frame hexec⟩
    · obtain ⟨t, u, hexec, hfree, hu, hindex, hfailed⟩ := expandCheck_indexFailed hi hkind hkept hr hend hx hid hgood
      exact ⟨t, u, hexec, hfree, hu, hindex, fun _ => hfailed, fun h => absurd h hgood, expandCheck_frame hexec⟩
  · have hexec := exec_expandCheck_verify hi hkind hkept hr hh
    have hv' : (verifyCounted (engineFree s) i.bay).volume r.volume = some v :=
      (volume_of_store (verifyCounted_store (engineFree s) i.bay) r.volume).trans hv
    by_cases hgood : (expandRecord i.header (itemBytes s i)).2 = .good
    · rw [hgood] at hexec
      obtain ⟨⟨u, hu, hchecked, hhand⟩, hstore⟩ := verifyResult_good (s := engineFree s) hr n
      obtain ⟨hfree, hrest⟩ := verifyResult_rest s i.bay r n .good
      refine ⟨_, u, hexec, hfree, ?_, hchecked, hhand, fun _ => ?_, fun h => absurd hgood h, hrest⟩
      · rw [pump_verifyRun, onBuffer_verifyRun, hu]
      · rw [volume_of_store ((settled_store _).trans hstore), volume_modVolume _ _ _ _ (Volume.passed_label · n), hv', Option.map_some,
          if_pos rfl]
    · obtain ⟨⟨u, hu, hchecked, hhand, hphase⟩, hstore⟩ := verifyResult_failed (s := engineFree s) hr n hgood
      obtain ⟨hfree, hrest⟩ := verifyResult_rest s i.bay r n (expandRecord i.header (itemBytes s i)).2
      refine ⟨_, u, hexec, hfree, ?_, hchecked, hhand, fun h => absurd h hgood, fun _ => ⟨?_, hphase⟩, hrest⟩
      · rw [pump_verifyRun, onBuffer_verifyRun, hu]
      · rw [volume_of_store ((settled_store _).trans hstore), volume_modVolume _ _ _ (fun v => v.failed n) (fun _ => rfl), hv',
          Option.map_some, if_pos rfl]

end Sys2Proof.Machine
end

section
/-! PROOFS. CONFIGURE and the completion of its store write (R94, R95, R182, R183). -/

namespace Sys2Proof.Machine

/-! ### Replies that wait stay when a notice is queued -/

theorem reply_mem_queueControl {r : Reply} (n : Notice) {l : List Control} (h : .reply r ∈ l) : .reply r ∈ queueControl n l := by
  induction l with
  | nil => cases h
  | cons x rest ih =>
    cases x with
    | notice m =>
      have hrest : Control.reply r ∈ rest := (List.mem_cons.1 h).resolve_left (by simp)
      rw [queueControl]
      split
      · exact List.mem_cons_of_mem _ hrest
      · exact List.mem_cons_of_mem _ (ih hrest)
    | reply q =>
      rw [queueControl]
      rcases List.mem_cons.1 h with h | h
      · exact List.mem_cons.2 (.inl h)
      · exact List.mem_cons_of_mem _ (ih h)

theorem PortCtl.noticed_up (n : Notice) (c : PortCtl) : (c.noticed n).up = c.up := by
  unfold PortCtl.noticed
  split <;> rfl

theorem PortCtl.noticed_reply {r : Reply} {c : PortCtl} (n : Notice) (h : .reply r ∈ c.control) : .reply r ∈ (c.noticed n).control := by
  unfold PortCtl.noticed
  split
  · exact reply_mem_queueControl n h
  · exact h

theorem onBuffer_up (s : State) (f : CreditEnv → Buffer → Buffer) (p : Port) : ((onBuffer s f).port p).up = (s.port p).up := by
  rcases onBuffer_port s f p with h | ⟨u, d, h⟩ <;> rw [h]
  exact PortCtl.noticed_up _ _

theorem onBuffer_reply {s : State} {p : Port} {r : Reply} (f : CreditEnv → Buffer → Buffer) (hr : .reply r ∈ (s.port p).control) :
    .reply r ∈ ((onBuffer s f).port p).control := by
  rcases onBuffer_port s f p with h | ⟨u, d, h⟩ <;> rw [h]
  · exact hr
  · exact PortCtl.noticed_reply _ hr

/-! ### What the credit manager looks at -/

theorem creditEnv_congr {s t : State} (hs : t.settings = s.settings) (hup : ∀ p, (t.port p).up = (s.port p).up)
    (hw : t.storeWrite = s.storeWrite) : t.creditEnv = s.creditEnv := by
  have h0 : t.ports.p0.up = s.ports.p0.up := hup .p0
  have h1 : t.ports.p1.up = s.ports.p1.up := hup .p1
  have h2 : t.ports.p2.up = s.ports.p2.up := hup .p2
  rw [State.creditEnv, State.creditEnv, hs, h0, h1, h2, hw]

theorem creditEnv_still {s : State} (h : s.storeWrite = none) : s.creditEnv = .of s.settings s.creditEnv.up := by
  rw [State.creditEnv, h]
  rfl

theorem openTag_creditEnv (s : State) (p : Port) (tag : Byte) (k : ReqKind) : (openTag s p tag k).creditEnv = s.creditEnv :=
  creditEnv_congr rfl (fun q => by
    by_cases h : q = p
    · rw [h, openTag_port]
    · rw [openTag_port_ne _ _ _ h]) rfl

/-! ### CONFIGURE -/

theorem configRefusal_openTag (s : State) (p : Port) (tag : Byte) (k : ReqKind) (es : List SettingEntry) :
    configRefusal (openTag s p tag k) es = configRefusal s es := by
  unfold configRefusal
  rw [openTag_creditEnv]
  rfl

section
variable {s : State} {p : Port} {tag : Byte} {es : List SettingEntry}

theorem exec_configure_waits (ht : s.takes p tag) (hc : s.configWaiting = []) (hw : s.storeWrite.isSome = true) :
    exec (.configure p tag es) s = .next (pump { openTag s p tag .configure with configWaiting := [⟨p, some tag, es⟩] }) := by
  have hw' : (openTag s p tag .configure).storeWrite.isSome = true := hw
  have hc' : (openTag s p tag .configure).configWaiting = [] := hc
  change execConfigure p tag es s = _
  rw [execConfigure, request_taken _ _ ht, if_pos hw', hc', List.nil_append]

theorem exec_configure_taken (ht : s.takes p tag) (hc : s.configWaiting = []) (hw : s.storeWrite = none) :
    exec (.configure p tag es) s = .next (pump (takeConfigs (openTag s p tag .configure) [⟨p, some tag, es⟩])) := by
  have hw' : (openTag s p tag .configure).storeWrite = none := hw
  have hc' : (openTag s p tag .configure).configWaiting = [] := hc
  change execConfigure p tag es s = _
  rw [execConfigure, request_taken _ _ ht, hw', hc', List.nil_append]
  rfl

theorem takeConfigs_one (q : ConfigRequest) : (∀ code, configRefusal s q.entries = some code →
      takeConfigs s [q] = { answerHeld s q.port q.tag .configure code with configWaiting := [] })
    ∧ (configRefusal s q.entries = none → q.entries = [] → takeConfigs s [q] = { configDone s q with configWaiting := [] })
    ∧ (configRefusal s q.entries = none → q.entries ≠ [] → takeConfigs s [q] = beginWrite s q []) := by
  refine ⟨fun code h => ?_, fun h he => ?_, fun h he => ?_⟩ <;> unfold takeConfigs <;> rw [h]
  · rfl
  · dsimp only
    rw [if_pos (by simp [he])]
    rfl
  · dsimp only
    rw [if_neg (by simp [he])]

theorem noneWaiting_answer {s : State} (hc : s.configWaiting = []) (p : Port) (tag : Byte) (k : ReqKind) (code : ReplyCode)
    (body : ReplyBody) (clamped : Bool) :
    { answer s p tag k code body clamped with configWaiting := [] } = answer s p tag k code body clamped := by
  have hsame : { answer s p tag k code body clamped with configWaiting := s.configWaiting } = answer s p tag k code body clamped := rfl
  rw [← hc]
  exact hsame

theorem configure_begins (hw : s.storeWrite = none) (hc : s.configWaiting = []) (q : ConfigRequest) :
    { pump (beginWrite (openTag s p tag .configure) q []) with storeWrite := none, buffer := s.buffer, ports := s.ports } = s := by
  have hsame : { pump (beginWrite (openTag s p tag .configure) q []) with
      storeWrite := s.storeWrite, configWaiting := s.configWaiting, buffer := s.buffer, ports := s.ports } = s := rfl
  rw [hw, hc] at hsame
  exact hsame

theorem configure_accepted (ht : s.takes p tag) (hlen : (s.port p).tags.length = 8) (hc : s.configWaiting = []) (hw : s.storeWrite = none)
    (he : es ≠ []) (hnone : configRefusal s es = none) : ∃ t, exec (.configure p tag es) s = .next t
      ∧ t.buffer = s.buffer.setAside s.settings (s.settings.with es)
      ∧ t.storeWrite = some ⟨p, some tag, es⟩ ∧ (t.port p).tagKind tag = some .configure ∧ (s.creditHolds → t.creditHolds)
      ∧ { t with storeWrite := none, buffer := s.buffer, ports := s.ports } = s := by
  have hx := exec_configure_taken (es := es) ht hc hw
  obtain ⟨-, -, hbegins⟩ := takeConfigs_one (s := openTag s p tag .configure) ⟨p, some tag, es⟩
  rw [hbegins ((configRefusal_openTag s p tag .configure es).trans hnone) he] at hx
  have hkeeps := (exec_keeps hx).credit
  refine ⟨_, hx, rfl, rfl, ?_, hkeeps, configure_begins hw hc _⟩
  have hport : (pump (beginWrite (openTag s p tag .configure) ⟨p, some tag, es⟩ [])).port p = ((openTag s p tag .configure).port p).pump
      :=
    pump_port _ p
  obtain ⟨-, htag, -⟩ := ht
  rw [hport, PortCtl.tagKind, PortCtl.pump_tags, openTag_port]
  simp [show tag.toNat < (s.port p).tags.length by omega]

theorem configure_empty (ht : s.takes p tag) (hc : s.configWaiting = []) (hw : s.storeWrite = none) (hnone : configRefusal s [] = none) :
    exec (.configure p tag []) s = .next (s.replied p tag .configure .done (.settings [])) := by
  obtain ⟨-, hdone, -⟩ := takeConfigs_one (s := openTag s p tag .configure) ⟨p, some tag, []⟩
  rw [exec_configure_taken ht hc hw, hdone ((configRefusal_openTag s p tag .configure []).trans hnone) rfl]
  exact congrArg (fun t => Host.Outcome.next (pump t)) (noneWaiting_answer (s := openTag s p tag .configure) hc p tag .configure .done
    (.settings []) false)

theorem configure_refused (ht : s.takes p tag) (hc : s.configWaiting = []) (hw : s.storeWrite = none) {code : ReplyCode}
    (hcode : configRefusal s es = some code) : exec (.configure p tag es) s = .next (s.replied p tag .configure code) := by
  obtain ⟨hrefused, -⟩ := takeConfigs_one (s := openTag s p tag .configure) ⟨p, some tag, es⟩
  rw [exec_configure_taken ht hc hw, hrefused code ((configRefusal_openTag s p tag .configure es).trans hcode)]
  exact congrArg (fun t => Host.Outcome.next (pump t)) (noneWaiting_answer (s := openTag s p tag .configure) hc p tag .configure code
    .none false)

end

/-! ### The write complete -/

section
variable {s : State} {q : ConfigRequest}

/-- The state in which the units and descriptors of the completed write have moved. -/
def configMoved (s : State) (q : ConfigRequest) : State := onBuffer s fun v b => b.landMoved v (s.settings.with q.entries)

/-- The state in which its values stand too. -/
def configLanded (s : State) (q : ConfigRequest) : State :=
  { applySettings (configMoved s q) (s.settings.with q.entries) with
    storeWrite := none, releaseWrites := (configMoved s q).releaseWrites.map fun r => { r with behind := false } }

/-- The state after its reply and the refill pass. -/
def configSettled (s : State) (q : ConfigRequest) : State := onBuffer (configDone (configLanded s q) q) settle

theorem configWritten_eq (s : State) (q : ConfigRequest) :
    configWritten s q = takeConfigs (configSettled s q) (configSettled s q).configWaiting := rfl

theorem applySettings_rest (s : State) (new : Settings) : (applySettings s new).store = { s.store with settings := new }
    ∧ (applySettings s new).buffer = s.buffer ∧ (applySettings s new).picker = s.picker ∧ (applySettings s new).drives = s.drives
    ∧ (applySettings s new).streams = s.streams ∧ (applySettings s new).ports = s.ports
    ∧ (applySettings s new).configWaiting = s.configWaiting := by
  unfold applySettings
  dsimp only
  split <;> exact ⟨rfl, rfl, rfl, rfl, rfl, rfl, rfl⟩

theorem applySettings_partition (s : State) (new : Settings) :
    (new.partition ≠ s.settings.partition → (applySettings s new).scratchPointer = 0)
    ∧ (new.partition = s.settings.partition →
        (applySettings s new).scratchPointer = s.scratchPointer ∧ (applySettings s new).elements = s.elements) := by
  unfold applySettings
  dsimp only
  refine ⟨fun h => ?_, fun h => ?_⟩
  · rw [if_pos h]
    rfl
  · rw [if_neg (by simp [h])]
    exact ⟨rfl, rfl⟩

/-- The fields outside the buffer and the ports that no step of a settling touches. -/
theorem onBuffer_rest (s : State) (f : CreditEnv → Buffer → Buffer) : (onBuffer s f).configWaiting = s.configWaiting
    ∧ (onBuffer s f).storeWrite = s.storeWrite ∧ (onBuffer s f).releaseWrites = s.releaseWrites
    ∧ (onBuffer s f).scratchPointer = s.scratchPointer := by
  obtain ⟨-, -, -, hw, hc, hr, hp, -, -⟩ := side_fields (show (onBuffer s f).side = s.side by simp)
  exact ⟨hc, hw, hr, hp⟩

theorem configDone_rest (s : State) (q : ConfigRequest) : (configDone s q).configWaiting = s.configWaiting
    ∧ (configDone s q).storeWrite = s.storeWrite ∧ (configDone s q).releaseWrites = s.releaseWrites
    ∧ (configDone s q).scratchPointer = s.scratchPointer := by
  obtain ⟨-, -, -, hw, hc, hr, hp, -, -⟩ := side_fields (show (configDone s q).side = s.side by simp)
  exact ⟨hc, hw, hr, hp⟩

/-- What the completed write leaves, outside buffer and ports. -/
theorem configSettled_rest (s : State) (q : ConfigRequest) : (configSettled s q).configWaiting = s.configWaiting
    ∧ (configSettled s q).storeWrite = none
    ∧ (configSettled s q).releaseWrites = s.releaseWrites.map (fun r => { r with behind := false })
    ∧ (configSettled s q).store = { s.store with settings := s.settings.with q.entries } := by
  obtain ⟨hc, hw, hr, -⟩ := onBuffer_rest (configDone (configLanded s q) q) settle
  obtain ⟨dc, dw, dr, -⟩ := configDone_rest (configLanded s q) q
  obtain ⟨mc, -, mr, -⟩ := onBuffer_rest s fun v b => b.landMoved v (s.settings.with q.entries)
  obtain ⟨hstore, -, -, -, -, -, hwaiting⟩ := applySettings_rest (configMoved s q) (s.settings.with q.entries)
  have mstore : (configMoved s q).store = s.store := by simp [configMoved]
  refine ⟨?_, ?_, ?_, ?_⟩
  · rw [configSettled, hc, dc]
    exact hwaiting.trans mc
  · rw [configSettled, hw, dw]
    rfl
  · rw [configSettled, hr, dr]
    exact congrArg (List.map _) mr
  · have hsame : (configSettled s q).store = (configLanded s q).store := by simp [configSettled]
    rw [hsame, ← mstore]
    exact hstore

theorem configSettled_blocks (s : State) (q : ConfigRequest) : (configSettled s q).picker = s.picker
    ∧ (configSettled s q).drives = s.drives ∧ (configSettled s q).streams = s.streams := by
  obtain ⟨-, -, hp, hd, hst, -, -⟩ := applySettings_rest (configMoved s q) (s.settings.with q.entries)
  refine ⟨?_, ?_, ?_⟩
  · have hsame : (configSettled s q).picker = (configLanded s q).picker := by simp [configSettled]
    rw [hsame]
    exact hp.trans (by simp [configMoved])
  · have hsame : (configSettled s q).drives = (configLanded s q).drives := by simp [configSettled]
    rw [hsame]
    exact hd.trans (by simp [configMoved])
  · have hsame : (configSettled s q).streams = (configLanded s q).streams := by simp [configSettled]
    rw [hsame]
    exact hst.trans (by simp [configMoved])

theorem configSettled_partition (s : State) (q : ConfigRequest) :
    ((s.settings.with q.entries).partition ≠ s.settings.partition → (configSettled s q).scratchPointer = 0)
    ∧ ((s.settings.with q.entries).partition = s.settings.partition →
        (configSettled s q).scratchPointer = s.scratchPointer ∧ (configSettled s q).elements = s.elements) := by
  obtain ⟨-, -, -, hp⟩ := onBuffer_rest (configDone (configLanded s q) q) settle
  obtain ⟨-, -, -, dp⟩ := configDone_rest (configLanded s q) q
  obtain ⟨-, -, -, mp⟩ := onBuffer_rest s fun v b => b.landMoved v (s.settings.with q.entries)
  have msettings : (configMoved s q).settings = s.settings := congrArg Store.settings (show (configMoved s q).store = s.store by
    simp [configMoved])
  obtain ⟨hchanged, hkept⟩ := applySettings_partition (configMoved s q) (s.settings.with q.entries)
  rw [msettings] at hchanged hkept
  have hel : (configSettled s q).elements = (configLanded s q).elements := by simp [configSettled]
  have hpointer : (configSettled s q).scratchPointer = (configLanded s q).scratchPointer := hp.trans dp
  rw [hpointer, hel]
  refine ⟨hchanged, fun h => ?_⟩
  obtain ⟨hsame, hels⟩ := hkept h
  exact ⟨hsame.trans mp, hels.trans (by simp [configMoved])⟩

/-- Every port is UP or DOWN as it was. -/
theorem configMoved_up (s : State) (q : ConfigRequest) (p : Port) : ((configMoved s q).port p).up = (s.port p).up := onBuffer_up s _ p

theorem configLanded_port (s : State) (q : ConfigRequest) (p : Port) : (configLanded s q).port p = (configMoved s q).port p := by
  obtain ⟨-, -, -, -, -, hports, -⟩ := applySettings_rest (configMoved s q) (s.settings.with q.entries)
  exact congrArg (PerPort.get · p) hports

theorem configDone_up (s : State) (q : ConfigRequest) (p : Port) : ((configDone s q).port p).up = (s.port p).up :=
  (grows_answerHeld s q.port q.tag .configure .done _ _).up p

theorem configSettled_buffer (s : State) (q : ConfigRequest) : (configSettled s q).buffer
    = settle (.of (s.settings.with q.entries) s.creditEnv.up) (s.buffer.landMoved s.creditEnv (s.settings.with q.entries)) := by
  obtain ⟨hstore, hbuffer, -⟩ := applySettings_rest (configMoved s q) (s.settings.with q.entries)
  have hmoved : (configDone (configLanded s q) q).buffer = s.buffer.landMoved s.creditEnv (s.settings.with q.entries) := by
    have hsame : (configDone (configLanded s q) q).buffer = (configLanded s q).buffer := by simp
    rw [hsame]
    exact hbuffer.trans (onBuffer_buffer s _)
  have henv : (configDone (configLanded s q) q).creditEnv = .of (s.settings.with q.entries) s.creditEnv.up := by
    obtain ⟨-, hw, -⟩ := configDone_rest (configLanded s q) q
    have hsettings : (configDone (configLanded s q) q).settings = s.settings.with q.entries :=
      (congrArg Store.settings (show (configDone (configLanded s q) q).store = (configLanded s q).store by simp)).trans
        (congrArg Store.settings hstore)
    have hup : (configDone (configLanded s q) q).creditEnv.up = s.creditEnv.up := by
      have hport : ∀ p, ((configDone (configLanded s q) q).port p).up = (s.port p).up := fun p => by
        rw [configDone_up, configLanded_port, configMoved_up]
      have h0 : (configDone (configLanded s q) q).ports.p0.up = s.ports.p0.up := hport .p0
      have h1 : (configDone (configLanded s q) q).ports.p1.up = s.ports.p1.up := hport .p1
      have h2 : (configDone (configLanded s q) q).ports.p2.up = s.ports.p2.up := hport .p2
      simp only [State.creditEnv, h0, h1, h2]
    rw [creditEnv_still (hw.trans rfl), hsettings, hup]
  rw [configSettled, onBuffer_buffer, hmoved, henv]

/-- The reply to the CONFIGURE, at an UP port. -/
def configReply (q : ConfigRequest) (tag : Byte) : Reply :=
  ⟨ReqKind.configure.code, tag, .done, decide (q.entries.map clampEntry ≠ q.entries), .settings (q.entries.map clampEntry), true⟩

theorem configSettled_reply {tag : Byte} (htag : q.tag = some tag) (hup : (s.port q.port).up = true) :
    .reply (configReply q tag) ∈ ((configSettled s q).port q.port).control := by
  have hup' : ((configLanded s q).port q.port).up = true := by rw [configLanded_port, configMoved_up, hup]
  refine onBuffer_reply settle ?_
  rw [configDone, htag]
  dsimp only [answerHeld]
  rw [answer_port _ _ _ _ _ hup']
  exact List.mem_append_right _ (List.mem_singleton.2 rfl)

theorem exec_configWritten (hw : s.storeWrite = some q) (hc : s.configWaiting = [])
    (hbehind : (s.releaseWrites.head?.all fun r => r.behind) = true) :
    exec .settingsStoreWriteComplete s = .next (pump { configSettled s q with configWaiting := [] }) := by
  have hnone : s.releaseInStore = none := by
    unfold State.releaseInStore
    cases hr : s.releaseWrites with
    | nil => rfl
    | cons r rest =>
      have hb : r.behind = true := by simpa [hr] using hbehind
      dsimp only
      rw [if_pos (by simp [hb, hw])]
  obtain ⟨hwaiting, -⟩ := configSettled_rest s q
  change execSettingsStoreWriteComplete s = _
  rw [execSettingsStoreWriteComplete, hw, hnone]
  dsimp only
  rw [configWritten_eq, hwaiting, hc]
  rfl

end

/-- Settles O39. -/
theorem settingsTaken : Obligations.SettingsTaken := by
  refine ⟨fun s p tag es ht hlen hc => ⟨fun hw he hnone => configure_accepted ht hlen hc hw he hnone, fun hw he hnone => ?_,
    fun hw code hcode => configure_refused ht hc hw hcode, fun hw => exec_configure_waits ht hc hw⟩, fun s q hw hc hbehind => ?_⟩
  · subst he
    exact configure_empty ht hc hw hnone
  · have hx := exec_configWritten hw hc hbehind
    obtain ⟨-, hwrite, hreleases, hstore⟩ := configSettled_rest s q
    obtain ⟨hchanged, hkept⟩ := configSettled_partition s q
    obtain ⟨hpicker, hdrives, hstreams⟩ := configSettled_blocks s q
    have hbuffer := configSettled_buffer s q
    have hkeeps := (exec_keeps hx).credit
    have hreply : ∀ tag, q.tag = some tag → (s.port q.port).up = true →
        Control.reply (configReply q tag) ∈ ((configSettled s q).port q.port).control := fun _ => configSettled_reply
    generalize configSettled s q = w at *
    have hsettings : w.settings = s.settings.with q.entries := congrArg Store.settings hstore
    have hvolumes : w.store.volumes = s.store.volumes := by rw [hstore]
    have hexport : w.store.exportCounter = s.store.exportCounter := by rw [hstore]
    refine ⟨_, hx, hsettings, hwrite, hbuffer, rfl, hreleases, hvolumes, hexport,
      fun h => hchanged ?_, fun h => hkept ?_, fun tag htag hup => pump_sends (hreply tag htag hup), hkeeps, hpicker, hdrives, hstreams⟩
    · exact fun he => h ((congrArg Settings.partition hsettings).trans he)
    · exact (congrArg Settings.partition hsettings).symm.trans h

end Sys2Proof.Machine
end

section
/-! PROOFS. What a port that has gone DOWN leaves of its credit (R93), and that no unit or descriptor is made or lost on the way: the law
    of
the credit manager's operations for a buffer of any contents, with the share of the DOWN port. -/

namespace Sys2Proof.Machine

/-! ### The ledger -/

/-- Of a share nothing more is granted and nothing FREE of the write home is taken. -/
structure Share.stands (x y : Share) : Prop where
  writeGranted : y.writeGranted = x.writeGranted
  poolGranted : y.poolGranted = x.poolGranted
  descWriteGranted : y.descWriteGranted = x.descWriteGranted
  descPoolGranted : y.descPoolGranted = x.descPoolGranted
  writeFree : x.writeFree ≤ y.writeFree
  descWriteFree : x.descWriteFree ≤ y.descWriteFree

theorem Share.stands.refl (x : Share) : x.stands x := ⟨rfl, rfl, rfl, rfl, Nat.le_refl _, Nat.le_refl _⟩

theorem Share.stands.trans {x y z : Share} (h : x.stands y) (g : y.stands z) : x.stands z :=
  ⟨g.writeGranted.trans h.writeGranted, g.poolGranted.trans h.poolGranted, g.descWriteGranted.trans h.descWriteGranted,
    g.descPoolGranted.trans h.descPoolGranted, Nat.le_trans h.writeFree g.writeFree, Nat.le_trans h.descWriteFree g.descWriteFree⟩

/-- How many units and descriptors of each origin there are, and the share that a port had when it went DOWN. -/
structure Ledger where
  units : Origin → Nat
  descs : Origin → Nat
  port : Port
  share : Share

/-- The ledger of a buffer as it stands. -/
def Buffer.ledger (b : Buffer) (p : Port) : Ledger := ⟨b.unitsIn, b.descsIn, p, b.share.get p⟩

/-- The buffer is as the ledger has it, with `du` units and `dd` descriptors on their way. -/
structure Ledger.meets (l : Ledger) (b : Buffer) (du dd : Origin → Nat) : Prop where
  units : ∀ o, b.unitsIn o + du o = l.units o
  descs : ∀ o, b.descsIn o + dd o = l.descs o
  share : l.share.stands (b.share.get l.port)

theorem ledger_meets (b : Buffer) (p : Port) : (b.ledger p).meets b (fun _ => 0) (fun _ => 0) := ⟨fun _ => rfl, fun _ => rfl, .refl _⟩

theorem stands_modShare {b : Buffer} {p q : Port} {f : Share → Share} (h : q = p → (b.share.get q).stands (f (b.share.get q))) :
    (b.share.get p).stands ((b.modShare q f).share.get p) := by
  rw [Buffer.modShare, PerPort.get_set]
  split
  · next hq => subst hq; exact h rfl
  · exact .refl _

section
variable {l : Ledger} {b c : Buffer} {du dd : Origin → Nat} {v : CreditEnv}

/-- A change that leaves the port's share standing. -/
theorem Ledger.meets.of_counts (h : l.meets b du dd) {du' dd' : Origin → Nat} (hu : ∀ o, c.unitsIn o + du' o = b.unitsIn o + du o)
    (hd : ∀ o, c.descsIn o + dd' o = b.descsIn o + dd o) (hs : (b.share.get l.port).stands (c.share.get l.port)) : l.meets c du' dd' :=
  ⟨fun o => (hu o).trans (h.units o), fun o => (hd o).trans (h.descs o), h.share.trans hs⟩

/-- A change outside the counts and the descriptors. -/
theorem Ledger.meets.of_same (h : l.meets b du dd) (hs : c.share = b.share) (hd : c.descs = b.descs) (hp : c.poolFree = b.poolFree)
    (hi : c.internalFree = b.internalFree) (hdp : c.descPoolFree = b.descPoolFree) (hdi : c.descInternalFree = b.descInternalFree) :
    l.meets c du dd := by
  refine h.of_counts (fun o => ?_) (fun o => ?_) (by rw [hs]; exact .refl _)
  · cases o <;> simp only [Buffer.unitsIn, Buffer.heldUnits, hs, hd, hp, hi]
  · cases o <;> simp only [Buffer.descsIn, Buffer.heldDescs, hs, hd, hdp, hdi]

/-- A change of the HELD descriptors alone. -/
theorem Ledger.meets.of_descs (h : l.meets b du dd) {ds : List Desc} {du' dd' : Origin → Nat}
    (hu : ∀ o, Buffer.heldUnits { b with descs := ds } o + du' o = b.heldUnits o + du o)
    (hd : ∀ o, Buffer.heldDescs { b with descs := ds } o + dd' o = b.heldDescs o + dd o) : l.meets { b with descs := ds } du' dd' := by
  refine h.of_counts (fun o => ?_) (fun o => ?_) (.refl _)
  · have := hu o
    cases o <;> simp only [Buffer.unitsIn] at * <;> omega
  · have := hd o
    cases o <;> simp only [Buffer.descsIn] at * <;> omega

theorem meets_modDesc (id : Nat) (f : Desc → Desc) (ho : ∀ d, (f d).origin = d.origin) (du' : Origin → Nat)
    (hu : ∀ d, b.desc id = some d → ∀ o, du' o + (f d).unitsOf o = du o + d.unitsOf o) (hn : b.desc id = none → du' = du)
    (h : l.meets b du dd) : l.meets (b.modDesc id f) du' dd := by
  refine h.of_descs (fun o => ?_) (fun o => congrArg (· + dd o) (origins_replaceDesc id f ho o b.descs))
  cases hx : b.desc id with
  | none => rw [hn hx, replaceDesc_none id f b.descs hx]
  | some d =>
    have hsum := sum_replaceDesc id f o b.descs d hx
    have hmoved := hu d hx o
    simp only [Buffer.heldUnits]
    omega

/-- The rule of a port's share: its units, and what is on its way of each origin. -/
theorem meets_shareUnits {p : Port} {f : Share → Share} {du' : Origin → Nat} (h : l.meets b du dd)
    (hs : p = l.port → (b.share.get p).stands (f (b.share.get p)))
    (hw : (f (b.share.get p)).writeFree + (f (b.share.get p)).writeGranted + du' (.writeHome p)
      = (b.share.get p).writeFree + (b.share.get p).writeGranted + du (.writeHome p))
    (hr : (f (b.share.get p)).readFree + du' (.readHome p) = (b.share.get p).readFree + du (.readHome p))
    (hp : (f (b.share.get p)).poolGranted + du' .pool = (b.share.get p).poolGranted + du .pool)
    (ho : ∀ o, o ≠ .writeHome p → o ≠ .readHome p → o ≠ .pool → du' o = du o)
    (hd : ∀ x : Share, (f x).descWriteFree + (f x).descWriteGranted = x.descWriteFree + x.descWriteGranted
      ∧ (f x).descReadFree = x.descReadFree ∧ (f x).descPoolGranted = x.descPoolGranted) : l.meets (b.modShare p f) du' dd := by
  refine h.of_counts (fun o => ?_) (fun o => ?_) (stands_modShare hs)
  · have := ho o
    clear hs hd
    cases p <;> rcases o with q | q | _ | _ <;> (try cases q) <;>
      simp [Buffer.unitsIn, Buffer.modShare, PerPort.get, PerPort.set, Buffer.heldUnits] at hw hr hp this ⊢ <;> omega
  · obtain ⟨hw, hr, hp⟩ := hd (b.share.get p)
    clear hs
    cases p <;> rcases o with q | q | _ | _ <;> (try cases q) <;>
      simp [Buffer.descsIn, Buffer.modShare, PerPort.get, PerPort.set, Buffer.heldDescs] at hw hr hp ⊢ <;> omega

/-- The rule of a port's share: its descriptors. -/
theorem meets_shareDescs {p : Port} {f : Share → Share} {dd' : Origin → Nat} (h : l.meets b du dd)
    (hs : p = l.port → (b.share.get p).stands (f (b.share.get p)))
    (hw : (f (b.share.get p)).descWriteFree + (f (b.share.get p)).descWriteGranted + dd' (.writeHome p)
      = (b.share.get p).descWriteFree + (b.share.get p).descWriteGranted + dd (.writeHome p))
    (hr : (f (b.share.get p)).descReadFree + dd' (.readHome p) = (b.share.get p).descReadFree + dd (.readHome p))
    (hp : (f (b.share.get p)).descPoolGranted + dd' .pool = (b.share.get p).descPoolGranted + dd .pool)
    (ho : ∀ o, o ≠ .writeHome p → o ≠ .readHome p → o ≠ .pool → dd' o = dd o)
    (hd : ∀ x : Share, (f x).writeFree + (f x).writeGranted = x.writeFree + x.writeGranted
      ∧ (f x).readFree = x.readFree ∧ (f x).poolGranted = x.poolGranted) : l.meets (b.modShare p f) du dd' := by
  refine h.of_counts (fun o => ?_) (fun o => ?_) (stands_modShare hs)
  · obtain ⟨hw, hr, hp⟩ := hd (b.share.get p)
    clear hs
    cases p <;> rcases o with q | q | _ | _ <;> (try cases q) <;>
      simp [Buffer.unitsIn, Buffer.modShare, PerPort.get, PerPort.set, Buffer.heldUnits] at hw hr hp ⊢ <;> omega
  · have := ho o
    clear hs hd
    cases p <;> rcases o with q | q | _ | _ <;> (try cases q) <;>
      simp [Buffer.descsIn, Buffer.modShare, PerPort.get, PerPort.set, Buffer.heldDescs] at hw hr hp this ⊢ <;> omega

/-- The rule of the FREE counts outside the homes. -/
theorem meets_free {pool internal descPool descInternal : Nat} {du' dd' : Origin → Nat} (h : l.meets b du dd)
    (hp : pool + du' .pool = b.poolFree + du .pool) (hi : internal + du' .internal = b.internalFree + du .internal)
    (hdp : descPool + dd' .pool = b.descPoolFree + dd .pool) (hdi : descInternal + dd' .internal = b.descInternalFree + dd .internal)
    (ho : ∀ o, o ≠ .pool → o ≠ .internal → du' o = du o ∧ dd' o = dd o) :
    l.meets { b with poolFree := pool, internalFree := internal, descPoolFree := descPool, descInternalFree := descInternal } du' dd' :=
        by
  refine h.of_counts (fun o => ?_) (fun o => ?_) (.refl _)
  · have := ho o
    cases o <;> simp [Buffer.unitsIn, Buffer.heldUnits] at this ⊢ <;> omega
  · have := ho o
    cases o <;> simp [Buffer.descsIn, Buffer.heldDescs] at this ⊢ <;> omega

theorem meets_addDesc (d : Desc) {du' dd' : Origin → Nat} (h : l.meets b du dd) (hu : ∀ o, du' o + d.unitsOf o = du o)
    (hd : ∀ o, dd' o + (if d.origin = o then 1 else 0) = dd o) : l.meets (b.addDesc d) du' dd' := by
  refine h.of_descs (fun o => ?_) (fun o => ?_)
  · have hc := heldUnits_cons d b o
    have := hu o
    simp only [Buffer.addDesc] at hc
    omega
  · have hc := heldDescs_cons d b o
    have := hd o
    simp only [Buffer.addDesc] at hc
    omega

/-! ### Restore allocations (R84 to R86) -/

theorem meets_join (a : Alloc) (x : Origin) (n : Nat) (h : l.meets b (plus du x n) dd) (hd : (b.allocDesc a).isSome ∨ n = 0) :
    l.meets (b.joinAlloc a x n) du dd := by
  have nothing : n = 0 → plus du x n = du := fun hn => by funext o; simp [plus, hn]
  unfold Buffer.joinAlloc
  cases ha : a.desc with
  | none =>
    have hn : n = 0 := hd.resolve_left (by simp [Buffer.allocDesc, ha])
    rwa [nothing hn] at h
  | some id =>
    refine meets_modDesc id _ (fun d => ?_) du (fun d _ o => ?_) (fun hn => ?_) h
    · split <;> rfl
    · simp only [plus]
      split <;> simp only [Desc.unitsOf_eq, countOf_append, countOf_replicate] <;> omega
    · exact (nothing (hd.resolve_left (by simp [Buffer.allocDesc, ha, hn]))).symm

theorem meets_fillAlloc (a : Alloc) (h : l.meets b du dd) : l.meets (fillAlloc v b a) du dd := by
  unfold fillAlloc
  extract_lets home pool b1
  have hh : home ≤ (b.share.get a.port).readFree := Nat.le_trans (Nat.min_le_right _ _) (homeFor_le b a)
  have hp : pool ≤ b.poolFree := by simp only [pool]; split; exact Nat.min_le_right _ _; omega
  have hs : (b.allocDesc a).isSome ∨ (home = 0 ∧ pool = 0) := by
    by_cases hd : (b.allocDesc a).isSome
    · exact .inl hd
    · right; simp only [home, pool, lack_zero hd]; simp
  clear_value home pool
  have taken : l.meets { b1 with poolFree := b1.poolFree - pool } (plus (plus du .pool pool) (.readHome a.port) home) dd := by
    have read : l.meets b1 (plus du (.readHome a.port) home) dd :=
      meets_shareUnits h (fun _ => ⟨rfl, rfl, rfl, rfl, Nat.le_refl _, Nat.le_refl _⟩) (by simp [plus]) (by simp [plus]; omega)
        (by simp [plus]) (fun o _ hr _ => by simp [plus, hr.symm]) fun _ => ⟨rfl, rfl, rfl⟩
    exact meets_free read (by simp [plus, b1, Buffer.modShare]; omega) rfl rfl rfl fun o hn _ => ⟨by simp [plus, hn.symm], rfl⟩
  refine meets_join a _ _ (meets_join a _ _ taken (hs.imp_right And.left)) ?_
  rw [joinAlloc_allocDesc_isSome]
  exact hs.imp_right And.right

theorem meets_fillFor (p : Port) (n : Nat) (h : l.meets b du dd) : l.meets (fillFor v p n b) du dd := by
  induction n generalizing b with
  | zero => exact h
  | succ n ih =>
    unfold fillFor
    split
    · extract_lets b1
      split
      · exact ih (meets_fillAlloc _ h)
      · exact meets_fillAlloc _ h
    · exact h

theorem meets_fillPort (p : Port) (h : l.meets b du dd) : l.meets (fillPort v b p) du dd := meets_fillFor p _ h

/-! ### Releases (R76, R89 to R91) -/

theorem filling_allocDesc {p : Port} {a : Alloc} (ha : b.filling p = some a) : (b.allocDesc a).isSome = true := by
  by_contra hd
  have hz := lack_zero hd
  unfold Buffer.filling at ha
  extract_lets op at ha
  have hm : a ∈ op := by
    split at ha
    · next x hx =>
      obtain rfl : x = a := Option.some.inj ha
      exact List.mem_of_find?_eq_some hx
    · exact List.mem_of_mem_head? ha
  simp [op, hz] at hm

theorem meets_givePoolUnit {p : Port} (hp : p ≠ l.port) (h : l.meets b (plus du .pool 1) dd) : l.meets (givePoolUnit b p) du dd := by
  unfold givePoolUnit
  split
  · next a ha => exact meets_join _ _ _ h (.inl (filling_allocDesc ha))
  · exact meets_shareUnits h (fun e => absurd e hp) (by simp [plus]) (by simp [plus]) (by simp [plus]; omega)
      (fun o _ _ hn => by simp [plus, hn.symm]) fun _ => ⟨rfl, rfl, rfl⟩

theorem poolWaiter_up {p : Port} (h : poolWaiter v b p = true) : v.up.get p = true := by
  simp only [poolWaiter, Bool.and_eq_true] at h
  exact h.1.1

theorem descWaiter_up {p : Port} (h : descWaiter v b p = true) : v.up.get p = true := by
  simp only [descWaiter, Bool.and_eq_true] at h
  exact h.1.1.1

theorem up_ne {p : Port} (hl : v.up.get l.port = false) (hp : v.up.get p = true) : p ≠ l.port := fun e => by simp [← e, hp] at hl

theorem meets_handPoolUnit (hl : v.up.get l.port = false) (hc : congested v b = true) (h : l.meets b (plus du .pool 1) dd) :
    l.meets (handPoolUnit v b) du dd := by
  rw [handPoolUnit_eq hc]
  exact (meets_givePoolUnit (up_ne hl (poolWaiter_up (turnWaiter_waits hc))) h).of_same rfl rfl rfl rfl rfl rfl

theorem meets_releaseUnit (hl : v.up.get l.port = false) (x : Origin) (h : l.meets b (plus du x 1) dd) :
    l.meets (releaseUnit v b x) du dd := by
  cases x with
  | writeHome p =>
    change l.meets (b.modShare p fun h => { h with writeFree := h.writeFree + 1 }) du dd
    exact meets_shareUnits h (fun _ => ⟨rfl, rfl, rfl, rfl, Nat.le_succ _, Nat.le_refl _⟩) (by simp [plus]; omega)
        (by simp [plus])
      (by simp [plus]) (fun o hn _ _ => by simp [plus, hn.symm]) fun _ => ⟨rfl, rfl, rfl⟩
  | readHome p =>
    refine meets_fillPort p (meets_shareUnits h (fun _ => ⟨rfl, rfl, rfl, rfl, Nat.le_refl _, Nat.le_refl _⟩) (by simp [plus]) ?_
      (by simp [plus]) (fun o _ hn _ => by simp [plus, hn.symm]) fun _ => ⟨rfl, rfl, rfl⟩)
    simp [plus]
    omega
  | pool =>
    simp only [releaseUnit]
    split
    · next hc => exact meets_handPoolUnit hl hc h
    · exact meets_free h (by simp [plus]; omega) rfl rfl rfl fun o hn _ => ⟨by simp [plus, hn.symm], rfl⟩
  | internal => exact meets_free h rfl (by simp [plus]; omega) rfl rfl fun o _ hn => ⟨by simp [plus, hn.symm], rfl⟩

theorem meets_releaseUnits (hl : v.up.get l.port = false) (os : List Origin) (h : l.meets b (fun o => du o + countOf os o) dd) :
    l.meets (releaseUnits v b os) du dd := by
  induction os generalizing b with
  | nil => exact h
  | cons x os ih =>
    have split : (fun o => du o + countOf (x :: os) o) = plus (fun o => du o + countOf os o) x 1 := by
      funext o
      simp only [plus, countOf_cons]
      omega
    exact ih (meets_releaseUnit hl x (split ▸ h))

theorem meets_giveReadDesc (p : Port) (h : l.meets b du (plus dd (.readHome p) 1)) : l.meets (giveReadDesc v b p) du dd := by
  unfold giveReadDesc
  split
  · extract_lets id
    have given : l.meets { b with allocs := assignDesc p id b.allocs } du (plus dd (.readHome p) 1) := h.of_same rfl rfl rfl rfl rfl rfl
    exact meets_fillPort p (meets_addDesc _ given (fun o => by simp) fun o => rfl)
  · exact meets_shareDescs h (fun _ => ⟨rfl, rfl, rfl, rfl, Nat.le_refl _, Nat.le_refl _⟩) (by simp [plus]) (by simp [plus]; omega)
      (by simp [plus]) (fun o _ hn _ => by simp [plus, hn.symm]) fun _ => ⟨rfl, rfl, rfl⟩

/-- A pool descriptor that no port waits for is FREE again. -/
theorem meets_descPoolFree (h : l.meets b du (plus dd .pool 1)) : l.meets { b with descPoolFree := b.descPoolFree + 1 } du dd :=
  meets_free h rfl rfl (by simp [plus]; omega) rfl fun o hn _ => ⟨rfl, by simp [plus, hn.symm]⟩

theorem meets_releasePoolDesc (hl : v.up.get l.port = false) (h : l.meets b du (plus dd .pool 1)) : l.meets (releasePoolDesc v b) du dd
    := by
  unfold releasePoolDesc
  split
  · split
    · next q hq =>
      have hne : q ≠ l.port := up_ne hl (descWaiter_up (List.find?_some hq))
      have granted := meets_shareDescs (dd' := dd) (p := q)
        (f := fun x => { x with descPoolGranted := x.descPoolGranted + 1, cumDescs := addCount x.cumDescs 1 }) h
        (fun e => absurd e hne) (by simp [plus]) (by simp [plus]) (by simp [plus]; omega) (fun o _ _ hn => by simp [plus, hn.symm])
        fun _ => ⟨rfl, rfl, rfl⟩
      exact granted.of_same rfl rfl rfl rfl rfl rfl
    · exact meets_descPoolFree h
  · exact meets_descPoolFree h

theorem meets_releasePoolDescs (hl : v.up.get l.port = false) (n : Nat) (h : l.meets b du (plus dd .pool n)) :
    l.meets (releasePoolDescs v n b) du dd := by
  induction n generalizing b with
  | zero =>
    have none : plus dd .pool 0 = dd := by funext o; simp [plus]
    rwa [none] at h
  | succ n ih =>
    have split : plus dd .pool (n + 1) = plus (plus dd .pool n) .pool 1 := by
      funext o
      simp only [plus]
      split <;> omega
    exact ih (meets_releasePoolDesc hl (split ▸ h))

theorem meets_releaseDescOf (hl : v.up.get l.port = false) (x : Origin) (h : l.meets b du (plus dd x 1)) :
    l.meets (releaseDescOf v b x) du dd := by
  cases x with
  | writeHome p =>
    change l.meets (b.modShare p fun h => { h with descWriteFree := h.descWriteFree + 1 }) du dd
    exact meets_shareDescs h (fun _ => ⟨rfl, rfl, rfl, rfl, Nat.le_refl _, Nat.le_succ _⟩) (by simp [plus]; omega)
        (by simp [plus])
      (by simp [plus]) (fun o hn _ _ => by simp [plus, hn.symm]) fun _ => ⟨rfl, rfl, rfl⟩
  | readHome p => exact meets_giveReadDesc p h
  | pool => exact meets_releasePoolDesc hl h
  | internal => exact meets_free h rfl rfl rfl (by simp [plus]; omega) fun o _ hn => ⟨rfl, by simp [plus, hn.symm]⟩

theorem meets_release (hl : v.up.get l.port = false) (id : Nat) (h : l.meets b du dd) : l.meets (b.release v id) du dd := by
  unfold Buffer.release
  split
  · next d hd =>
    have removed : l.meets { b with descs := removeDesc id b.descs } (fun o => du o + countOf (d.units ++ d.raw) o)
        (plus dd d.origin 1) := by
      refine h.of_descs (fun o => ?_) (fun o => ?_)
      · have := (sum_removeDesc id o b.descs d hd).1
        rw [Desc.unitsOf_eq] at this
        simp only [Buffer.heldUnits, countOf_append]
        omega
      · have := (sum_removeDesc id o b.descs d hd).2
        simp only [Buffer.heldDescs, plus]
        omega
    exact meets_releaseDescOf hl _ (meets_releaseUnits hl _ (removed.of_same rfl rfl rfl rfl rfl rfl))
  · exact h

theorem meets_cancelRead (hl : v.up.get l.port = false) (bay : Bay) (h : l.meets b du dd) : l.meets (b.cancelRead v bay) du dd := by
  have dropped : l.meets (b.dropRead bay) du dd := h.of_same rfl rfl rfl rfl rfl rfl
  unfold Buffer.cancelRead
  split
  · split
    · exact meets_release hl _ dropped
    · exact dropped
  · exact h

theorem meets_withdrawReserve (bay : Bay) (h : l.meets b du dd) : l.meets (b.withdrawReserve bay) du dd :=
  h.of_same rfl rfl rfl rfl rfl rfl

/-! ### Refill (R81 to R83) -/

theorem meets_refillUnits {p : Port} (hp : p ≠ l.port) (h : l.meets b du dd) : l.meets (refillUnits v b p) du dd := by
  unfold refillUnits
  extract_lets sh lack home pool src
  have hhome : home ≤ (b.share.get p).writeFree := Nat.min_le_right _ _
  have hpool : pool ≤ b.poolFree := by simp only [pool]; split; exact Nat.min_le_right _ _; omega
  clear_value home pool
  have taken : l.meets { b with poolFree := b.poolFree - pool } (plus du .pool pool) dd :=
    meets_free h (by simp [plus]; omega) rfl rfl rfl fun o hn _ => ⟨by simp [plus, hn.symm], rfl⟩
  exact meets_shareUnits (p := p) (du' := du)
    (f := fun h => { h with writeFree := h.writeFree - home, writeGranted := h.writeGranted + home,
                            poolGranted := h.poolGranted + pool, cumUnits := addCount h.cumUnits (home + pool) }) taken (fun e => absurd
                                e hp) (by simp [plus]; omega) (by simp [plus]) (by simp [plus]; omega)
    (fun o _ _ hn => by simp [plus, hn.symm]) fun _ => ⟨rfl, rfl, rfl⟩

theorem meets_refillDescs {p : Port} (hp : p ≠ l.port) (h : l.meets b du dd) : l.meets (refillDescs v b p) du dd := by
  unfold refillDescs
  extract_lets sh lack home pool src
  have hhome : home ≤ (b.share.get p).descWriteFree := Nat.min_le_right _ _
  have hpool : pool ≤ b.descPoolFree := by simp only [pool]; split; exact Nat.min_le_right _ _; omega
  clear_value home pool
  have taken : l.meets { b with descPoolFree := b.descPoolFree - pool } du (plus dd .pool pool) :=
    meets_free h rfl rfl (by simp [plus]; omega) rfl fun o hn _ => ⟨rfl, by simp [plus, hn.symm]⟩
  exact meets_shareDescs (p := p) (dd' := dd)
    (f := fun h => { h with descWriteFree := h.descWriteFree - home, descWriteGranted := h.descWriteGranted + home,
                            descPoolGranted := h.descPoolGranted + pool, cumDescs := addCount h.cumDescs (home + pool) }) taken (fun e =>
                                absurd e hp) (by simp [plus]; omega) (by simp [plus]) (by simp [plus]; omega)
    (fun o _ _ hn => by simp [plus, hn.symm]) fun _ => ⟨rfl, rfl, rfl⟩

theorem meets_refillPort (hl : v.up.get l.port = false) (p : Port) (h : l.meets b du dd) : l.meets (refillPort v b p) du dd := by
  unfold refillPort
  split
  · next hup =>
    have hp := up_ne hl hup
    extract_lets b1
    have units : l.meets b1 du dd := by
      simp only [b1]
      split
      · exact meets_refillUnits hp h
      · exact h
    split
    · exact meets_refillDescs hp units
    · exact units
  · exact h

theorem meets_settle (hl : v.up.get l.port = false) (h : l.meets b du dd) : l.meets (settle v b) du dd :=
  meets_refillPort hl _ (meets_refillPort hl _ (meets_refillPort hl _ (meets_fillPort _ (meets_fillPort _ (meets_fillPort _ h)))))

end

/-! ### The detach (R93) -/

/-- A port's share with what was granted to it taken back. -/
def Share.takenBack (h : Share) : Share :=
  { h with writeFree := h.writeFree + h.writeGranted, writeGranted := 0, poolGranted := 0,
           descWriteFree := h.descWriteFree + h.descWriteGranted, descWriteGranted := 0, descPoolGranted := 0 }

/-- The ledger of a buffer whose port p goes DOWN. -/
def Buffer.lossLedger (b : Buffer) (p : Port) : Ledger := ⟨b.unitsIn, b.descsIn, p, (b.share.get p).takenBack⟩

theorem meets_detach {v : CreditEnv} (b : Buffer) {p : Port} (hp : v.up.get p = false) :
    (b.lossLedger p).meets (b.detach v p) (fun _ => 0) (fun _ => 0) := by
  have back : (b.lossLedger p).meets (b.modShare p Share.takenBack)
      (fun o => 0 + countOf (List.replicate (b.share.get p).poolGranted .pool) o) (plus (fun _ => 0) .pool (b.share.get
          p).descPoolGranted)
      := by
    refine ⟨fun o => ?_, fun o => ?_, ?_⟩
    · change _ = b.unitsIn o
      cases p <;> rcases o with q | q | _ | _ <;> (try cases q) <;>
        simp [Share.takenBack, Buffer.unitsIn, Buffer.modShare, PerPort.get, PerPort.set, Buffer.heldUnits] <;> omega
    · change _ = b.descsIn o
      cases p <;> rcases o with q | q | _ | _ <;> (try cases q) <;>
        simp [plus, Share.takenBack, Buffer.descsIn, Buffer.modShare, PerPort.get, PerPort.set, Buffer.heldDescs] <;> omega
    · change (b.share.get p).takenBack.stands ((b.share.set p (b.share.get p).takenBack).get p)
      rw [PerPort.get_set, if_pos rfl]
      exact .refl _
  exact meets_releasePoolDescs hp _ (meets_releaseUnits hp _ back)

end Sys2Proof.Machine
end

section
/-! PROOFS. The link down and the link reset (R171, R172): what the losses of a port that has gone DOWN leave of its controller and of the
buffer, and what is left once its credit is settled and its claim hold begun. -/

namespace Sys2Proof.Machine

/-! ### The losses of a DOWN port (R51, R93, R123, R155, R167) -/

/-- From z to u the controller of the ledger's port, which is DOWN with no data frame, stands, and the buffer meets the ledger. -/
structure Lost (l : Ledger) (z u : State) : Prop where
  port : u.port l.port = z.port l.port
  down : (u.port l.port).up = false
  frames : (u.port l.port).frames = []
  buffer : l.meets u.buffer (fun _ => 0) (fun _ => 0)

section
variable {l : Ledger} {z u t : State}

theorem Lost.of_eq (h : Lost l z u) (hp : t.ports = u.ports) (hb : t.buffer = u.buffer) : Lost l z t := by
  have hport : t.port l.port = u.port l.port := congrArg (PerPort.get · l.port) hp
  exact ⟨hport.trans h.port, hport ▸ h.down, hport ▸ h.frames, hb ▸ h.buffer⟩

theorem Lost.envDown (h : Lost l z u) : u.creditEnv.up.get l.port = false := by
  have := h.down
  cases hp : l.port <;> rw [hp] at this <;> exact this

theorem lost_modPort {q : Port} {f : PortCtl → PortCtl} (h : Lost l z u)
    (hf : ∀ c : PortCtl, c.up = false → c.frames = [] → f c = c) : Lost l z (u.modPort q f) := by
  have hport : (u.modPort q f).port l.port = u.port l.port := by
    rw [modPort_at]
    split
    · next hq => rw [← hq, hf _ h.down h.frames]
    · rfl
  exact ⟨hport.trans h.port, hport ▸ h.down, hport ▸ h.frames, h.buffer⟩

theorem lost_foldl {α : Type} {f : State → α → State} {as : List α} (h : Lost l z u) (hf : ∀ t a, Lost l z t → Lost l z (f t a)) :
    Lost l z (as.foldl f u) := by
  induction as generalizing u with
  | nil => exact h
  | cons a as ih => exact ih (hf u a h)

theorem lost_ite {c : Prop} [Decidable c] (h : Lost l z u) (g : Lost l z t) : Lost l z (if c then u else t) := by
  split
  · exact h
  · exact g

theorem lost_queueNotice {p : Port} {n : Notice} (h : Lost l z u) : Lost l z (queueNotice u p n) :=
  lost_modPort h fun c hd _ => by simp [hd]

theorem lost_answer {p : Port} {tag : Byte} {kind : ReqKind} {code : ReplyCode} {body : ReplyBody} {clamped : Bool} (h : Lost l z u) :
    Lost l z (answer u p tag kind code body clamped) := by
  rw [answer, queueReply]
  exact lost_modPort h fun c hd _ => by simp [hd]

theorem lost_answerHeld {p : Port} {tag : Option Byte} {kind : ReqKind} {code : ReplyCode} {body : ReplyBody} {clamped : Bool}
    (h : Lost l z u) : Lost l z (answerHeld u p tag kind code body clamped) := by
  unfold answerHeld
  split
  · exact lost_answer h
  · exact h

theorem lost_creditNotice {old : Buffer} {p : Port} (h : Lost l z u) : Lost l z (creditNotice old u p) :=
  lost_ite h (lost_queueNotice h)

theorem lost_onBuffer {f : CreditEnv → Buffer → Buffer} (h : Lost l z u)
    (hf : l.meets (f u.creditEnv u.buffer) (fun _ => 0) (fun _ => 0)) : Lost l z (onBuffer u f) := by
  have changed : Lost l z { u with buffer := f u.creditEnv u.buffer } := ⟨h.port, h.down, h.frames, hf⟩
  exact lost_creditNotice (lost_creditNotice (lost_creditNotice changed))

theorem lost_releaseDesc {id : Nat} (h : Lost l z u) : Lost l z (releaseDesc u id) :=
  lost_onBuffer h (meets_release h.envDown id h.buffer)

theorem lost_cancelRead {b : Bay} (h : Lost l z u) : Lost l z (onBuffer u fun v x => x.cancelRead v b) :=
  lost_onBuffer h (meets_cancelRead h.envDown b h.buffer)

theorem lost_withdrawReserve {b : Bay} (h : Lost l z u) : Lost l z (onBuffer u fun _ x => x.withdrawReserve b) :=
  lost_onBuffer h (meets_withdrawReserve b h.buffer)

theorem lost_settle (h : Lost l z u) : Lost l z (onBuffer u settle) := lost_onBuffer h (meets_settle h.envDown h.buffer)

theorem lost_modRestore {b : Bay} {f : RestoreRun → RestoreRun} (h : Lost l z u) : Lost l z (u.modRestore b f) := h.of_eq rfl rfl
theorem lost_modVerify {b : Bay} {f : VerifyRun → VerifyRun} (h : Lost l z u) : Lost l z (u.modVerify b f) := h.of_eq rfl rfl
theorem lost_modStream {b : Bay} {f : Stream → Stream} (h : Lost l z u) : Lost l z (u.modStream b f) := h.of_eq rfl rfl
theorem lost_withdrawItem {b : Bay} {id : Nat} (h : Lost l z u) : Lost l z (withdrawItem u b id) := h.of_eq rfl rfl
theorem lost_abandonInHand {id : Nat} (h : Lost l z u) : Lost l z (abandonInHand u id) := h.of_eq rfl rfl

/-! The streams (R123) -/

theorem lost_answerSync {b : Bay} {tag : Byte} {code : ReplyCode} (h : Lost l z u) : Lost l z (answerSync u b tag code) := by
  unfold answerSync
  dsimp only
  split
  · exact lost_modStream (lost_answer h)
  · exact h

theorem lost_answerClosing {b : Bay} {q : Closing} (h : Lost l z u) : Lost l z (answerClosing b u q) :=
  lost_ite (lost_answerHeld h) (lost_ite (lost_modStream (lost_answerHeld h)) h)

theorem lost_closeStream {b : Bay} (h : Lost l z u) : Lost l z (closeStream u b) := by
  have aborts := lost_foldl (as := (u.stream b).closing.filter fun q => q.isAbort)
    (lost_foldl (as := (u.stream b).closing.filter fun q => !q.isAbort) h fun _ q ht => lost_answerClosing (b := b) (q := q) ht)
    fun _ q ht => lost_answerClosing (b := b) (q := q) ht
  have answered : Lost l z (closeAnswered u b) := lost_ite aborts (lost_foldl aborts fun _ _ ht => lost_answerSync ht)
  rw [closeStream_eq]
  exact answered.of_eq rfl rfl

theorem lost_streamLinkLoss {b : Bay} (h : Lost l z u) : Lost l z (streamLinkLoss u b) := by
  have untold : Lost l z (u.modStream b fun c => { c with syncs := [], openTag := none }) := lost_modStream h
  unfold streamLinkLoss
  dsimp only
  split
  · exact lost_modStream untold
  · exact lost_modStream untold
  · exact lost_modStream untold
  · exact lost_closeStream untold
  · exact lost_modStream untold
  · exact untold
  · exact untold

theorem lost_portStreamsLoss {p : Port} (h : Lost l z u) : Lost l z (portStreamsLoss u p) := by
  have untagged : Lost l z (untagClosing (untagClosing u p .d0) p .d1) := lost_modStream (lost_modStream h)
  have first := lost_ite (c := ((untagClosing (untagClosing u p .d0) p .d1).stream .d0).port = some p)
    (lost_streamLinkLoss (b := .d0) untagged) untagged
  exact lost_ite (lost_streamLinkLoss first) first

/-! The restore runs (R155) -/

theorem lost_giveUpDesc {b : Bay} {id : Nat} (h : Lost l z u) : Lost l z (giveUpDesc u b id) :=
  lost_ite (lost_abandonInHand h) (lost_releaseDesc (lost_withdrawItem h))

theorem lost_giveUpStaged {b : Bay} {e : Staged} (h : Lost l z u) : Lost l z (giveUpStaged b u e) := by
  unfold giveUpStaged
  split
  · exact lost_giveUpDesc (lost_modRestore h)
  · exact lost_cancelRead (lost_modRestore h)

theorem lost_giveUpStagedIf {b : Bay} {f : Staged → Bool} (h : Lost l z u) : Lost l z (giveUpStagedIf u b f) := by
  unfold giveUpStagedIf
  split
  · exact lost_foldl h fun _ _ ht => lost_giveUpStaged ht
  · exact h

theorem lost_giveUpIndex {b : Bay} (h : Lost l z u) : Lost l z (giveUpIndex u b) := by
  unfold giveUpIndex
  repeat' split
  · exact h
  · exact lost_giveUpDesc (lost_modRestore h)
  · exact lost_cancelRead (lost_modRestore h)
  · exact h

theorem lost_withdrawFrames {b : Bay} {p : Port} (h : Lost l z u) : Lost l z (withdrawFrames u b p) := by
  unfold withdrawFrames
  refine lost_modPort (lost_giveUpStagedIf h) fun c _ hf => ?_
  rw [hf, List.filter_nil, ← hf]

theorem lost_restoreAbort {b : Bay} (h : Lost l z u) : Lost l z (restoreAbort u b) := by
  unfold restoreAbort
  split
  · exact lost_withdrawFrames (lost_giveUpIndex (lost_giveUpStagedIf (lost_modRestore h)))
  · exact h

theorem lost_restoreLinkLoss {b : Bay} (h : Lost l z u) : Lost l z (restoreLinkLoss u b) :=
  lost_giveUpStagedIf (lost_restoreAbort (lost_modRestore h))

theorem lost_onLeftRestore {b : Bay} {k : Nat} {f : State → State} (h : Lost l z u) (hf : ∀ t, Lost l z t → Lost l z (f t)) :
    Lost l z (onLeftRestore u b k f) := by
  unfold onLeftRestore
  split
  · next r _ =>
    have done := hf (u.setRestore b (some r)) (h.of_eq rfl rfl)
    exact done.of_eq rfl rfl
  · exact h

theorem lost_bayRestoresLoss {p : Port} {b : Bay} (h : Lost l z u) : Lost l z (bayRestoresLoss p u b) :=
  lost_foldl (lost_ite (lost_restoreLinkLoss h) h) fun _ _ ht =>
    lost_ite (lost_onLeftRestore ht fun _ hw => lost_restoreLinkLoss hw) ht

theorem lost_portRestoresLoss {p : Port} (h : Lost l z u) : Lost l z (portRestoresLoss u p) :=
  lost_bayRestoresLoss (lost_bayRestoresLoss (h.of_eq rfl rfl))

/-! The verify runs (R167) -/

theorem lost_verifyRelease {b : Bay} (h : Lost l z u) : Lost l z (verifyRelease u b) := by
  unfold verifyRelease
  repeat' split
  · exact lost_releaseDesc (lost_modVerify h)
  · exact lost_modVerify h
  · exact h

theorem lost_verifyAbort {b : Bay} (h : Lost l z u) : Lost l z (verifyAbort u b) := by
  unfold verifyAbort
  split
  · next r _ =>
    have asked : Lost l z (if r.phase = .reserving then onBuffer u fun _ x => x.withdrawReserve b else u) :=
      lost_ite (lost_withdrawReserve h) h
    dsimp only
    refine lost_modVerify ?_
    split
    · exact lost_ite (lost_abandonInHand asked) (lost_verifyRelease (lost_withdrawItem asked))
    · exact asked
  · exact h

theorem lost_verifyLinkLoss {b : Bay} (h : Lost l z u) : Lost l z (verifyLinkLoss u b) :=
  lost_modVerify (lost_verifyAbort (lost_modVerify h))

theorem lost_onLeftVerify {b : Bay} {k : Nat} {f : State → State} (h : Lost l z u) (hf : ∀ t, Lost l z t → Lost l z (f t)) :
    Lost l z (onLeftVerify u b k f) := by
  unfold onLeftVerify
  split
  · next r _ =>
    have done := hf (u.setVerify b (some r)) (h.of_eq rfl rfl)
    exact done.of_eq rfl rfl
  · exact h

theorem lost_bayVerifiesLoss {p : Port} {b : Bay} (h : Lost l z u) : Lost l z (bayVerifiesLoss p u b) :=
  lost_foldl (lost_ite (lost_verifyLinkLoss h) h) fun _ _ ht => lost_ite (lost_onLeftVerify ht fun _ hw => lost_verifyLinkLoss hw) ht

theorem lost_portVerifiesLoss {p : Port} (h : Lost l z u) : Lost l z (portVerifiesLoss u p) :=
  lost_bayVerifiesLoss (lost_bayVerifiesLoss (h.of_eq rfl rfl))

end

/-! ### The link lost (R171) -/

section
variable (s : State) (p : Port)

/-- The port DOWN with its tags dropped, and its stored requests without theirs. -/
def linkUntagged : State :=
  { s.modPort p PortCtl.wentDown with storeWrite := s.storeWrite.map (ConfigRequest.untag p),
                                      configWaiting := s.configWaiting.map (ConfigRequest.untag p),
                                      releaseWrites := s.releaseWrites.map (ReleaseWrite.untag p) }

/-- The port's credit taken back. -/
def linkDetached : State := onBuffer (linkUntagged s p) fun v b => b.detach v p

theorem linkLost_eq : linkLost s p
    = portVerifiesLoss (portRestoresLoss (portStreamsLoss (portMovesLoss (linkDetached s p) p) p) p) p := rfl

theorem linkUntagged_port : (linkUntagged s p).port p = (s.port p).wentDown := (modPort_at s p p PortCtl.wentDown).trans (if_pos rfl)

theorem linkUntagged_envDown : (linkUntagged s p).creditEnv.up.get p = false := by
  have : ((linkUntagged s p).port p).up = false := by rw [linkUntagged_port]; rfl
  cases p <;> exact this

theorem lost_linkLost : Lost (s.buffer.lossLedger p) (linkUntagged s p) (linkLost s p) := by
  have hport := linkUntagged_port s p
  have detached : Lost (s.buffer.lossLedger p) (linkUntagged s p)
      { linkUntagged s p with buffer := s.buffer.detach (linkUntagged s p).creditEnv p } :=
    ⟨rfl, congrArg PortCtl.up hport, congrArg PortCtl.frames hport, meets_detach s.buffer (linkUntagged_envDown s p)⟩
  have told : Lost (s.buffer.lossLedger p) (linkUntagged s p) (linkDetached s p) :=
    lost_creditNotice (lost_creditNotice (lost_creditNotice detached))
  have moves : Lost (s.buffer.lossLedger p) (linkUntagged s p) (portMovesLoss (linkDetached s p) p) := told.of_eq (by simp) (by simp)
  rw [linkLost_eq]
  exact lost_portVerifiesLoss (lost_portRestoresLoss (lost_portStreamsLoss moves))

theorem linkLost_port : (linkLost s p).port p = (s.port p).wentDown := (lost_linkLost s p).port.trans (linkUntagged_port s p)

theorem linkLost_rest : (linkLost s p).store = s.store ∧ (linkLost s p).storeWrite = s.storeWrite.map (ConfigRequest.untag p)
    ∧ (linkLost s p).releaseWrites = s.releaseWrites.map (ReleaseWrite.untag p) := by
  obtain ⟨-, -, -, hw, -, hr, -⟩ := side_fields (show (linkLost s p).side = (linkUntagged s p).side by simp [linkLost_eq, linkDetached])
  exact ⟨by simp [linkLost_eq, linkDetached, linkUntagged], hw, hr⟩

end

/-! ### The element table and the picker but for the claims and the queue -/

/-- From s to t the elements keep their states, and the picker its condition and its motion. -/
structure StandsAsWas (s t : State) : Prop where
  elements : t.elements.map (fun e => (e.pea, e.state)) = s.elements.map (fun e => (e.pea, e.state))
  condition : t.picker.condition = s.picker.condition
  motion : t.picker.motion = s.picker.motion

theorem StandsAsWas.refl (s : State) : StandsAsWas s s := ⟨rfl, rfl, rfl⟩

theorem StandsAsWas.trans {s t u : State} (h : StandsAsWas s t) (g : StandsAsWas t u) : StandsAsWas s u :=
  ⟨g.elements.trans h.elements, g.condition.trans h.condition, g.motion.trans h.motion⟩

theorem StandsAsWas.rebase {s t u : State} (h : StandsAsWas t u) (he : t.elements = s.elements)
    (hc : t.picker.condition = s.picker.condition) (hm : t.picker.motion = s.picker.motion) : StandsAsWas s u :=
  StandsAsWas.trans ⟨by rw [he], hc, hm⟩ h

theorem StandsAsWas.of_eq {s t : State} (he : t.elements = s.elements) (hp : t.picker = s.picker) : StandsAsWas s t :=
  ⟨by rw [he], by rw [hp], by rw [hp]⟩

theorem standsAsWas_elements (s : State) {f : Element → Element} (hf : ∀ e, (f e).pea = e.pea ∧ (f e).state = e.state) :
    StandsAsWas s { s with elements := s.elements.map f } := by
  refine ⟨?_, rfl, rfl⟩
  rw [List.map_map]
  exact List.map_congr_left fun e _ => Prod.ext (hf e).1 (hf e).2

theorem standsAsWas_clearClaims (s : State) (n : Nat) : StandsAsWas s (clearClaims s n) :=
  standsAsWas_elements s fun e => by split <;> exact ⟨rfl, rfl⟩

theorem standsAsWas_setClaim (s : State) (pea n : Nat) : StandsAsWas s (setClaim s pea n) :=
  standsAsWas_elements s fun e => by split <;> exact ⟨rfl, rfl⟩

theorem standsAsWas_withdrawEntry (s : State) (e : MoveEntry) : StandsAsWas s (withdrawEntry s e) := by
  have removed : StandsAsWas s (removeEntry s e.number) :=
    StandsAsWas.trans (t := s.modPicker fun k => { k with queue := k.queue.filter fun x => x.number ≠ e.number }) ⟨rfl, rfl, rfl⟩
      (standsAsWas_clearClaims _ _)
  unfold withdrawEntry
  dsimp only
  split
  · split
    · exact removed.trans (.of_eq rfl rfl)
    · exact removed
  · exact removed

theorem standsAsWas_portMovesLoss (s : State) (p : Port) : StandsAsWas s (portMovesLoss s p) := by
  have withdrawn : ∀ (l : List MoveEntry) (t : State), StandsAsWas t (l.foldl withdrawEntry t) := by
    intro l
    induction l with
    | nil => exact StandsAsWas.refl
    | cons e l ih => exact fun t => (standsAsWas_withdrawEntry t e).trans (ih _)
  exact (withdrawn _ s).trans ⟨rfl, rfl, rfl⟩

theorem standsAsWas_linkLost (s : State) (p : Port) : StandsAsWas s (linkLost s p) := by
  have detached : StandsAsWas s (linkDetached s p) :=
    .of_eq (by simp [linkDetached, linkUntagged]) (by simp [linkDetached, linkUntagged])
  have moves := detached.trans (standsAsWas_portMovesLoss (linkDetached s p) p)
  rw [linkLost_eq]
  exact moves.trans (.of_eq (by simp) (by simp))

/-! ### The claim hold (R171 step 5, R177, R178) -/

/-- An UNLOAD of the 716's own leaves the elements, the picker's motion and the started LOADs as they were. -/
theorem queueOwedUnload_stands (s : State) (b : Bay) : StandsAsWas s (queueOwedUnload s b)
    ∧ ∀ q a, startedLoad (queueOwedUnload s b) q a = startedLoad s q a := by
  unfold queueOwedUnload
  split
  · refine ⟨?_, fun q a => ?_⟩
    · unfold acceptEntry
      exact StandsAsWas.trans (t := s.modPicker _) ⟨rfl, rfl, rfl⟩ (standsAsWas_setClaim _ _ _)
    · simp [startedLoad, acceptEntry, setClaim, modElement, State.modPicker, Requester.isPort]
  · exact ⟨.refl s, fun _ _ => rfl⟩

theorem markIf_stands (due : Bool) (s : State) (b : Bay) : StandsAsWas s (markIf due s b)
    ∧ ∀ q a, startedLoad (markIf due s b) q a = startedLoad s q a := by
  unfold markIf markOwed
  split
  · split
    · exact ⟨.refl s, fun _ _ => rfl⟩
    · obtain ⟨h0, l0⟩ := queueOwedUnload_stands (s.modPicker fun k => { k with unloadOwed := k.unloadOwed.set b true }) .d0
      obtain ⟨h1, l1⟩ := queueOwedUnload_stands
        (queueOwedUnload (s.modPicker fun k => { k with unloadOwed := k.unloadOwed.set b true }) .d0) .d1
      exact ⟨(h0.trans h1).rebase rfl rfl rfl, fun q a => (l1 q a).trans (l0 q a)⟩
  · exact ⟨.refl s, fun _ _ => rfl⟩

theorem holdExpiry_stands (s : State) (p : Port) : StandsAsWas s (holdExpiry s p)
    ∧ ∀ q a, startedLoad (holdExpiry s p) q a = startedLoad s q a := by
  obtain ⟨h0, l0⟩ := markIf_stands (holdDue s p .d0) (holdExpired s p) .d0
  obtain ⟨h1, l1⟩ := markIf_stands (holdDue s p .d1) (markIf (holdDue s p .d0) (holdExpired s p) .d0) .d1
  rw [holdExpiry_eq]
  exact ⟨(h0.trans h1).rebase rfl rfl rfl, fun q a => (l1 q a).trans (l0 q a)⟩

/-- The claim hold of a port that has lost its link: begun for the claims outside the list, and ended at once with the setting 0. -/
def linkHeld (s : State) (p : Port) : State :=
  if holdsClaim s p then if s.settings.claimHold = 0 then holdExpiry (beginHold s p) p else beginHold s p else s

section
variable {s : State} {p : Port}

theorem beginHold_port : (beginHold s p).port p = { s.port p with
    claimTimer := .running (1000 * s.settings.claimHold), holding := ⟨claimOutside s p .d0, claimOutside s p .d1⟩ } :=
  (modPort_at s p p _).trans (if_pos rfl)

theorem bayClaimed_congr {t : State} (hd : t.drives = s.drives) (hl : ∀ q a, startedLoad t q a = startedLoad s q a) (b : Bay) :
    bayClaimed t p b = bayClaimed s p b := by
  rw [bayClaimed, bayClaimed, hl, State.drive, State.drive, hd]

theorem linkHeld_rest : (linkHeld s p).side = s.side ∧ (linkHeld s p).store = s.store ∧ (linkHeld s p).drives = s.drives
    ∧ (linkHeld s p).buffer = s.buffer := by
  unfold linkHeld
  split
  · split
    · simp
    · simp
  · exact ⟨rfl, rfl, rfl, rfl⟩

theorem linkHeld_stands : StandsAsWas s (linkHeld s p) ∧ ∀ q a, startedLoad (linkHeld s p) q a = startedLoad s q a := by
  unfold linkHeld
  split
  · split
    · obtain ⟨h, l⟩ := holdExpiry_stands (beginHold s p) p
      exact ⟨h.rebase rfl rfl rfl, l⟩
    · exact ⟨⟨rfl, rfl, rfl⟩, fun _ _ => rfl⟩
  · exact ⟨.refl s, fun _ _ => rfl⟩

theorem claimOutside_iff (b : Bay) : claimOutside s p b = true ↔ bayClaimed s p b = true ∧ b ∉ (s.port p).released := by
  simp [claimOutside]

theorem holdsClaim_iff : holdsClaim s p = true ↔ ∃ b, claimOutside s p b = true := by
  refine ⟨fun h => ?_, fun ⟨b, hb⟩ => ?_⟩
  · obtain h | h := Bool.or_eq_true_iff.1 h
    · exact ⟨_, h⟩
    · exact ⟨_, h⟩
  · cases b <;> simp [holdsClaim, hb]

/-- The claim hold aside, the port stands. -/
theorem linkHeld_port : (linkHeld s p).port p = { s.port p with
    claimTimer := ((linkHeld s p).port p).claimTimer, holding := ((linkHeld s p).port p).holding,
    released := ((linkHeld s p).port p).released } := by
  unfold linkHeld
  split
  · split
    · rw [holdExpiry_port, holdExpired_port, beginHold_port]
    · rw [beginHold_port]
  · rfl

theorem linkHeld_unclaimed (h : holdsClaim s p = false) : linkHeld s p = s := if_neg (by simp [h])

theorem linkHeld_timed (h : holdsClaim s p = true) (h0 : s.settings.claimHold ≠ 0) :
    ((linkHeld s p).port p).claimTimer = .running (1000 * s.settings.claimHold)
    ∧ ∀ a, ((linkHeld s p).port p).holding.get a = claimOutside s p a := by
  rw [linkHeld, if_pos h, if_neg h0, beginHold_port]
  exact ⟨rfl, fun a => by cases a <;> rfl⟩

/-- With the setting 0 every bay claimed outside the list enters it at once. -/
theorem linkHeld_expired {b : Bay} (hb : claimOutside s p b = true) (h0 : s.settings.claimHold = 0) :
    ((linkHeld s p).port p).claimTimer = .stopped ∧ b ∈ ((linkHeld s p).port p).released := by
  rw [linkHeld, if_pos (holdsClaim_iff.2 ⟨b, hb⟩), if_pos h0]
  refine ⟨by rw [holdExpiry_port, holdExpired_port], (mem_released_holdExpiry b).2 (.inr ?_)⟩
  have listed : ((beginHold s p).port p).released = (s.port p).released := by rw [beginHold_port]
  have governed : ((beginHold s p).port p).holding.get b = claimOutside s p b := by
    rw [beginHold_port]
    cases b <;> rfl
  rw [holdGoverns_iff, governed, listed]
  exact ⟨⟨hb, ((claimOutside_iff b).1 hb).1⟩, ((claimOutside_iff b).1 hb).2⟩

end

/-! ### LINK_DOWN (R171) -/

section
variable (s : State) (p : Port)

/-- The state that LINK_DOWN leaves, but for the frames begun at its end. -/
def linkIsDown : State := onBuffer (linkHeld (linkLost s p) p) settle

theorem exec_linkDown (hup : (s.port p).up = true) : exec (.linkDown p) s = .next (pump (linkIsDown s p)) := by
  change execLinkDown p s = _
  unfold execLinkDown linkIsDown linkHeld
  rw [if_neg (by simp [hup])]
  dsimp only
  split
  · split
    · rfl
    · rfl
  · rfl

theorem lost_linkIsDown : Lost (s.buffer.lossLedger p) (linkHeld (linkLost s p) p) (linkIsDown s p) := by
  have held := linkHeld_port (s := linkLost s p) (p := p)
  have lost := lost_linkLost s p
  refine lost_settle ⟨rfl, (congrArg PortCtl.up held).trans lost.down, (congrArg PortCtl.frames held).trans lost.frames, ?_⟩
  rw [linkHeld_rest.2.2.2]
  exact lost.buffer

theorem linkDown_port : (pump (linkIsDown s p)).port p = (linkHeld (linkLost s p) p).port p := by
  have hd : ((linkIsDown s p).port p).up = false := (lost_linkIsDown s p).down
  rw [pump_port, PortCtl.pump, if_pos (by rw [hd]; rfl)]
  exact (lost_linkIsDown s p).port

theorem linkDown_stands : StandsAsWas s (pump (linkIsDown s p)) :=
  (standsAsWas_linkLost s p).trans ((linkHeld_stands (p := p)).1.trans (.of_eq (by simp [linkIsDown]) (by simp [linkIsDown])))

theorem linkDown_bayClaimed (b : Bay) : bayClaimed (pump (linkIsDown s p)) p b = bayClaimed (linkLost s p) p b := by
  refine (bayClaimed_congr (s := linkHeld (linkLost s p) p) (by simp [linkIsDown]) (fun q a => ?_) b).trans
    (bayClaimed_congr linkHeld_rest.2.2.1 linkHeld_stands.2 b)
  have hpicker : (pump (linkIsDown s p)).picker = (linkHeld (linkLost s p) p).picker := by simp [linkIsDown]
  rw [startedLoad, startedLoad, hpicker]

theorem linkIsDown_store : (linkIsDown s p).store = s.store := by
  have settled : (linkIsDown s p).store = (linkHeld (linkLost s p) p).store := by simp [linkIsDown]
  exact settled.trans (linkHeld_rest.2.1.trans (linkLost_rest s p).1)

theorem linkIsDown_side : (linkIsDown s p).side = (linkLost s p).side := by
  have settled : (linkIsDown s p).side = (linkHeld (linkLost s p) p).side := by simp [linkIsDown]
  exact settled.trans linkHeld_rest.1

theorem linkDown_store : (pump (linkIsDown s p)).store = s.store := by rw [pump_store, linkIsDown_store]

theorem linkDown_writes : (pump (linkIsDown s p)).storeWrite = s.storeWrite.map (ConfigRequest.untag p)
    ∧ (pump (linkIsDown s p)).releaseWrites = s.releaseWrites.map (ReleaseWrite.untag p) := by
  obtain ⟨-, hwrite, hreleases⟩ := linkLost_rest s p
  obtain ⟨-, -, -, hw, -, hr, -⟩ := side_fields (linkIsDown_side s p)
  rw [pump_storeWrite, pump_releaseWrites, hw, hr]
  exact ⟨hwrite, hreleases⟩

theorem linkDown_meets : (s.buffer.lossLedger p).meets (pump (linkIsDown s p)).buffer (fun _ => 0) (fun _ => 0) := by
  rw [pump_buffer]
  exact (lost_linkIsDown s p).buffer

end

/-! ### LINK_RESET (R172) -/

theorem creditNotice_buffer (old : Buffer) (t : State) (p : Port) : (creditNotice old t p).buffer = t.buffer := by
  unfold creditNotice
  dsimp only
  split
  · rfl
  · rfl

/-- What waits at a port that has just come UP: the condition, then its credit. -/
def upNotices (k : LibCondition) (b : Buffer) (p : Port) : List Control :=
  [.notice (.condition k), .notice (.credit (b.share.get p).cumUnits (b.share.get p).cumDescs)]

theorem creditNotice_upNotices {old : Buffer} {t : State} {p : Port} {k : LibCondition} (hup : (t.port p).up = true)
    (hc : (t.port p).control = upNotices k old p) :
    (creditNotice old t p).port p = { t.port p with control := upNotices k t.buffer p } := by
  unfold creditNotice
  dsimp only
  split
  · next heq =>
    obtain ⟨hu, hd⟩ := heq
    have same : upNotices k t.buffer p = (t.port p).control := by rw [hc, upNotices, upNotices, hu, hd]
    rw [same]
  · rw [queueNotice_port, PortCtl.noticed, if_pos hup, hc]
    rfl

/-- A change of the buffer renews the CREDIT notice that waits (R80, R175). -/
theorem onBuffer_upNotices {s : State} {p : Port} {k : LibCondition} (f : CreditEnv → Buffer → Buffer) (hup : (s.port p).up = true)
    (hc : (s.port p).control = upNotices k s.buffer p) :
    (onBuffer s f).port p = { s.port p with control := upNotices k (onBuffer s f).buffer p } := by
  have renewed : ∀ t : State, t.port p = s.port p → t.buffer = f s.creditEnv s.buffer →
      (creditNotice s.buffer t p).port p = { s.port p with control := upNotices k (f s.creditEnv s.buffer) p } := by
    intro t ht hb
    rw [creditNotice_upNotices (k := k) (by rw [ht]; exact hup) (by rw [ht]; exact hc), ht, hb]
  rw [onBuffer_buffer]
  unfold onBuffer
  cases p with
  | p0 =>
    rw [creditNotice_port_ne _ _ (by decide), creditNotice_port_ne _ _ (by decide)]
    exact renewed _ rfl rfl
  | p1 =>
    rw [creditNotice_port_ne _ _ (by decide)]
    exact renewed _ (creditNotice_port_ne _ _ (by decide)) (creditNotice_buffer _ _ _)
  | p2 =>
    refine renewed _ ?_ ?_
    · rw [creditNotice_port_ne _ _ (by decide), creditNotice_port_ne _ _ (by decide)]
      rfl
    · rw [creditNotice_buffer, creditNotice_buffer]

section
variable (s : State) (p : Port)

/-- The port DOWN, and what its detach released settled among the others. -/
def linkDropped : State := onBuffer (linkLost s p) settle

/-- The state that LINK_RESET leaves, but for the frames begun at its end. -/
def linkIsReset : State := onBuffer (linkUp (linkDropped s p) p) settle

theorem exec_linkReset (hup : (s.port p).up = true) : exec (.linkReset p) s = .next (pump (linkIsReset s p)) :=
  if_neg (by simp [hup])

theorem linkDropped_port : (linkDropped s p).port p = (s.port p).wentDown := by
  have dropped : Lost (s.buffer.lossLedger p) (linkUntagged s p) (linkDropped s p) := lost_settle (lost_linkLost s p)
  exact dropped.port.trans (linkUntagged_port s p)

theorem linkIsReset_stands : StandsAsWas s (linkIsReset s p) :=
  (standsAsWas_linkLost s p).trans (.of_eq (by simp [linkIsReset, linkDropped]) (by simp [linkIsReset, linkDropped]))

theorem linkIsReset_store : (linkIsReset s p).store = s.store :=
  (by simp [linkIsReset, linkDropped] : _ = (linkLost s p).store).trans (linkLost_rest s p).1

theorem linkIsReset_port : (linkIsReset s p).port p
    = (s.port p).wentDown.upWith (upNotices s.picker.condition (linkIsReset s p).buffer p) := by
  have hcondition : (linkDropped s p).picker.condition = s.picker.condition :=
    (congrArg Picker.condition (by simp [linkDropped] : (linkDropped s p).picker = (linkLost s p).picker)).trans
      (standsAsWas_linkLost s p).condition
  have hport : (linkUp (linkDropped s p) p).port p
      = (s.port p).wentDown.upWith (upNotices s.picker.condition (linkUp (linkDropped s p) p).buffer p) := by
    rw [linkUp_port (by rw [linkDropped_port]; rfl), linkDropped_port, hcondition]
    rfl
  have settled := onBuffer_upNotices (k := s.picker.condition) settle (congrArg PortCtl.up hport) (congrArg PortCtl.control hport)
  rw [hport] at settled
  exact settled

theorem linkReset_port : (pump (linkIsReset s p)).port p = { (s.port p).wentDown.upWith
      [.notice (.credit ((pump (linkIsReset s p)).buffer.share.get p).cumUnits
        ((pump (linkIsReset s p)).buffer.share.get p).cumDescs)] with
    sending := some (.control (.notice (.condition s.picker.condition))) } := by
  rw [pump_port, pump_buffer, linkIsReset_port]
  exact PortCtl.pump_control rfl rfl rfl

theorem linkReset_stands : StandsAsWas s (pump (linkIsReset s p)) :=
  (linkIsReset_stands s p).trans (.of_eq (pump_elements _) (pump_picker _))

theorem linkReset_store : (pump (linkIsReset s p)).store = s.store := by rw [pump_store, linkIsReset_store]

end

/-- Settles O23. -/
theorem linkDownAndReset : Obligations.LinkDownAndReset := by
  intro s p hup
  have hdown := exec_linkDown s p hup
  have hreset := exec_linkReset s p hup
  have hport := linkDown_port s p
  have held := linkHeld_port (s := linkLost s p) (p := p)
  rw [linkLost_port] at held
  have lost := linkDown_meets s p
  have hstore := linkDown_store s p
  obtain ⟨hwrite, hreleases⟩ := linkDown_writes s p
  have stands := linkDown_stands s p
  have claimed := linkDown_bayClaimed s p
  have hreleased : ((linkLost s p).port p).released = (s.port p).released := by rw [linkLost_port]; rfl
  have hsettings : (linkLost s p).settings = s.settings := congrArg Store.settings (linkLost_rest s p).1
  have reset := linkReset_port s p
  have resetStands := linkReset_stands s p
  have resetStore := linkReset_store s p
  generalize pump (linkIsDown s p) = t at hdown hport lost hstore hwrite hreleases stands claimed
  generalize pump (linkIsReset s p) = u at hreset reset resetStands resetStore
  have outside : ∀ b, claimOutside (linkLost s p) p b = true ↔ bayClaimed t p b = true ∧ b ∉ (s.port p).released := fun b => by
    rw [claimOutside_iff, claimed, hreleased]
  have down := hport.trans held
  refine ⟨t, u, hdown, hreset, congrArg PortCtl.up down, congrArg PortCtl.tags down, congrArg PortCtl.control down,
    congrArg PortCtl.frames down, congrArg PortCtl.sending down, congrArg PortCtl.dropped down, fun q hq hqp => ?_, hreleases,
    lost.share.writeGranted, lost.share.poolGranted, lost.share.descWriteGranted, lost.share.descPoolGranted, lost.share.writeFree,
    lost.share.descWriteFree, fun o => ⟨lost.units o, lost.descs o⟩, fun b hb hn => ?_, fun hall => ?_,
    congrArg PortCtl.up reset, congrArg PortCtl.tags reset, congrArg PortCtl.frames reset, congrArg PortCtl.claimTimer reset,
    congrArg PortCtl.holding reset, congrArg PortCtl.sending reset, congrArg PortCtl.control reset, hstore, resetStore,
    stands.condition, stands.motion, stands.elements, resetStands.elements⟩
  · rw [hwrite, hq, Option.map_some, ConfigRequest.untag, if_pos hqp]
  · have hout := (outside b).2 ⟨hb, hn⟩
    refine ⟨fun h0 => ?_, fun h0 => ?_⟩
    · obtain ⟨htimer, hholding⟩ := linkHeld_timed (holdsClaim_iff.2 ⟨b, hout⟩) (by rw [hsettings]; exact h0)
      rw [hport]
      exact ⟨by rw [htimer, hsettings], fun a => by rw [hholding, outside]⟩
    · rw [hport]
      exact linkHeld_expired hout (by rw [hsettings]; exact h0)
  · have hnone : holdsClaim (linkLost s p) p = false := by
      rw [← Bool.not_eq_true, holdsClaim_iff]
      rintro ⟨b, hb⟩
      obtain ⟨hb, hn⟩ := (outside b).1 hb
      exact hn (hall b hb)
    rw [hport, linkHeld_unclaimed hnone, linkLost_port]
    exact ⟨rfl, rfl, rfl⟩

end Sys2Proof.Machine
end
